-- ==== Sys2Proof/Word.lean ====
section
/-! DEFINITION. The word types of the Morsonak architecture and their plainest arithmetic (spec/00_scope.md R5, R6;
spec/06_numbers.md R127). -/

namespace Sys2Proof

/-- A general register, a control register, a generic address held in one. -/
abbrev Word := BitVec 64
/-- A 32-bit lane, and a 32-bit instruction word. -/
abbrev Lane := BitVec 32
/-- A halfword: the unit of the instruction stream (R151). -/
abbrev Half := BitVec 16
/-- A byte of memory. -/
abbrev Byte := BitVec 8
/-- A vector register: 512 bits, lane i in bits [32i+31:32i] (R127). -/
abbrev VWord := BitVec 512

/-- 1 for true, 0 for false, as a register value. -/
def boolWord (b : Bool) : Word := if b then 1#64 else 0#64

@[simp] theorem boolWord_true : boolWord true = 1#64 := rfl
@[simp] theorem boolWord_false : boolWord false = 0#64 := rfl

end Sys2Proof
end

