-- ==== Sys2Proof/Syntax.lean ====
section
/-! DEFINITION. The syntax of the machine's steps: one constructor of Instr for every row of spec/opcode_table.json, the
342 encoded instructions (spec/07_encoding.md R154 to R165) and the 112 events that have no encoding
(spec/95_what_each_step_holds.md). -/

namespace Sys2Proof

/-- A general register g0–g127 (R155). -/
abbrev GIdx := BitVec 7
/-- A general register of a 5-bit field, g0–g31 (R155, R158). -/
abbrev G5Idx := BitVec 5
/-- A vector register v0–v31. -/
abbrev VIdx := BitVec 5
/-- A distribution register d0–d7. -/
abbrev DIdx := BitVec 3
/-- A mask m0–m7. -/
abbrev MIdx := BitVec 3
/-- An operand-extension register ox0–ox7. -/
abbrev OxIdx := BitVec 3

/-- Element views of the V formats: 32-bit lanes, 64-bit pair elements, 16-bit, 8-bit (R157). -/
inductive Elem | w | d | h | b
  deriving DecidableEq, Repr
/-- The two element types the floating-point and wide functions permit (R192, R203). -/
inductive ElemWD | w | d
  deriving DecidableEq, Repr
/-- Access sizes of the M format (R157). -/
inductive Size | b | h | w | d
  deriving DecidableEq, Repr
/-- Addressing modes (R90). -/
inductive AMode | generic | ls | gi | gb
  deriving DecidableEq, Repr
/-- Scopes (R112). -/
inductive Scope | ctx | core | gal | die | pkg | sys
  deriving DecidableEq, Repr
/-- The two scopes of PUBLISH (R226). -/
inductive PubScope | pkg | sys
  deriving DecidableEq, Repr
/-- Register classes of XREG (R162). -/
inductive RClass | g | v | m | ox
  deriving DecidableEq, Repr

/-- Why an encoding is not an instruction: the reason codes of R165. -/
inductive IllReason
  | reservedMajor | unassigned | scopeTySz | mustBeZero | oddPair | compactForm | ctlNumber | unitAbsent
  | immediate | token
  deriving DecidableEq, Repr

/-- One program of a forme image: what its record says (R320), its segments and folios (R322). -/
structure ProgImage where
  code      : List Byte
  data      : List Byte
  entry     : Nat
  instances : Nat
  pinned    : Bool
  platen    : Bool
  condenser : Bool
  gwin      : Nat
  vwin      : Nat
  dwin      : Nat
  group     : Nat
  trapOff   : Option Nat
  folios    : List (Nat × Nat × Nat × Option Nat)
  deriving DecidableEq, Repr

/-- One queue record of a forme image (R321); `ncons` is the number of consumers it declares. -/
structure QueueImage where
  etype     : BitVec 2
  cap       : Nat
  flow      : Nat
  producers : List Half
  consumers : List Half
  ncons     : Nat
  deriving DecidableEq, Repr

/-- A new program for a replacement (R75): its record and segments, and the queues it declares, each by handle, etype and cap. -/
structure NewProgram where
  prog    : ProgImage
  inputs  : List (Nat × BitVec 2 × Nat)
  outputs : List (Nat × BitVec 2 × Nat)
  deriving DecidableEq, Repr

/-- One relocation (R323). -/
structure Reloc where
  prog    : Nat
  offset  : Nat
  kind    : Nat
  inData  : Bool
  target  : Nat
  addend  : Word
  deriving DecidableEq, Repr

/-- What a well-formed forme image says (R319). -/
structure FormeImage where
  programs : List ProgImage
  queues   : List QueueImage
  relocs   : List Reloc
  deriving DecidableEq, Repr

/-- What the imposer chooses when it places a forme (R72, R73): the spec leaves the choice to it. For each program its code's and data's
virtual and physical addresses; each pinned instance as (program, core); for each queue its handle, home (package, die, galley) and
spill ring; the root of the job's tables with the entries the imposer writes into them; the quiesce word; the status queue's handle;
the placement's packages in rank order and its gang tick; the initial slugs; the queues that are request queues of the services of an IOD,
as (0 storage or 1 editions, queue index) (R388, R396); the queue and program of a push or pop that disagrees with the queue's etype, when
the imposer finds one (R73, R79). -/
structure FormePlan where
  forme     : Nat
  job       : Nat
  run       : Nat
  codeAt    : List Word
  dataAt    : List Word
  codePhys  : List Nat
  dataPhys  : List Nat
  places    : List (Nat × Nat)
  handles   : List Nat
  homes     : List (Nat × Nat × Nat)
  rings     : List Nat
  root      : Nat
  tables    : List (Nat × Word)
  quiesceAt : Word
  statusQ   : Nat
  packages  : List Nat
  gang      : Option Word
  slugs     : List (List Word)
  services  : List (Nat × Nat)
  clash     : Option (Nat × Nat)
  deriving DecidableEq, Repr

/-- A LEAD message (R348). -/
structure LeadMsg where
  round   : Word
  serial  : Word
  members : List Word
  coords  : List (Nat × Nat × Nat)
  dims    : Nat × Nat × Nat
  epoch   : Word
  signed  : Bool
  deriving DecidableEq, Repr

/-- A registration request of a remote-key region (R99, R404). -/
structure KeyRequest where
  base  : Word
  len   : Nat
  job   : Nat
  read  : Bool
  write : Bool
  deriving DecidableEq, Repr

/-- An access of the host to BAR0, or to BAR2 (R339, R341): n bytes at an offset. -/
structure BarAccess where
  bar2   : Bool
  off    : Nat
  n      : Nat
  isRead : Bool
  deriving DecidableEq, Repr

/-- What a power-on finds (R344, R345): whether the digest of the copy of the boot record written last, and that of the other, match; the
digests of the ten steps' inputs as they stand. -/
structure PowerOn where
  good   : Bool
  other  : Bool
  inputs : List (BitVec 384)
  deriving DecidableEq, Repr

/-- Who orders (R349): the round, the leader's serial, whether the signature holds. -/
structure OrderBy where
  round  : Word
  serial : Word
  signed : Bool
  deriving DecidableEq, Repr

/-- A group to be registered (R406): its handle and members. -/
structure GroupRequest where
  handle  : BitVec 32
  members : List Nat
  deriving DecidableEq, Repr

/-- What a storage handle is to name (R387): the controller, with its queue pairs and their depth. -/
structure TargetRequest where
  handle : Half
  ctrl   : Nat
  pairs  : Nat
  depth  : Nat
  deriving DecidableEq, Repr

/-- A granule under an error-correcting code (R371): a register of a context's window, with the lane or the 8 bytes of the image; 8 or 32
bytes of memory by their address in the machine; 8 bytes of a core's plate; a slot of a queue. -/
inductive Protected
  | gReg (ctx i : Nat)
  | vReg (ctx i lane : Nat)
  | dReg (ctx i part : Nat)
  | cell (key : Nat)
  | plate (core off : Nat)
  | slot (queue i : Nat)
  deriving DecidableEq, Repr

/-- An error of storage (R371): where it struck, and whether it is of a single bit, which is corrected. -/
structure StorageError where
  place  : Protected
  single : Bool
  deriving DecidableEq, Repr

/-- What else a sample of the governor finds (R416, R371): a sensor is too hot; the errors of storage since the last one. -/
structure Sensed where
  hot    : Bool
  errors : List StorageError
  deriving DecidableEq, Repr

/-- The commands a leader may give (R349, R405, R406). -/
inductive PodCommand
  | registerKey (digest : BitVec 384) (req : KeyRequest)
  | revokeKey (region : Nat)
  | registerGroup (digest : BitVec 384) (handle : BitVec 32) (members : List Nat)
  | deregisterGroup (handle : BitVec 32)
  deriving DecidableEq, Repr

/-- A packet of a scale-up link (R401): its destination rank, its flits, whether its CRC matches. -/
structure Packet where
  dest     : Nat
  flits    : List (BitVec 160)
  crcOk    : Bool
  detoured : Bool
  msg      : Option Nat
  deriving DecidableEq, Repr

/-- One indivisible step of the machine: an instruction, by its fields, or an event. -/
inductive Instr
  /-- POOLMASK_WRITE (R41): the keeper of the current core writes POOLMASK. -/
  | poolmaskWrite (v : Word)
  /-- SAVEAREA_WRITE (R45): the keeper of the current core writes SAVEAREA. -/
  | saveareaWrite (v : Word)
  /-- WINDOW_REGISTER_WRITE (R95): the keeper of the current core writes window register 0x200 + r. -/
  | windowRegisterWrite (r : BitVec 3) (v : Word)
  /-- QMAP_WRITE (R247): the current context writes QMAP. -/
  | qmapWrite (v : Word)
  /-- LOAD_VALUE_LANDS (R20): the answer in message `id` lands in its registers. -/
  | loadValueLands (id : Nat)
  /-- LONG_LATENCY_RESULT_LANDS (R170): the result in message `id` lands, present. -/
  | longLatencyResultLands (id : Nat)
  /-- STORE_ACKNOWLEDGEMENT (R354): the acknowledgement in message `id` frees posted-request places. -/
  | storeAcknowledgement (id : Nat)
  /-- REFUSAL_ARRIVES (R96): the refusal or error in message `id` reaches its requester. -/
  | refusalArrives (id : Nat)
  /-- ATTRIBUTED_IMPRECISE_TRAP (R355): the current context takes its oldest pending trap. -/
  | attributedImpreciseTrap
  /-- CANCEL_TRAP (R50): the current context takes its pending CANCEL. -/
  | cancelTrap
  /-- IBRK_MATCH (R375): the armed breakpoint i of the current context matches. -/
  | ibrkMatch (i : BitVec 2)
  /-- WATCHPOINT_MATCH (R377): a watchpoint of the current context matches address a; `info` is TRAPINFO[2:0], `pc` the
  instruction named. -/
  | watchpointMatch (a : Word) (info : BitVec 3) (pc : Word)
  /-- STEP_HOLD (R378): the current context is held after issuing the instruction at `pc`. -/
  | stepHold (pc : Word)
  /-- KEEPER_RESTART (R357): firmware restarts the stopped keeper of a core at its entry. -/
  | keeperRestart (core : Nat) (entry : BitVec 48)
  /-- DEPOSIT_ARRIVAL (R233): the deposit in message `id` arrives at its target core. -/
  | depositArrival (id : Nat)
  /-- DEPOSIT_ANSWER (R232): the answer in message `id` returns to the sender. -/
  | depositAnswer (id : Nat)
  /-- MEMORY_REQUEST_AT_HOME (R108): the plain access in message `id` is checked and applied at its home. -/
  | memoryRequestAtHome (id : Nat)
  /-- BANK_ALU_OPERATION (R98): the bank operation in message `id` is applied at its bank. -/
  | bankAluOperation (id : Nat)
  /-- CLOCK_MESSAGE (R110): die `die` learns that writes of `origin` up to `count` have been applied. -/
  | clockMessage (die origin count : Nat)
  /-- QUEUE_PUSH_AT_HOME (R59): the push in message `id` reaches its queue's home. -/
  | queuePushAtHome (id : Nat)
  /-- QUEUE_POP_AT_HOME (R245): the pop in message `id` is answered at its queue's home. -/
  | queuePopAtHome (id : Nat)
  /-- QUEUE_MISS_SERVICE (R67): the queue service brings queue q (job and handle) into its home's queue SRAM. -/
  | queueMissService (q : Nat)
  /-- QUEUE_STATE_REPORT (R186): the home of a mapped slot's queue reports its readiness to context c. -/
  | queueStateReport (c : Nat) (slot : BitVec 2)
  /-- DISPATCH_STEP (R76): the dispatcher of galley g makes one placement step. -/
  | dispatchStep (g : Nat)
  /-- PREEMPT_REQUEST (R361): firmware asks for a forced pre-emption of context c. -/
  | preemptRequest (c : Nat)
  /-- FORCED_SAVE (R44): the strand of context c is written to a save slot. -/
  | forcedSave (c : Nat)
  /-- CANCEL_SERVICE (R50): the cancel of level `lvl` is carried to everything under it. -/
  | cancelService (lvl : Nat)
  /-- FORME_LOAD (R73): the imposer of package p loads an image by the plan given. -/
  | formeLoad (p : Nat) (img : List Byte) (plan : FormePlan)
  /-- GANG_READY_REPORT (R74): package p reports ready for forme f. -/
  | gangReadyReport (f p : Nat)
  /-- GANG_READY_DEADLINE (R74): 10,000 ns before forme f's gang tick. -/
  | gangReadyDeadline (f : Nat)
  /-- GANG_START_TICK (R74): package p's TIME reaches forme f's gang tick. -/
  | gangStartTick (f p : Nat)
  /-- PROGRAM_REPLACEMENT (R75): the imposer begins the replacement of program `prog` with mark k. -/
  | programReplacement (prog : BitVec 32) (k : BitVec 32)
  /-- REPLACEMENT_REGION_DRAINED (R75): mark k has reached every sink; the new program is checked and installed. -/
  | replacementRegionDrained (prog : BitVec 32) (k : BitVec 32) (new : NewProgram) (codeAt : Word)
  /-- PAGE_WALK_COMPLETE (R368): the walker of die d finishes its walk of a granule of `job` (or private owner). -/
  | pageWalkComplete (d : Nat) (space : Nat) (granule : Nat)
  /-- PAGER_MAP (R369): the pager writes table entries for a granule. -/
  | pagerMap (p : Nat) (space : Nat) (granule : Nat) (writes : List (Nat × Word))
  /-- PAGER_REFUSE (R369): the pager refuses a fault. -/
  | pagerRefuse (p : Nat) (space : Nat) (granule : Nat)
  /-- TLB_INVALIDATION_ACK (R370): the TLB of galley g drops a granule's entries and acknowledges. -/
  | tlbInvalidationAck (g : Nat) (space : Nat) (granule pages : Nat)
  /-- FEED_COPY_END (R272): the copy in slot i of galley g's feeder ends. -/
  | feedCopyEnd (g i : Nat)
  /-- FEEDQ_ENTRY (R277): the binding in slot i of galley g's feeder takes an entry. -/
  | feedqEntry (g i : Nat)
  /-- PLATEN_OP_START (R278): the next queued platen operation of a core starts. -/
  | platenOpStart (core : Nat)
  /-- PLATEN_OP_END (R278): the started platen operation of a core ends. -/
  | platenOpEnd (core : Nat)
  /-- CONDENSER_OP_START (R297): the next queued condenser instruction of a core starts. -/
  | condenserOpStart (core : Nat)
  /-- CONDENSER_OP_END (R297): the started condenser instruction of a core ends. -/
  | condenserOpEnd (core : Nat)
  /-- REPART_RANKS_GATHERED (R288): every rank of the group has issued. -/
  | repartRanksGathered (group : Nat)
  /-- REPART_MOVEMENT (R291): the records of the group move. -/
  | repartMovement (group : Nat)
  /-- REPART_END (R123): the token of the group's rank r lands. -/
  | repartEnd (group r : Nat)
  /-- PUBLISH_EXCHANGE (R104): the publish in message `id` exchanges or reports its fault. -/
  | publishExchange (id : Nat)
  /-- SHADOW_WITHDRAWAL (R225): the declaration named by message `id` is withdrawn. -/
  | shadowWithdrawal (id : Nat)
  /-- WAIT_TABLE_ENTER (R234): the wait in message `id` enters the table. -/
  | waitTableEnter (id : Nat)
  /-- WAIT_TABLE_WAKE (R235): the wake in message `id` wakes waiters in entry order. -/
  | waitTableWake (id : Nat)
  /-- WAIT_DEADLINE_EXPIRY (R234): TIME reaches a waiter's deadline on package p. -/
  | waitDeadlineExpiry (p : Nat) (waiter : Nat)
  /-- HOST_HDM_ACCESS (R338): a host access of package p's HDM range; `wr` holds the bytes of a write. -/
  | hostHdmAccess (p off n : Nat) (wr : Option (List Byte))
  /-- HOST_QUEUE_PUSH (R341): a 64-byte write to BAR2 at a handle. -/
  | hostQueuePush (p : Nat) (handle : Half) (data : List Byte)
  /-- HOST_QUEUE_POP (R341): a 16-byte read of BAR2 at a handle. -/
  | hostQueuePop (p : Nat) (handle : Half)
  /-- HSTATUS_WRITE (R339): an 8-byte write of HSTATUS. -/
  | hstatusWrite (p : Nat) (v : Word)
  /-- HOST_BAD_ACCESS (R339): an access of n bytes at an offset of BAR0 that no other event is: a read, answered for the registers there are,
  or a write of another size or offset. -/
  | hostBadAccess (p : Nat) (req : BarAccess)
  /-- HWAIT (R342): a 64-byte write to the HWAIT port. -/
  | hwait (p : Nat) (req : List Byte)
  /-- HWAKE (R342): a 64-byte write to the HWAKE port. -/
  | hwake (p : Nat) (req : List Byte)
  /-- HATTEST (R347): a 64-byte write to the HATTEST port. -/
  | hattest (p : Nat) (req : List Byte)
  /-- POWER_ON_BOOT (R345): package p starts its boot from its boot record. -/
  | powerOnBoot (p : Nat) (found : PowerOn)
  /-- BOOT_STEP_END (R345): the boot step under way ends; what it found: for step 4 the spare lanes in use as (lanes, die), for step 5 each
  failed core as (galley, built core), for step 6 each failed link as (link, 0). -/
  | bootStepEnd (p : Nat) (ok : Bool) (path : BitVec 32) (digest : BitVec 384) (found : List (Nat × Nat))
  /-- RAIL_FAULT (R413): a rail of package p is out of range. -/
  | railFault (p : Nat)
  /-- HEARTBEAT_LISTEN_TIMEOUT (R348): 20 ms without a heartbeat. -/
  | heartbeatListenTimeout (p : Nat)
  /-- CANDIDACY_RECEIVED (R348): an announcement (round, serial) arrives at package p. -/
  | candidacyReceived (p : Nat) (round serial : Word)
  /-- CANDIDACY_QUIET_TIMEOUT (R348): 1 ms without a better candidacy. -/
  | candidacyQuietTimeout (p : Nat)
  /-- LEAD_RECEIVED (R348): a LEAD arrives at package p. -/
  | leadReceived (p : Nat) (lead : LeadMsg)
  /-- HEARTBEAT_SEND (R349): the leader's 10 ms heartbeat. -/
  | heartbeatSend (p : Nat)
  /-- HEARTBEAT_RECEIVED (R349): a copy of the heartbeat of number `beat` of leader (round, serial) arrives at package p. -/
  | heartbeatReceived (p : Nat) (leader : Word × Word) (beat : Nat)
  /-- LEADER_LOSS_TIMEOUT (R349): 100 ms without a heartbeat, or a step's watchdog. -/
  | leaderLossTimeout (p : Nat)
  /-- YIELD_RECEIVED (R349): a signed YIELD names the winner. -/
  | yieldReceived (p : Nat) (signed : Bool) (round serial : Word)
  /-- LEADER_COMMAND (R349): a command arrives at package p. -/
  | leaderCommand (p : Nat) (round serial : Word) (signed : Bool) (cmd : PodCommand)
  /-- FORME_LOAD_ORDER (R349, R350): the leader of a round orders a load, named by the SHA-384 of its image and grid map. -/
  | formeLoadOrder (p : Nat) (by_ : OrderBy) (img : List Byte) (plan : FormePlan)
  /-- KEY_REGISTER (R405): a remote-key region is registered on package p. -/
  | keyRegister (p : Nat) (digest : BitVec 384) (req : KeyRequest)
  /-- KEY_REVOKE (R405): the region whose first key number is given is revoked on package p. -/
  | keyRevoke (p : Nat) (region : Nat)
  /-- GROUP_REGISTER (R406): a pod group is registered on package p. -/
  | groupRegister (p : Nat) (digest : BitVec 384) (req : GroupRequest)
  /-- GROUP_DEREGISTER (R406): a pod group is deregistered on package p. -/
  | groupDeregister (p : Nat) (handle : BitVec 32)
  /-- TIME_SYNC_EXCHANGE (R407): a two-way exchange with the parent gives the offset in ns. -/
  | timeSyncExchange (p : Nat) (offset : Int)
  /-- UNSYNC_REPORT (R408): package p reports itself unsynchronised, or resynchronised. -/
  | unsyncReport (p : Nat) (lost : Bool)
  /-- ROUTER_CYCLE (R399): the router of a position of package p routes its flits. -/
  | routerCycle (p pos : Nat)
  /-- INJECTION_STARVATION (R400): a flit has waited 32 cycles at a router. -/
  | injectionStarvation (p pos : Nat)
  /-- MESSAGE_RESEND (R398): a source resends message `id` after 2 us. -/
  | messageResend (p pos : Nat) (id : BitVec 12)
  /-- LINK_PACKET_ARRIVAL (R401): a packet arrives on a scale-up link. -/
  | linkPacketArrival (p link : Nat) (pkt : Packet)
  /-- LINK_DOWN (R401): a link has failed its retries 16 times in 1 ms. -/
  | linkDown (p link : Nat)
  /-- ACCOUNTING_TICK (R409): the 1 ms tick; `uj` is the energy measured on the rails. -/
  | accountingTick (p : Nat) (uj : Nat)
  /-- ALLOTMENT_INTERVAL_END (R411): the interval of forme f ends on package p. -/
  | allotmentIntervalEnd (p f : Nat)
  /-- ALLOTMENT_REQUEST (R412): an operator record to the governor. -/
  | allotmentRequest (p : Nat) (rec : List Byte)
  /-- GOVERNOR_SAMPLE (R414): mean power in mW, VCORE current in mA, and whether a sensor reads 100 C. -/
  | governorSample (p mw ma : Nat) (sensed : Sensed)
  /-- CLOCK_RAISE (R414): 100 us below the thresholds. -/
  | clockRaise (p : Nat)
  /-- FAST_RESPONSE (R414): VCORE current above 3,600 A. -/
  | fastResponse (p : Nat)
  /-- THERMAL_TRIP (R416): a sensor at 110 C. -/
  | thermalTrip (p : Nat)
  /-- HEALTH_RECORD (R417): the one-second health record of a die; `hottest` in degrees. -/
  | healthRecord (d : Nat) (hottest : Half)
  /-- TRACE_REQUEST (R382): a trace request record for die d. -/
  | traceRequest (d : Nat) (rec : List Byte)
  /-- TRACE_START (R382): TIME reaches the start of die d's trace. -/
  | traceStart (d : Nat)
  /-- TRACE_END (R384): the trace of die d ends. -/
  | traceEnd (d : Nat)
  /-- CORE_DUMP_REQUEST (R386): firmware requests a dump of package p at TIME T. -/
  | coreDumpRequest (p : Nat) (t : Word) (hold : Bool) (dest : Nat)
  /-- CORE_DUMP_AT_T (R386): TIME reaches the T of the dump requested of package p. -/
  | coreDumpAtT (p : Nat)
  /-- STORAGE_READ (R389): a read request record is popped. -/
  | storageRead (p job : Nat) (rec : List Byte)
  /-- STORAGE_WRITE (R389): a write request record is popped. -/
  | storageWrite (p job : Nat) (rec : List Byte)
  /-- STORAGE_FLUSH (R389): a flush request record is popped. -/
  | storageFlush (p job : Nat) (rec : List Byte)
  /-- MAP_RANGE (R390): a map-range request record is popped. -/
  | mapRange (p job : Nat) (rec : List Byte)
  /-- UNMAP_RANGE (R390): an unmap-range request record is popped. -/
  | unmapRange (p job : Nat) (rec : List Byte)
  /-- NVME_COMPLETION (R389): the NVMe commands of request i end with a status field and, for a read, the bytes. -/
  | nvmeCompletion (p i : Nat) (status : Half) (data : List Byte)
  /-- EDITION_LOAD (R396): a load record reaches the edition service. -/
  | editionLoad (p job : Nat) (rec : List Byte) (bufAt : Word)
  /-- SHARD_FETCH_DONE (R396): the read of shard i of the load under way ends. -/
  | shardFetchDone (p desc i : Nat) (ok : Bool) (data : List Byte)
  /-- SHARD_TRANSFORM_DONE (R393): the feeder request of shard i ends. -/
  | shardTransformDone (p desc i : Nat) (status : Word)
  /-- EDITION_FLIP (R396): the publish token of the load has landed. -/
  | editionFlip (p desc : Nat) (token : Word)
  /-- EDITION_OLD_SLOT_CHECK (R396): the service looks at the old slot's holds. -/
  | editionOldSlotCheck (p desc : Nat)
  /-- ENCODING_NOT_AN_INSTRUCTION (R163): issue of a word (or halfword, zero-extended) that is no instruction. -/
  | encodingNotAnInstruction (w : BitVec 32) (r : IllReason)
  /-- FORME_UNLOAD (R57): forme f is unloaded. -/
  | formeUnload (f : Nat)
  /-- STORAGE_TARGET_REGISTER (R387): firmware registers a controller, with its queue pairs and their depth, for a job. -/
  | storageTargetRegister (p job : Nat) (remote supported : Bool) (blockSize : Nat) (req : TargetRequest)
  /-- EDITION_SIGNING_KEY_REGISTER (R392): firmware registers a signing key. -/
  | editionSigningKeyRegister (p job : Nat) (keyId : BitVec 32) (key : BitVec 768)
  /-- HOST_FUNCTION_JOB_BIND (R338): firmware names the bound job and the HDM window base. -/
  | hostFunctionJobBind (p : Nat) (job : Half) (base : Word)
  /-- ADD (R168): Integer add of two general registers, wrapped to 64 bits. -/
  | add (d : GIdx) (a : GIdx) (b : GIdx)
  /-- SUB (R168): Integer subtract, wrapped to 64 bits. -/
  | sub (d : GIdx) (a : GIdx) (b : GIdx)
  /-- AND (R168): Bitwise AND. -/
  | and (d : GIdx) (a : GIdx) (b : GIdx)
  /-- OR (R168): Bitwise OR. -/
  | or (d : GIdx) (a : GIdx) (b : GIdx)
  /-- XOR (R168): Bitwise XOR. -/
  | xor (d : GIdx) (a : GIdx) (b : GIdx)
  /-- ANDN (R168): Bitwise AND with the complement of the second operand. -/
  | andn (d : GIdx) (a : GIdx) (b : GIdx)
  /-- SHL (R168): Shift left by a register amount. -/
  | shl (d : GIdx) (a : GIdx) (b : GIdx)
  /-- SHR (R168): Logical shift right by a register amount. -/
  | shr (d : GIdx) (a : GIdx) (b : GIdx)
  /-- SHA (R168): Arithmetic shift right by a register amount. -/
  | sha (d : GIdx) (a : GIdx) (b : GIdx)
  /-- ROT (R168): Rotate left by a register amount. -/
  | rot (d : GIdx) (a : GIdx) (b : GIdx)
  /-- MIN (R168): Signed minimum. -/
  | min (d : GIdx) (a : GIdx) (b : GIdx)
  /-- MAX (R168): Signed maximum. -/
  | max (d : GIdx) (a : GIdx) (b : GIdx)
  /-- MINN (R168): Natural minimum. -/
  | minn (d : GIdx) (a : GIdx) (b : GIdx)
  /-- MAXN (R168): Natural maximum. -/
  | maxn (d : GIdx) (a : GIdx) (b : GIdx)
  /-- SLT (R168): Signed set-less-than. -/
  | slt (d : GIdx) (a : GIdx) (b : GIdx)
  /-- SLTN (R168): Natural set-less-than. -/
  | sltn (d : GIdx) (a : GIdx) (b : GIdx)
  /-- MUL (R169): Low 64 bits of the product. -/
  | mul (d : GIdx) (a : GIdx) (b : GIdx)
  /-- MULH (R169): High 64 bits of the signed product. -/
  | mulh (d : GIdx) (a : GIdx) (b : GIdx)
  /-- MULHN (R169): High 64 bits of the natural product. -/
  | mulhn (d : GIdx) (a : GIdx) (b : GIdx)
  /-- DIV (R170): Signed divide, a presence producer; traps DIVZ on zero divisor when enabled. -/
  | div (d : GIdx) (a : GIdx) (b : GIdx)
  /-- DIVN (R170): Natural divide, a presence producer. -/
  | divn (d : GIdx) (a : GIdx) (b : GIdx)
  /-- REM (R170): Signed remainder, a presence producer. -/
  | rem (d : GIdx) (a : GIdx) (b : GIdx)
  /-- REMN (R170): Natural remainder, a presence producer. -/
  | remn (d : GIdx) (a : GIdx) (b : GIdx)
  /-- SEQ (R169): Set 1 if the operands are equal. -/
  | seq (d : GIdx) (a : GIdx) (b : GIdx)
  /-- CLZ (R171): Count leading zeros per packed element of width selected by b. -/
  | clz (d : GIdx) (a : GIdx) (w : BitVec 2)
  /-- FFS (R171): Index of lowest set bit per packed element. -/
  | ffs (d : GIdx) (a : GIdx) (w : BitVec 2)
  /-- POPC (R171): Population count per packed element. -/
  | popc (d : GIdx) (a : GIdx) (w : BitVec 2)
  /-- SEXT (R171): Sign-extend the low w bits. -/
  | sext (d : GIdx) (a : GIdx) (w : BitVec 2)
  /-- ZEXT (R171): Zero-extend the low w bits. -/
  | zext (d : GIdx) (a : GIdx) (w : BitVec 2)
  /-- BREV (R172): Reverse the 64 bits. -/
  | brev (d : GIdx) (a : GIdx)
  /-- BSWAP (R172): Reverse the 8 bytes. -/
  | bswap (d : GIdx) (a : GIdx)
  /-- ADDI (R173): Add a sign-extended 11-bit immediate. -/
  | addi (d : GIdx) (a : GIdx) (i : BitVec 11)
  /-- ANDI (R173): AND with a sign-extended immediate. -/
  | andi (d : GIdx) (a : GIdx) (i : BitVec 11)
  /-- ORI (R173): OR with a sign-extended immediate. -/
  | ori (d : GIdx) (a : GIdx) (i : BitVec 11)
  /-- XORI (R173): XOR with a sign-extended immediate. -/
  | xori (d : GIdx) (a : GIdx) (i : BitVec 11)
  /-- SLTI (R173): Signed compare with an immediate. -/
  | slti (d : GIdx) (a : GIdx) (i : BitVec 11)
  /-- SHLI (R174): Shift left by an immediate amount. -/
  | shli (d : GIdx) (a : GIdx) (n : BitVec 6)
  /-- SHRI (R174): Logical shift right by an immediate amount. -/
  | shri (d : GIdx) (a : GIdx) (n : BitVec 6)
  /-- SHAI (R174): Arithmetic shift right by an immediate amount. -/
  | shai (d : GIdx) (a : GIdx) (n : BitVec 6)
  /-- ROTI (R174): Rotate left by an immediate amount. -/
  | roti (d : GIdx) (a : GIdx) (n : BitVec 6)
  /-- BFX (R175): Extract a bit field, zero-extended. -/
  | bfx (d : GIdx) (a : GIdx) (l : BitVec 5) (p : BitVec 6)
  /-- BFI (R175): Insert a bit field into the destination. -/
  | bfi (d : GIdx) (a : GIdx) (l : BitVec 5) (p : BitVec 6)
  /-- LIMZ (R176): Load a 16-bit immediate into a selected halfword, zeroing the rest. -/
  | limz (d : GIdx) (s : BitVec 2) (i : BitVec 16)
  /-- LIMH (R176): Replace a selected halfword with a 16-bit immediate. -/
  | limh (d : GIdx) (s : BitVec 2) (i : BitVec 16)
  /-- ADPC (R177): Form a PC-relative address. -/
  | adpc (d : GIdx) (i : BitVec 18)
  /-- FADD_S (R179): binary32 add. -/
  | faddS (d : GIdx) (a : GIdx) (b : GIdx)
  /-- FSUB_S (R179): binary32 subtract. -/
  | fsubS (d : GIdx) (a : GIdx) (b : GIdx)
  /-- FMUL_S (R179): binary32 multiply. -/
  | fmulS (d : GIdx) (a : GIdx) (b : GIdx)
  /-- FDIV_S (R179): binary32 divide, a presence producer. -/
  | fdivS (d : GIdx) (a : GIdx) (b : GIdx)
  /-- FMIN_S (R147): binary32 minimum. -/
  | fminS (d : GIdx) (a : GIdx) (b : GIdx)
  /-- FMAX_S (R147): binary32 maximum. -/
  | fmaxS (d : GIdx) (a : GIdx) (b : GIdx)
  /-- FSQRT_S (R179): binary32 square root, a presence producer. -/
  | fsqrtS (d : GIdx) (a : GIdx)
  /-- FCLASS_S (R180): Classify a binary32 value into a one-hot mask. -/
  | fclassS (d : GIdx) (a : GIdx)
  /-- FEQ_S (R181): binary32 equality compare. -/
  | feqS (d : GIdx) (a : GIdx) (b : GIdx)
  /-- FLT_S (R181): binary32 less-than compare. -/
  | fltS (d : GIdx) (a : GIdx) (b : GIdx)
  /-- FLE_S (R181): binary32 less-or-equal compare. -/
  | fleS (d : GIdx) (a : GIdx) (b : GIdx)
  /-- FUN_S (R181): binary32 unordered test. -/
  | funS (d : GIdx) (a : GIdx) (b : GIdx)
  /-- FSGNJ_S (R182): binary32 sign injection. -/
  | fsgnjS (d : GIdx) (a : GIdx) (b : GIdx)
  /-- FSGNJN_S (R182): binary32 inverted sign injection. -/
  | fsgnjnS (d : GIdx) (a : GIdx) (b : GIdx)
  /-- FADD_D (R179): binary64 add. -/
  | faddD (d : GIdx) (a : GIdx) (b : GIdx)
  /-- FSUB_D (R179): binary64 subtract. -/
  | fsubD (d : GIdx) (a : GIdx) (b : GIdx)
  /-- FMUL_D (R179): binary64 multiply. -/
  | fmulD (d : GIdx) (a : GIdx) (b : GIdx)
  /-- FDIV_D (R179): binary64 divide, a presence producer. -/
  | fdivD (d : GIdx) (a : GIdx) (b : GIdx)
  /-- FMIN_D (R147): binary64 minimum. -/
  | fminD (d : GIdx) (a : GIdx) (b : GIdx)
  /-- FMAX_D (R147): binary64 maximum. -/
  | fmaxD (d : GIdx) (a : GIdx) (b : GIdx)
  /-- FSQRT_D (R179): binary64 square root, a presence producer. -/
  | fsqrtD (d : GIdx) (a : GIdx)
  /-- FCLASS_D (R180): Classify a binary64 value. -/
  | fclassD (d : GIdx) (a : GIdx)
  /-- FEQ_D (R181): binary64 equality compare. -/
  | feqD (d : GIdx) (a : GIdx) (b : GIdx)
  /-- FLT_D (R181): binary64 less-than compare. -/
  | fltD (d : GIdx) (a : GIdx) (b : GIdx)
  /-- FLE_D (R181): binary64 less-or-equal compare. -/
  | fleD (d : GIdx) (a : GIdx) (b : GIdx)
  /-- FUN_D (R181): binary64 unordered test. -/
  | funD (d : GIdx) (a : GIdx) (b : GIdx)
  /-- FSGNJ_D (R182): binary64 sign injection. -/
  | fsgnjD (d : GIdx) (a : GIdx) (b : GIdx)
  /-- FSGNJN_D (R182): binary64 inverted sign injection. -/
  | fsgnjnD (d : GIdx) (a : GIdx) (b : GIdx)
  /-- FFMA_S (R183): binary32 fused multiply-add into the destination. -/
  | ffmaS (d : GIdx) (a : GIdx) (b : GIdx)
  /-- FFMS_S (R183): binary32 fused multiply-subtract. -/
  | ffmsS (d : GIdx) (a : GIdx) (b : GIdx)
  /-- FNMA_S (R183): binary32 negated fused multiply-add. -/
  | fnmaS (d : GIdx) (a : GIdx) (b : GIdx)
  /-- FFMA_D (R183): binary64 fused multiply-add. -/
  | ffmaD (d : GIdx) (a : GIdx) (b : GIdx)
  /-- FFMS_D (R183): binary64 fused multiply-subtract. -/
  | ffmsD (d : GIdx) (a : GIdx) (b : GIdx)
  /-- FNMA_D (R183): binary64 negated fused multiply-add. -/
  | fnmaD (d : GIdx) (a : GIdx) (b : GIdx)
  /-- FCVT_S2D (R184): Convert binary32 to binary64. -/
  | fcvtS2d (d : GIdx) (a : GIdx)
  /-- FCVT_D2S (R184): Convert binary64 to binary32. -/
  | fcvtD2s (d : GIdx) (a : GIdx)
  /-- FCVT_S2B (R184): Convert binary32 to BF16. -/
  | fcvtS2b (d : GIdx) (a : GIdx)
  /-- FCVT_B2S (R184): Convert BF16 to binary32. -/
  | fcvtB2s (d : GIdx) (a : GIdx)
  /-- FCVT_I2S (R184): Convert s64 to binary32. -/
  | fcvtI2s (d : GIdx) (a : GIdx)
  /-- FCVT_N2S (R184): Convert n64 to binary32. -/
  | fcvtN2s (d : GIdx) (a : GIdx)
  /-- FCVT_I2D (R184): Convert s64 to binary64. -/
  | fcvtI2d (d : GIdx) (a : GIdx)
  /-- FCVT_N2D (R184): Convert n64 to binary64. -/
  | fcvtN2d (d : GIdx) (a : GIdx)
  /-- FCVT_S2I (R184): Convert binary32 to s64. -/
  | fcvtS2i (d : GIdx) (a : GIdx)
  /-- FCVT_S2N (R184): Convert binary32 to n64. -/
  | fcvtS2n (d : GIdx) (a : GIdx)
  /-- FCVT_D2I (R184): Convert binary64 to s64. -/
  | fcvtD2i (d : GIdx) (a : GIdx)
  /-- FCVT_D2N (R184): Convert binary64 to n64. -/
  | fcvtD2n (d : GIdx) (a : GIdx)
  /-- BEQZ (R185): Branch if the register is zero. -/
  | beqz (a : GIdx) (o : BitVec 14)
  /-- BNEZ (R185): Branch if the register is non-zero. -/
  | bnez (a : GIdx) (o : BitVec 14)
  /-- BLTZ (R185): Branch if the register is negative. -/
  | bltz (a : GIdx) (o : BitVec 14)
  /-- BGEZ (R185): Branch if the register is non-negative. -/
  | bgez (a : GIdx) (o : BitVec 14)
  /-- BGTZ (R185): Branch if the register is positive. -/
  | bgtz (a : GIdx) (o : BitVec 14)
  /-- BLEZ (R185): Branch if the register is not positive. -/
  | blez (a : GIdx) (o : BitVec 14)
  /-- BPRES (R186): Branch if a register, or a mapped queue slot, is present or ready, without waiting. -/
  | bpres (a : GIdx) (o : BitVec 14)
  /-- BABS (R186): Branch if a register is absent or a mapped slot not ready. -/
  | babs (a : GIdx) (o : BitVec 14)
  /-- BMANY (R186): Branch if a mask is non-zero. -/
  | bmany (k : BitVec 3) (o : BitVec 14)
  /-- BALL (R186): Branch if a mask is all ones. -/
  | ball (k : BitVec 3) (o : BitVec 14)
  /-- BNONE (R186): Branch if a mask is zero. -/
  | bnone (k : BitVec 3) (o : BitVec 14)
  /-- JMP (R187): PC-relative jump. -/
  | jmp (o : BitVec 25)
  /-- JAL (R187): PC-relative jump linking g1. -/
  | jal (o : BitVec 25)
  /-- JALR (R187): Register-indirect jump with link. -/
  | jalr (d : GIdx) (a : GIdx) (i : BitVec 11)
  /-- LDS (R214): Sign-extending load of size sz by amode. -/
  | lds (t : GIdx) (a : GIdx) (z : Size) (m : AMode) (o : BitVec 7)
  /-- LDN (R214): Zero-extending load of size sz by amode. -/
  | ldn (t : GIdx) (a : GIdx) (z : Size) (m : AMode) (o : BitVec 7)
  /-- ST (R214): Posted store of size sz by amode. -/
  | st (t : GIdx) (a : GIdx) (z : Size) (m : AMode) (o : BitVec 7)
  /-- LDXS_B (R216): Indexed signed byte load. -/
  | ldxsB (d : GIdx) (a : GIdx) (b : GIdx)
  /-- LDXS_H (R216): Indexed signed halfword load. -/
  | ldxsH (d : GIdx) (a : GIdx) (b : GIdx)
  /-- LDXS_W (R216): Indexed signed word load. -/
  | ldxsW (d : GIdx) (a : GIdx) (b : GIdx)
  /-- LDXS_D (R216): Indexed doubleword load. -/
  | ldxsD (d : GIdx) (a : GIdx) (b : GIdx)
  /-- LDXN_B (R216): Indexed natural byte load. -/
  | ldxnB (d : GIdx) (a : GIdx) (b : GIdx)
  /-- LDXN_H (R216): Indexed natural halfword load. -/
  | ldxnH (d : GIdx) (a : GIdx) (b : GIdx)
  /-- LDXN_W (R216): Indexed natural word load. -/
  | ldxnW (d : GIdx) (a : GIdx) (b : GIdx)
  /-- STX_B (R216): Indexed byte store. -/
  | stxB (d : GIdx) (a : GIdx) (b : GIdx)
  /-- STX_H (R216): Indexed halfword store. -/
  | stxH (d : GIdx) (a : GIdx) (b : GIdx)
  /-- STX_W (R216): Indexed word store. -/
  | stxW (d : GIdx) (a : GIdx) (b : GIdx)
  /-- STX_D (R216): Indexed doubleword store. -/
  | stxD (d : GIdx) (a : GIdx) (b : GIdx)
  /-- PREF (R217): Prefetch a translation into the galley TLB without waiting. -/
  | pref (a : GIdx) (b : GIdx)
  /-- AMOADD (R219): Bank atomic add. -/
  | amoadd (d : GIdx) (a : GIdx) (b : G5Idx) (s : Scope)
  /-- AMOAND (R219): Bank atomic AND. -/
  | amoand (d : GIdx) (a : GIdx) (b : G5Idx) (s : Scope)
  /-- AMOOR (R219): Bank atomic OR. -/
  | amoor (d : GIdx) (a : GIdx) (b : G5Idx) (s : Scope)
  /-- AMOXOR (R219): Bank atomic XOR. -/
  | amoxor (d : GIdx) (a : GIdx) (b : G5Idx) (s : Scope)
  /-- AMOMIN (R219): Bank atomic signed minimum. -/
  | amomin (d : GIdx) (a : GIdx) (b : G5Idx) (s : Scope)
  /-- AMOMAX (R219): Bank atomic signed maximum. -/
  | amomax (d : GIdx) (a : GIdx) (b : G5Idx) (s : Scope)
  /-- AMOMINN (R219): Bank atomic natural minimum. -/
  | amominn (d : GIdx) (a : GIdx) (b : G5Idx) (s : Scope)
  /-- AMOMAXN (R219): Bank atomic natural maximum. -/
  | amomaxn (d : GIdx) (a : GIdx) (b : G5Idx) (s : Scope)
  /-- AMOFADD_S (R220): Bank atomic binary32 add. -/
  | amofaddS (d : GIdx) (a : GIdx) (b : G5Idx) (s : Scope)
  /-- AMOFMIN_S (R220): Bank atomic binary32 minimum. -/
  | amofminS (d : GIdx) (a : GIdx) (b : G5Idx) (s : Scope)
  /-- AMOFMAX_S (R220): Bank atomic binary32 maximum. -/
  | amofmaxS (d : GIdx) (a : GIdx) (b : G5Idx) (s : Scope)
  /-- AMOFADD_D (R220): Bank atomic binary64 add. -/
  | amofaddD (d : GIdx) (a : GIdx) (b : G5Idx) (s : Scope)
  /-- AMOFMIN_D (R220): Bank atomic binary64 minimum. -/
  | amofminD (d : GIdx) (a : GIdx) (b : G5Idx) (s : Scope)
  /-- AMOFMAX_D (R220): Bank atomic binary64 maximum. -/
  | amofmaxD (d : GIdx) (a : GIdx) (b : G5Idx) (s : Scope)
  /-- AMOSWAP (R220): Bank atomic swap. -/
  | amoswap (d : GIdx) (a : GIdx) (b : G5Idx) (s : Scope)
  /-- AMOCAS (R220): Bank atomic compare-and-swap against g[d]. -/
  | amocas (d : GIdx) (a : GIdx) (b : G5Idx) (s : Scope)
  /-- LRW (R221): Enqueue for a queued reservation and wait for the grant. -/
  | lrw (d : GIdx) (a : GIdx) (s : Scope)
  /-- SCH (R221): Store and hand the reservation to the next waiter. -/
  | sch (a : GIdx) (b : G5Idx) (s : Scope)
  /-- RSVREL (R221): Release the reservation without a store. -/
  | rsvrel (a : GIdx) (s : Scope)
  /-- FENCE (R114): Wait until earlier loads returned and stores visible within the scope. -/
  | fence (s : Scope)
  /-- LDA (R224): Load-acquire of a doubleword at the scope. -/
  | lda (d : GIdx) (a : GIdx) (s : Scope)
  /-- STL (R224): Store-release of a doubleword after the fence wait. -/
  | stl (a : GIdx) (b : G5Idx) (s : Scope)
  /-- PUBLISH (R226): Publish a shadowed buffer at package or system scope. -/
  | publish (d : GIdx) (a : GIdx) (s : PubScope)
  /-- SHADOW (R225): Declare or withdraw a shadowed buffer. -/
  | shadow (d : GIdx) (a : GIdx) (b : G5Idx)
  /-- BINIT (R228): Initialise a barrier and advance its phase. -/
  | binit (d : GIdx) (a : GIdx) (b : G5Idx) (s : Scope)
  /-- BARRIVE (R228): Arrive at a barrier. -/
  | barrive (d : GIdx) (a : GIdx) (s : Scope)
  /-- BWAIT (R228): Wait for a barrier phase to be released, poisoned or reset. -/
  | bwait (d : GIdx) (a : GIdx) (b : G5Idx) (s : Scope)
  /-- BSTAT (R230): Read barrier or reservation state without changing it. -/
  | bstat (d : GIdx) (a : GIdx) (k : BitVec 5)
  /-- NPUT (R232): Deposit a value into a register of a context on a neighbouring core. -/
  | nput (e : BitVec 2) (a : GIdx) (b : GIdx)
  /-- PARM (R231): Arm a general register for a neighbour deposit. -/
  | parm (t : GIdx)
  /-- WAITV (R234): Sleep in the wait-and-wake table on an address. -/
  | waitv (t : GIdx) (a : GIdx) (b : GIdx)
  /-- WAKEV (R235): Wake waiters on an address. -/
  | wakev (t : GIdx) (a : GIdx) (b : GIdx)
  /-- MIGRATE (R237): Suspend the strand toward the home core of an address. -/
  | migrate (a : GIdx)
  /-- RED_ADD (R238): Fire-and-forget integer add at the bank. -/
  | redAdd (a : GIdx) (b : GIdx)
  /-- RED_AND (R238): Fire-and-forget AND. -/
  | redAnd (a : GIdx) (b : GIdx)
  /-- RED_OR (R238): Fire-and-forget OR. -/
  | redOr (a : GIdx) (b : GIdx)
  /-- RED_XOR (R238): Fire-and-forget XOR. -/
  | redXor (a : GIdx) (b : GIdx)
  /-- RED_MIN (R238): Fire-and-forget signed minimum. -/
  | redMin (a : GIdx) (b : GIdx)
  /-- RED_MAX (R238): Fire-and-forget signed maximum. -/
  | redMax (a : GIdx) (b : GIdx)
  /-- RED_FADD_S (R238): Fire-and-forget binary32 add. -/
  | redFaddS (a : GIdx) (b : GIdx)
  /-- RED_FADD_D (R238): Fire-and-forget binary64 add. -/
  | redFaddD (a : GIdx) (b : GIdx)
  /-- VADD (R193): Vector integer add per element. -/
  | vadd (d : VIdx) (a : VIdx) (b : VIdx) (m : MIdx) (t : Elem)
  /-- VSUB (R193): Vector integer subtract. -/
  | vsub (d : VIdx) (a : VIdx) (b : VIdx) (m : MIdx) (t : Elem)
  /-- VMUL (R193): Vector multiply, low bits. -/
  | vmul (d : VIdx) (a : VIdx) (b : VIdx) (m : MIdx) (t : Elem)
  /-- VMULH (R193): Vector multiply, signed high bits. -/
  | vmulh (d : VIdx) (a : VIdx) (b : VIdx) (m : MIdx) (t : Elem)
  /-- VMIN (R193): Vector signed minimum. -/
  | vmin (d : VIdx) (a : VIdx) (b : VIdx) (m : MIdx) (t : Elem)
  /-- VMAX (R193): Vector signed maximum. -/
  | vmax (d : VIdx) (a : VIdx) (b : VIdx) (m : MIdx) (t : Elem)
  /-- VMINN (R193): Vector natural minimum. -/
  | vminn (d : VIdx) (a : VIdx) (b : VIdx) (m : MIdx) (t : Elem)
  /-- VMAXN (R193): Vector natural maximum. -/
  | vmaxn (d : VIdx) (a : VIdx) (b : VIdx) (m : MIdx) (t : Elem)
  /-- VAND (R193): Vector AND. -/
  | vand (d : VIdx) (a : VIdx) (b : VIdx) (m : MIdx) (t : Elem)
  /-- VOR (R193): Vector OR. -/
  | vor (d : VIdx) (a : VIdx) (b : VIdx) (m : MIdx) (t : Elem)
  /-- VXOR (R193): Vector XOR. -/
  | vxor (d : VIdx) (a : VIdx) (b : VIdx) (m : MIdx) (t : Elem)
  /-- VANDN (R193): Vector AND NOT. -/
  | vandn (d : VIdx) (a : VIdx) (b : VIdx) (m : MIdx) (t : Elem)
  /-- VSHL (R193): Vector shift left. -/
  | vshl (d : VIdx) (a : VIdx) (b : VIdx) (m : MIdx) (t : Elem)
  /-- VSHR (R193): Vector logical shift right. -/
  | vshr (d : VIdx) (a : VIdx) (b : VIdx) (m : MIdx) (t : Elem)
  /-- VSHA (R193): Vector arithmetic shift right. -/
  | vsha (d : VIdx) (a : VIdx) (b : VIdx) (m : MIdx) (t : Elem)
  /-- VABS (R193): Vector signed absolute value. -/
  | vabs (d : VIdx) (a : VIdx) (m : MIdx) (t : Elem)
  /-- VNEG (R193): Vector negate. -/
  | vneg (d : VIdx) (a : VIdx) (m : MIdx) (t : Elem)
  /-- VCLZ (R194): Vector count leading zeros. -/
  | vclz (d : VIdx) (a : VIdx) (m : MIdx) (t : Elem)
  /-- VFFS (R194): Vector find first set. -/
  | vffs (d : VIdx) (a : VIdx) (m : MIdx) (t : Elem)
  /-- VPOPC (R194): Vector population count. -/
  | vpopc (d : VIdx) (a : VIdx) (m : MIdx) (t : Elem)
  /-- VFADD (R195): Vector floating add. -/
  | vfadd (d : VIdx) (a : VIdx) (b : VIdx) (m : MIdx) (t : ElemWD)
  /-- VFSUB (R195): Vector floating subtract. -/
  | vfsub (d : VIdx) (a : VIdx) (b : VIdx) (m : MIdx) (t : ElemWD)
  /-- VFMUL (R195): Vector floating multiply. -/
  | vfmul (d : VIdx) (a : VIdx) (b : VIdx) (m : MIdx) (t : ElemWD)
  /-- VFDIV (R195): Vector floating divide, a presence producer. -/
  | vfdiv (d : VIdx) (a : VIdx) (b : VIdx) (m : MIdx) (t : ElemWD)
  /-- VFMIN (R195): Vector floating minimum. -/
  | vfmin (d : VIdx) (a : VIdx) (b : VIdx) (m : MIdx) (t : ElemWD)
  /-- VFMAX (R195): Vector floating maximum. -/
  | vfmax (d : VIdx) (a : VIdx) (b : VIdx) (m : MIdx) (t : ElemWD)
  /-- VFABS (R195): Vector floating absolute value. -/
  | vfabs (d : VIdx) (a : VIdx) (m : MIdx) (t : ElemWD)
  /-- VFNEG (R195): Vector floating negate. -/
  | vfneg (d : VIdx) (a : VIdx) (m : MIdx) (t : ElemWD)
  /-- VFSQRT (R195): Vector floating square root, a presence producer. -/
  | vfsqrt (d : VIdx) (a : VIdx) (m : MIdx) (t : ElemWD)
  /-- VFMA (R196): Vector fused multiply-add into the destination. -/
  | vfma (d : VIdx) (a : VIdx) (b : VIdx) (m : MIdx) (t : ElemWD)
  /-- VFMS (R196): Vector fused multiply-subtract. -/
  | vfms (d : VIdx) (a : VIdx) (b : VIdx) (m : MIdx) (t : ElemWD)
  /-- VFNMA (R196): Vector negated fused multiply-add. -/
  | vfnma (d : VIdx) (a : VIdx) (b : VIdx) (m : MIdx) (t : ElemWD)
  /-- VEQ (R197): Vector bitwise-equal compare into a mask. -/
  | veq (k : MIdx) (a : VIdx) (b : VIdx) (m : MIdx) (t : ElemWD)
  /-- VNE (R197): Vector not-equal compare into a mask. -/
  | vne (k : MIdx) (a : VIdx) (b : VIdx) (m : MIdx) (t : ElemWD)
  /-- VLT (R197): Vector signed less-than into a mask. -/
  | vlt (k : MIdx) (a : VIdx) (b : VIdx) (m : MIdx) (t : ElemWD)
  /-- VLE (R197): Vector signed less-or-equal into a mask. -/
  | vle (k : MIdx) (a : VIdx) (b : VIdx) (m : MIdx) (t : ElemWD)
  /-- VLTN (R197): Vector natural less-than into a mask. -/
  | vltn (k : MIdx) (a : VIdx) (b : VIdx) (m : MIdx) (t : ElemWD)
  /-- VLEN (R197): Vector natural less-or-equal into a mask. -/
  | vlen (k : MIdx) (a : VIdx) (b : VIdx) (m : MIdx) (t : ElemWD)
  /-- VFEQ (R197): Vector floating equality into a mask. -/
  | vfeq (k : MIdx) (a : VIdx) (b : VIdx) (m : MIdx) (t : ElemWD)
  /-- VFLT (R197): Vector floating less-than into a mask. -/
  | vflt (k : MIdx) (a : VIdx) (b : VIdx) (m : MIdx) (t : ElemWD)
  /-- VFLE (R197): Vector floating less-or-equal into a mask. -/
  | vfle (k : MIdx) (a : VIdx) (b : VIdx) (m : MIdx) (t : ElemWD)
  /-- VFUN (R197): Vector floating unordered test into a mask. -/
  | vfun (k : MIdx) (a : VIdx) (b : VIdx) (m : MIdx) (t : ElemWD)
  /-- VRCP (R198): Vector reciprocal special function, presence producer. -/
  | vrcp (d : VIdx) (a : VIdx) (m : MIdx)
  /-- VRSQ (R198): Vector reciprocal square root. -/
  | vrsq (d : VIdx) (a : VIdx) (m : MIdx)
  /-- VEXP2 (R198): Vector base-2 exponential. -/
  | vexp2 (d : VIdx) (a : VIdx) (m : MIdx)
  /-- VLOG2 (R198): Vector base-2 logarithm. -/
  | vlog2 (d : VIdx) (a : VIdx) (m : MIdx)
  /-- VSIN (R198): Vector sine. -/
  | vsin (d : VIdx) (a : VIdx) (m : MIdx)
  /-- VCOS (R198): Vector cosine. -/
  | vcos (d : VIdx) (a : VIdx) (m : MIdx)
  /-- VTANH (R198): Vector hyperbolic tangent. -/
  | vtanh (d : VIdx) (a : VIdx) (m : MIdx)
  /-- VCVT_S2D (R199): Vector binary32 to binary64 pair. -/
  | vcvtS2d (d : VIdx) (a : VIdx) (m : MIdx)
  /-- VCVT_D2S (R199): Vector binary64 pair to binary32. -/
  | vcvtD2s (d : VIdx) (a : VIdx) (m : MIdx)
  /-- VCVT_S2B (R199): Vector binary32 pair to BF16. -/
  | vcvtS2b (d : VIdx) (a : VIdx) (m : MIdx)
  /-- VCVT_B2S (R199): Vector BF16 to binary32 pair. -/
  | vcvtB2s (d : VIdx) (a : VIdx) (m : MIdx)
  /-- VCVT_I2S (R199): Vector s32 to binary32. -/
  | vcvtI2s (d : VIdx) (a : VIdx) (m : MIdx)
  /-- VCVT_N2S (R199): Vector n32 to binary32. -/
  | vcvtN2s (d : VIdx) (a : VIdx) (m : MIdx)
  /-- VCVT_S2I (R199): Vector binary32 to s32, saturating. -/
  | vcvtS2i (d : VIdx) (a : VIdx) (m : MIdx)
  /-- VCVT_S2N (R199): Vector binary32 to n32, saturating. -/
  | vcvtS2n (d : VIdx) (a : VIdx) (m : MIdx)
  /-- VCVT_M8D (R200): Decode M8 codes with the scale in ox0. -/
  | vcvtM8d (d : VIdx) (a : VIdx) (q : BitVec 2) (m : MIdx)
  /-- VCVT_M8E (R200): Encode lanes to M8 codes with the scale in ox0. -/
  | vcvtM8e (d : VIdx) (a : VIdx) (q : BitVec 2) (m : MIdx)
  /-- VSEL (R201): Select elements by mask. -/
  | vsel (d : VIdx) (a : VIdx) (b : VIdx) (m : MIdx) (t : ElemWD)
  /-- VPERM (R201): Permute lanes by index. -/
  | vperm (d : VIdx) (a : VIdx) (b : VIdx) (m : MIdx)
  /-- VROTL (R201): Rotate lanes by an immediate. -/
  | vrotl (d : VIdx) (a : VIdx) (k : BitVec 4) (m : MIdx)
  /-- VREDADD (R202): Tree reduction by addition. -/
  | vredadd (d : VIdx) (a : VIdx) (m : MIdx) (t : ElemWD)
  /-- VREDMIN (R202): Tree reduction by minimum. -/
  | vredmin (d : VIdx) (a : VIdx) (m : MIdx) (t : ElemWD)
  /-- VREDMAX (R202): Tree reduction by maximum. -/
  | vredmax (d : VIdx) (a : VIdx) (m : MIdx) (t : ElemWD)
  /-- VSCANADD (R202): Inclusive scan by addition. -/
  | vscanadd (d : VIdx) (a : VIdx) (m : MIdx) (t : ElemWD)
  /-- VCOMPRESS (R201): Compress active elements to the low end. -/
  | vcompress (d : VIdx) (a : VIdx) (m : MIdx) (t : ElemWD)
  /-- VWADD (R203): Wide-integer add with carry mask. -/
  | vwadd (d : VIdx) (a : VIdx) (b : VIdx) (k : MIdx) (t : ElemWD)
  /-- VWSUB (R203): Wide-integer subtract with borrow mask. -/
  | vwsub (d : VIdx) (a : VIdx) (b : VIdx) (k : MIdx) (t : ElemWD)
  /-- VWMUL (R203): Wide integer times a 32-bit lane. -/
  | vwmul (d : VIdx) (a : VIdx) (b : VIdx)
  /-- VWSHL (R203): Wide-integer shift left. -/
  | vwshl (d : VIdx) (a : VIdx) (b : VIdx) (t : ElemWD)
  /-- VWSHR (R203): Wide-integer shift right. -/
  | vwshr (d : VIdx) (a : VIdx) (b : VIdx) (t : ElemWD)
  /-- VWCMP (R203): Wide-integer compare into a mask. -/
  | vwcmp (a : VIdx) (b : VIdx) (k : MIdx) (t : ElemWD)
  /-- VXCLR (R204): Clear an exact accumulator. -/
  | vxclr (d : VIdx)
  /-- VXADD (R204): Add active binary32 lanes exactly into an accumulator. -/
  | vxadd (d : VIdx) (a : VIdx) (m : MIdx)
  /-- VXFMA (R204): Add exact lane products into an accumulator. -/
  | vxfma (d : VIdx) (a : VIdx) (b : VIdx) (m : MIdx)
  /-- VXRND_S (R204): Round an accumulator to binary32. -/
  | vxrndS (d : VIdx) (a : VIdx)
  /-- VXRND_D (R204): Round an accumulator to binary64. -/
  | vxrndD (d : VIdx) (a : VIdx)
  /-- VXSTAT (R204): Read accumulator status bits into a general register. -/
  | vxstat (d : G5Idx) (a : VIdx)
  /-- VLD (R205): Vector load of 16 lanes by amode. -/
  | vld (v : VIdx) (a : GIdx) (m : MIdx) (p : AMode) (o : BitVec 7)
  /-- VST (R205): Vector posted store of active lanes. -/
  | vst (v : VIdx) (a : GIdx) (m : MIdx) (p : AMode) (o : BitVec 7)
  /-- VGATHER (R206): Gather elements from base ox0 plus lane indexes. -/
  | vgather (d : VIdx) (a : VIdx) (m : MIdx) (t : ElemWD)
  /-- VSCATTER (R207): Scatter elements to base ox0 plus lane indexes. -/
  | vscatter (a : VIdx) (b : VIdx) (m : MIdx) (t : ElemWD)
  /-- MAND (R208): Mask AND. -/
  | mand (k : MIdx) (i : MIdx) (j : MIdx)
  /-- MOR (R208): Mask OR. -/
  | mor (k : MIdx) (i : MIdx) (j : MIdx)
  /-- MXOR (R208): Mask XOR. -/
  | mxor (k : MIdx) (i : MIdx) (j : MIdx)
  /-- MNOT (R208): Mask NOT. -/
  | mnot (k : MIdx) (i : MIdx)
  /-- MPOPC (R208): Count set bits of a mask. -/
  | mpopc (d : G5Idx) (i : MIdx)
  /-- MFFS (R208): Index of the lowest set mask bit. -/
  | mffs (d : G5Idx) (i : MIdx)
  /-- MSET (R208): Set a mask from a general register. -/
  | mset (k : MIdx) (a : G5Idx)
  /-- MGET (R208): Copy a mask to a general register. -/
  | mget (d : G5Idx) (i : MIdx)
  /-- VFROMG (R209): Broadcast a general register into active elements. -/
  | vfromg (d : VIdx) (a : G5Idx) (m : MIdx) (t : Elem)
  /-- VTOG (R209): Copy one lane or element to a general register. -/
  | vtog (d : G5Idx) (a : VIdx) (k : BitVec 4) (t : ElemWD)
  /-- VLANEW (R209): Write a general register into one lane or element. -/
  | vlanew (d : VIdx) (a : G5Idx) (k : BitVec 4) (t : ElemWD)
  /-- VMORTON (R210): Compute Morton keys of 16 points. -/
  | vmorton (d : VIdx) (a : VIdx) (m : MIdx)
  /-- VHILBERT (R210): Compute Hilbert keys of 16 points. -/
  | vhilbert (d : VIdx) (a : VIdx) (m : MIdx)
  /-- OXSET (R211): Write an operand-extension register from a general register. -/
  | oxset (j : OxIdx) (a : GIdx)
  /-- OXGET (R211): Read an operand-extension register. -/
  | oxget (d : GIdx) (j : OxIdx)
  /-- OXLD (R211): Load n operand-extension registers from memory. -/
  | oxld (j : OxIdx) (a : GIdx) (n : BitVec 3)
  /-- OXST (R211): Store n operand-extension registers to memory. -/
  | oxst (j : OxIdx) (a : GIdx) (n : BitVec 3)
  /-- QPUSH (R244): Push a word entry of a class to a queue. -/
  | qpush (c : BitVec 2) (a : GIdx) (b : GIdx)
  /-- QPOP (R245): Pop a word entry, waiting while none can be taken. -/
  | qpop (t : GIdx) (a : GIdx) (b : GIdx)
  /-- QTRY (R246): Pop a word entry without waiting for one. -/
  | qtry (t : GIdx) (a : GIdx) (b : GIdx)
  /-- QPUSHV (R244): Push a vector or record entry. -/
  | qpushv (k : MIdx) (c : BitVec 2) (a : GIdx) (b : VIdx)
  /-- QPOPV (R245): Pop a vector or record entry. -/
  | qpopv (t : VIdx) (a : GIdx) (b : GIdx)
  /-- QMAP (R247): Map a word queue onto g124-g127. -/
  | qmap (s : BitVec 2) (a : GIdx)
  /-- QUNMAP (R247): Clear a QMAP slot. -/
  | qunmap (s : BitVec 2)
  /-- QMARK (R248): Push a cut mark, plain or QUIESCE. -/
  | qmark (q : BitVec 1) (a : GIdx) (b : GIdx)
  /-- QEND (R248): Push the program's colophon. -/
  | qend (a : GIdx)
  /-- QSTAT (R249): Read queue state at the home. -/
  | qstat (t : GIdx) (a : GIdx) (k : BitVec 7)
  /-- FEED (R273): Feeder byte copy. -/
  | feed (t : GIdx) (a : GIdx) (b : GIdx)
  /-- FEEDX (R274): Feeder expansion of M8 codes with block scales. -/
  | feedx (t : GIdx) (a : GIdx) (b : GIdx)
  /-- FEEDQZ (R275): Feeder quantisation of blocks to M8. -/
  | feedqz (t : GIdx) (a : GIdx) (b : GIdx)
  /-- FEEDT (R276): Feeder relayout into platen tile order. -/
  | feedt (t : GIdx) (a : GIdx) (b : GIdx)
  /-- FEEDQ (R277): Bind a feeder slot as consumer of a record queue. -/
  | feedq (t : GIdx) (a : GIdx) (b : GIdx)
  /-- MMA (R281): Queue a tile multiply-accumulate on the platen. -/
  | mma
  /-- MCLR (R282): Queue a clear of an accumulator set. -/
  | mclr (c : BitVec 2)
  /-- MDRAIN (R283): Queue a drain of an accumulator set to local store. -/
  | mdrain (t : GIdx) (a : GIdx) (x : BitVec 1) (f : BitVec 2) (c : BitVec 2)
  /-- PLLD (R284): Queue a copy of local-store blocks to the plate. -/
  | plld (t : GIdx) (a : GIdx) (b : GIdx)
  /-- MSORT (R285): Queue a record sort on the platen. -/
  | msort (t : GIdx)
  /-- REPART (R287): Hand a repartition descriptor to the package's engine. -/
  | repart (t : GIdx) (a : GIdx)
  /-- RPSTAT (R292): Read repartition state of a group. -/
  | rpstat (t : GIdx) (a : GIdx)
  /-- DADD (R302): Distribution add, paired or condensed by tags. -/
  | dadd (d : DIdx) (a : DIdx) (b : DIdx) (m : MIdx)
  /-- DSUB (R302): Distribution subtract. -/
  | dsub (d : DIdx) (a : DIdx) (b : DIdx) (m : MIdx)
  /-- DMUL (R302): Distribution multiply. -/
  | dmul (d : DIdx) (a : DIdx) (b : DIdx) (m : MIdx)
  /-- DDIV (R302): Distribution divide. -/
  | ddiv (d : DIdx) (a : DIdx) (b : DIdx) (m : MIdx)
  /-- DMIN (R302): Distribution minimum. -/
  | dmin (d : DIdx) (a : DIdx) (b : DIdx) (m : MIdx)
  /-- DMAX (R302): Distribution maximum. -/
  | dmax (d : DIdx) (a : DIdx) (b : DIdx) (m : MIdx)
  /-- DAFF (R303): Affine map of distribution points by a vector pair. -/
  | daff (d : DIdx) (a : DIdx) (m : MIdx) (v : VIdx)
  /-- DMAP (R304): Map every point through a selected function. -/
  | dmap (d : DIdx) (a : DIdx) (m : MIdx) (i : BitVec 4)
  /-- DMIX (R305): Mixture of two distributions, condensed. -/
  | dmix (d : DIdx) (a : DIdx) (b : DIdx) (m : MIdx) (v : VIdx)
  /-- DTAG (R306): Copy a distribution and set its lineage tag. -/
  | dtag (d : DIdx) (a : DIdx) (h : BitVec 4) (l : BitVec 4)
  /-- DTAG_OR (R306): Copy a distribution and OR a tag into its lineage tag. -/
  | dtagOr (d : DIdx) (a : DIdx) (h : BitVec 4) (l : BitVec 4)
  /-- DLD (R307): Load a distribution image from ox0. -/
  | dld (d : DIdx) (m : MIdx) (g : BitVec 4)
  /-- DST (R308): Store a distribution image to ox0. -/
  | dst (a : DIdx) (m : MIdx)
  /-- DFROMV (R309): Build distribution points from eight vector registers. -/
  | dfromv (d : DIdx) (m : MIdx) (v : VIdx) (g : BitVec 4)
  /-- DDIRAC (R309): Build a point-mass distribution from one vector register. -/
  | ddirac (d : DIdx) (m : MIdx) (v : VIdx) (g : BitVec 4)
  /-- DMOM (R310): Extract a moment into a vector register. -/
  | dmom (a : DIdx) (m : MIdx) (v : VIdx) (k : BitVec 4)
  /-- DQNT (R311): Extract a lower quantile. -/
  | dqnt (a : DIdx) (m : MIdx) (v : VIdx)
  /-- DCDF (R312): Extract a cumulative probability. -/
  | dcdf (a : DIdx) (m : MIdx) (v : VIdx)
  /-- SPAWN (R251): Read a slug image and push it to its strand queue. -/
  | spawn (a : GIdx)
  /-- SUSPEND (R252): Write the strand's slug to its squeue or pinned slot. -/
  | suspend (a : GIdx)
  /-- DONE (R253): Retire the strand. -/
  | done
  /-- CANCEL (R254): Cancel a level of work. -/
  | cancel (a : GIdx) (l : BitVec 3)
  /-- LVLWAIT (R255): Wait for a level to reach a final state. -/
  | lvlwait (d : GIdx) (a : GIdx) (l : BitVec 3)
  /-- YIELD (R256): Suspend a pooled strand if an earlier-deadline slug fits. -/
  | yield
  /-- CSTART (R258): Keeper sets a context's windows and optionally starts a pinned strand. -/
  | cstart (d : GIdx) (a : GIdx) (c : BitVec 4)
  /-- CREAP (R259): Keeper reaps a context. -/
  | creap (c : BitVec 4)
  /-- CSTAT (R261): Keeper reads a context's condition word. -/
  | cstat (d : GIdx) (c : BitVec 4)
  /-- CHOLD (R260): Keeper holds a context. -/
  | chold (c : BitVec 4)
  /-- CRELEASE (R260): Keeper releases a held context. -/
  | crelease (c : BitVec 4)
  /-- CTRD (R262): Read a control register. -/
  | ctrd (d : GIdx) (r : BitVec 10)
  /-- CTWR (R262): Write a control register that has no behaviour of its own. -/
  | ctwr (a : GIdx) (r : BitVec 10)
  /-- XRD (R263): Keeper reads another context's register. -/
  | xrd (d : GIdx) (a : GIdx) (k : RClass) (c : BitVec 4)
  /-- XWR (R263): Keeper writes a held context's register. -/
  | xwr (d : GIdx) (a : GIdx) (k : RClass) (c : BitVec 4)
  /-- XPRES (R264): Keeper reads and optionally writes presence and arm bits. -/
  | xpres (d : GIdx) (a : GIdx) (k : RClass) (c : BitVec 4)
  /-- TRAP (R265): Take TRAPI with a code. -/
  | trap (c : BitVec 9)
  /-- TRET (R267): Return from a trap handler. -/
  | tret
  /-- BRK (R265): Take BRKPT, holding the context for the keeper. -/
  | brk (c : BitVec 9)
  /-- NOP (R265): One issue slot, no effect. -/
  | nop
  /-- MV_C (R159): Compact register move. -/
  | mvC (a : G5Idx) (b : G5Idx)
  /-- LI_C (R159): Compact load of a small immediate. -/
  | liC (a : G5Idx) (i : BitVec 5)
  /-- ADDI_C (R159): Compact add immediate. -/
  | addiC (a : G5Idx) (i : BitVec 5)
  /-- ADD_C (R159): Compact add. -/
  | addC (a : G5Idx) (b : G5Idx)
  /-- SUB_C (R159): Compact subtract. -/
  | subC (a : G5Idx) (b : G5Idx)
  /-- AND_C (R159): Compact AND. -/
  | andC (a : G5Idx) (b : G5Idx)
  /-- OR_C (R159): Compact OR. -/
  | orC (a : G5Idx) (b : G5Idx)
  /-- XOR_C (R159): Compact XOR. -/
  | xorC (a : G5Idx) (b : G5Idx)
  /-- SHLI_C (R159): Compact shift left immediate. -/
  | shliC (a : G5Idx) (i : BitVec 5)
  /-- SHRI_C (R159): Compact logical shift right immediate. -/
  | shriC (a : G5Idx) (i : BitVec 5)
  /-- SHAI_C (R159): Compact arithmetic shift right immediate. -/
  | shaiC (a : G5Idx) (i : BitVec 5)
  /-- LDW_LS (R159): Compact word load from own local store. -/
  | ldwLs (a : G5Idx) (b : G5Idx)
  /-- STW_LS (R159): Compact word store to own local store. -/
  | stwLs (a : G5Idx) (b : G5Idx)
  /-- LDD_LS (R159): Compact doubleword load from own local store. -/
  | lddLs (a : G5Idx) (b : G5Idx)
  /-- STD_LS (R159): Compact doubleword store to own local store. -/
  | stdLs (a : G5Idx) (b : G5Idx)
  /-- BEQZ_C (R159): Compact branch if zero. -/
  | beqzC (a : G5Idx) (i : BitVec 5)
  /-- BNEZ_C (R159): Compact branch if non-zero. -/
  | bnezC (a : G5Idx) (i : BitVec 5)
  /-- RET (R159): Compact return through g1. -/
  | ret
  /-- NOP_C (R159): Compact no-operation. -/
  | nopC
  /-- QPOP_C (R159): Compact pop from a mapped queue slot. -/
  | qpopC (a : G5Idx) (s : BitVec 2)
  /-- QPUSH_C (R159): Compact push to a mapped queue slot. -/
  | qpushC (a : G5Idx) (s : BitVec 2)
  deriving DecidableEq, Repr

end Sys2Proof
end

