-- ==== Sys2Proof/WellFormed.lean ====
section
/-! DEFINITION. Which terms of Instr an encoding can hold, and the codes of the selector fields (spec/07_encoding.md R112,
R155 to R157, R162, R163). -/

namespace Sys2Proof

/-- The ty field of an element view (R157). -/
def Elem.bits : Elem → BitVec 2
  | .w => 0#2 | .d => 1#2 | .h => 2#2 | .b => 3#2
/-- The element view of a ty field (R157). -/
def Elem.ofBits (t : BitVec 2) : Elem :=
  match t.toNat with
  | 0 => .w | 1 => .d | 2 => .h | _ => .b
/-- The width in bits of an element. -/
def Elem.width : Elem → Nat
  | .w => 32 | .d => 64 | .h => 16 | .b => 8

/-- The ty field of a w or d type (R157). -/
def ElemWD.bits : ElemWD → BitVec 2
  | .w => 0#2 | .d => 1#2
/-- The w or d type of a ty field, where it is one. -/
def ElemWD.ofBits (t : BitVec 2) : Option ElemWD :=
  match t.toNat with
  | 0 => some .w | 1 => some .d | _ => none

/-- The sz field (R157). -/
def Size.bits : Size → BitVec 2
  | .b => 0#2 | .h => 1#2 | .w => 2#2 | .d => 3#2
/-- The access size of an sz field. -/
def Size.ofBits (t : BitVec 2) : Size :=
  match t.toNat with
  | 0 => .b | 1 => .h | 2 => .w | _ => .d
/-- The bytes of an access. -/
def Size.bytes : Size → Nat
  | .b => 1 | .h => 2 | .w => 4 | .d => 8

/-- The amode field (R157). -/
def AMode.bits : AMode → BitVec 2
  | .generic => 0#2 | .ls => 1#2 | .gi => 2#2 | .gb => 3#2
/-- The addressing mode of an amode field. -/
def AMode.ofBits (t : BitVec 2) : AMode :=
  match t.toNat with
  | 0 => .generic | 1 => .ls | 2 => .gi | _ => .gb

/-- The scope field (R112). -/
def Scope.bits : Scope → BitVec 3
  | .ctx => 0#3 | .core => 1#3 | .gal => 2#3 | .die => 3#3 | .pkg => 4#3 | .sys => 5#3
/-- The scope of a scope field, where it is one (R112). -/
def Scope.ofBits (s : BitVec 3) : Option Scope :=
  match s.toNat with
  | 0 => some .ctx | 1 => some .core | 2 => some .gal | 3 => some .die | 4 => some .pkg | 5 => some .sys | _ => none

/-- Bit 0 of PUBLISH's scope field: 4 is .pkg, 5 is .sys (R226). -/
def PubScope.bits : PubScope → BitVec 1
  | .pkg => 0#1 | .sys => 1#1
/-- The scope of a PUBLISH. -/
def PubScope.ofBits (s : BitVec 1) : PubScope := if s == 1#1 then .sys else .pkg

/-- The class field of XREG (R162). -/
def RClass.bits : RClass → BitVec 2
  | .g => 0#2 | .v => 1#2 | .m => 2#2 | .ox => 3#2
/-- The register class of a class field. -/
def RClass.ofBits (t : BitVec 2) : RClass :=
  match t.toNat with
  | 0 => .g | 1 => .v | 2 => .m | _ => .ox

/-- The reason code of R165. -/
def IllReason.code : IllReason → BitVec 8
  | .reservedMajor => 1#8 | .unassigned => 2#8 | .scopeTySz => 3#8 | .mustBeZero => 4#8 | .oddPair => 5#8
  | .compactForm => 6#8 | .ctlNumber => 7#8 | .unitAbsent => 8#8 | .immediate => 9#8 | .token => 10#8

/-- A vector index that may name a pair (R17, R155). -/
def VIdx.even (v : VIdx) : Bool := v.extractLsb' 0 1 == 0#1
/-- With ty = d the index names a pair and is even (R189). -/
def pairOk (t : Elem) (v : VIdx) : Bool := t != .d || VIdx.even v
/-- The same for a w or d type. -/
def pairOkWD (t : ElemWD) (v : VIdx) : Bool := t != .d || VIdx.even v
/-- The tag operand field of DLD, DFROMV and DDIRAC: 0b1jjj, or 0 (R296). -/
def tagOk (g : BitVec 4) : Bool := g.extractLsb' 3 1 == 1#1 || g == 0#4

/-- The encoding can hold the term: the limits of R155, R157, R162, R163 and of the descriptions that the field widths
do not already give. Events have no encoding, and no limit here. -/
def Instr.wf (i : Instr) : Bool :=
  match i with
  | .add _ _ _ => true
  | .sub _ _ _ => true
  | .and _ _ _ => true
  | .or _ _ _ => true
  | .xor _ _ _ => true
  | .andn _ _ _ => true
  | .shl _ _ _ => true
  | .shr _ _ _ => true
  | .sha _ _ _ => true
  | .rot _ _ _ => true
  | .min _ _ _ => true
  | .max _ _ _ => true
  | .minn _ _ _ => true
  | .maxn _ _ _ => true
  | .slt _ _ _ => true
  | .sltn _ _ _ => true
  | .mul _ _ _ => true
  | .mulh _ _ _ => true
  | .mulhn _ _ _ => true
  | .div _ _ _ => true
  | .divn _ _ _ => true
  | .rem _ _ _ => true
  | .remn _ _ _ => true
  | .seq _ _ _ => true
  | .clz _ _ _ => true
  | .ffs _ _ _ => true
  | .popc _ _ _ => true
  | .sext _ _ _ => true
  | .zext _ _ _ => true
  | .brev _ _ => true
  | .bswap _ _ => true
  | .addi _ _ _ => true
  | .andi _ _ _ => true
  | .ori _ _ _ => true
  | .xori _ _ _ => true
  | .slti _ _ _ => true
  | .shli _ _ _ => true
  | .shri _ _ _ => true
  | .shai _ _ _ => true
  | .roti _ _ _ => true
  | .bfx _ _ l p => decide (p.toNat + l.toNat + 1 ≤ 64)
  | .bfi _ _ l p => decide (p.toNat + l.toNat + 1 ≤ 64)
  | .limz _ _ _ => true
  | .limh _ _ _ => true
  | .adpc _ _ => true
  | .faddS _ _ _ => true
  | .fsubS _ _ _ => true
  | .fmulS _ _ _ => true
  | .fdivS _ _ _ => true
  | .fminS _ _ _ => true
  | .fmaxS _ _ _ => true
  | .fsqrtS _ _ => true
  | .fclassS _ _ => true
  | .feqS _ _ _ => true
  | .fltS _ _ _ => true
  | .fleS _ _ _ => true
  | .funS _ _ _ => true
  | .fsgnjS _ _ _ => true
  | .fsgnjnS _ _ _ => true
  | .faddD _ _ _ => true
  | .fsubD _ _ _ => true
  | .fmulD _ _ _ => true
  | .fdivD _ _ _ => true
  | .fminD _ _ _ => true
  | .fmaxD _ _ _ => true
  | .fsqrtD _ _ => true
  | .fclassD _ _ => true
  | .feqD _ _ _ => true
  | .fltD _ _ _ => true
  | .fleD _ _ _ => true
  | .funD _ _ _ => true
  | .fsgnjD _ _ _ => true
  | .fsgnjnD _ _ _ => true
  | .ffmaS _ _ _ => true
  | .ffmsS _ _ _ => true
  | .fnmaS _ _ _ => true
  | .ffmaD _ _ _ => true
  | .ffmsD _ _ _ => true
  | .fnmaD _ _ _ => true
  | .fcvtS2d _ _ => true
  | .fcvtD2s _ _ => true
  | .fcvtS2b _ _ => true
  | .fcvtB2s _ _ => true
  | .fcvtI2s _ _ => true
  | .fcvtN2s _ _ => true
  | .fcvtI2d _ _ => true
  | .fcvtN2d _ _ => true
  | .fcvtS2i _ _ => true
  | .fcvtS2n _ _ => true
  | .fcvtD2i _ _ => true
  | .fcvtD2n _ _ => true
  | .beqz _ _ => true
  | .bnez _ _ => true
  | .bltz _ _ => true
  | .bgez _ _ => true
  | .bgtz _ _ => true
  | .blez _ _ => true
  | .bpres _ _ => true
  | .babs _ _ => true
  | .bmany _ _ => true
  | .ball _ _ => true
  | .bnone _ _ => true
  | .jmp _ => true
  | .jal _ => true
  | .jalr _ _ _ => true
  | .lds _ _ _ _ _ => true
  | .ldn _ _ z _ _ => z != .d
  | .st _ _ _ _ _ => true
  | .ldxsB _ _ _ => true
  | .ldxsH _ _ _ => true
  | .ldxsW _ _ _ => true
  | .ldxsD _ _ _ => true
  | .ldxnB _ _ _ => true
  | .ldxnH _ _ _ => true
  | .ldxnW _ _ _ => true
  | .stxB _ _ _ => true
  | .stxH _ _ _ => true
  | .stxW _ _ _ => true
  | .stxD _ _ _ => true
  | .pref _ _ => true
  | .amoadd _ _ _ _ => true
  | .amoand _ _ _ _ => true
  | .amoor _ _ _ _ => true
  | .amoxor _ _ _ _ => true
  | .amomin _ _ _ _ => true
  | .amomax _ _ _ _ => true
  | .amominn _ _ _ _ => true
  | .amomaxn _ _ _ _ => true
  | .amofaddS _ _ _ _ => true
  | .amofminS _ _ _ _ => true
  | .amofmaxS _ _ _ _ => true
  | .amofaddD _ _ _ _ => true
  | .amofminD _ _ _ _ => true
  | .amofmaxD _ _ _ _ => true
  | .amoswap _ _ _ _ => true
  | .amocas _ _ _ _ => true
  | .lrw _ _ _ => true
  | .sch _ _ _ => true
  | .rsvrel _ _ => true
  | .fence _ => true
  | .lda _ _ _ => true
  | .stl _ _ _ => true
  | .publish _ _ _ => true
  | .shadow _ _ _ => true
  | .binit _ _ _ _ => true
  | .barrive _ _ _ => true
  | .bwait _ _ _ _ => true
  | .bstat _ _ _ => true
  | .nput _ _ _ => true
  | .parm _ => true
  | .waitv _ _ _ => true
  | .wakev _ _ _ => true
  | .migrate _ => true
  | .redAdd _ _ => true
  | .redAnd _ _ => true
  | .redOr _ _ => true
  | .redXor _ _ => true
  | .redMin _ _ => true
  | .redMax _ _ => true
  | .redFaddS _ _ => true
  | .redFaddD _ _ => true
  | .vadd d a b _ t => pairOk t d && pairOk t a && pairOk t b
  | .vsub d a b _ t => pairOk t d && pairOk t a && pairOk t b
  | .vmul d a b _ t => pairOk t d && pairOk t a && pairOk t b
  | .vmulh d a b _ t => pairOk t d && pairOk t a && pairOk t b
  | .vmin d a b _ t => pairOk t d && pairOk t a && pairOk t b
  | .vmax d a b _ t => pairOk t d && pairOk t a && pairOk t b
  | .vminn d a b _ t => pairOk t d && pairOk t a && pairOk t b
  | .vmaxn d a b _ t => pairOk t d && pairOk t a && pairOk t b
  | .vand d a b _ t => pairOk t d && pairOk t a && pairOk t b
  | .vor d a b _ t => pairOk t d && pairOk t a && pairOk t b
  | .vxor d a b _ t => pairOk t d && pairOk t a && pairOk t b
  | .vandn d a b _ t => pairOk t d && pairOk t a && pairOk t b
  | .vshl d a b _ t => pairOk t d && pairOk t a && pairOk t b
  | .vshr d a b _ t => pairOk t d && pairOk t a && pairOk t b
  | .vsha d a b _ t => pairOk t d && pairOk t a && pairOk t b
  | .vabs d a _ t => pairOk t d && pairOk t a
  | .vneg d a _ t => pairOk t d && pairOk t a
  | .vclz d a _ t => pairOk t d && pairOk t a
  | .vffs d a _ t => pairOk t d && pairOk t a
  | .vpopc d a _ t => pairOk t d && pairOk t a
  | .vfadd d a b _ t => pairOkWD t d && pairOkWD t a && pairOkWD t b
  | .vfsub d a b _ t => pairOkWD t d && pairOkWD t a && pairOkWD t b
  | .vfmul d a b _ t => pairOkWD t d && pairOkWD t a && pairOkWD t b
  | .vfdiv d a b _ t => pairOkWD t d && pairOkWD t a && pairOkWD t b
  | .vfmin d a b _ t => pairOkWD t d && pairOkWD t a && pairOkWD t b
  | .vfmax d a b _ t => pairOkWD t d && pairOkWD t a && pairOkWD t b
  | .vfabs d a _ t => pairOkWD t d && pairOkWD t a
  | .vfneg d a _ t => pairOkWD t d && pairOkWD t a
  | .vfsqrt d a _ t => pairOkWD t d && pairOkWD t a
  | .vfma d a b _ t => pairOkWD t d && pairOkWD t a && pairOkWD t b
  | .vfms d a b _ t => pairOkWD t d && pairOkWD t a && pairOkWD t b
  | .vfnma d a b _ t => pairOkWD t d && pairOkWD t a && pairOkWD t b
  | .veq _ a b _ t => pairOkWD t a && pairOkWD t b
  | .vne _ a b _ t => pairOkWD t a && pairOkWD t b
  | .vlt _ a b _ t => pairOkWD t a && pairOkWD t b
  | .vle _ a b _ t => pairOkWD t a && pairOkWD t b
  | .vltn _ a b _ t => pairOkWD t a && pairOkWD t b
  | .vlen _ a b _ t => pairOkWD t a && pairOkWD t b
  | .vfeq _ a b _ t => pairOkWD t a && pairOkWD t b
  | .vflt _ a b _ t => pairOkWD t a && pairOkWD t b
  | .vfle _ a b _ t => pairOkWD t a && pairOkWD t b
  | .vfun _ a b _ t => pairOkWD t a && pairOkWD t b
  | .vrcp _ _ _ => true
  | .vrsq _ _ _ => true
  | .vexp2 _ _ _ => true
  | .vlog2 _ _ _ => true
  | .vsin _ _ _ => true
  | .vcos _ _ _ => true
  | .vtanh _ _ _ => true
  | .vcvtS2d d _ _ => VIdx.even d
  | .vcvtD2s _ a _ => VIdx.even a
  | .vcvtS2b _ a _ => VIdx.even a
  | .vcvtB2s d _ _ => VIdx.even d
  | .vcvtI2s _ _ _ => true
  | .vcvtN2s _ _ _ => true
  | .vcvtS2i _ _ _ => true
  | .vcvtS2n _ _ _ => true
  | .vcvtM8d _ _ _ _ => true
  | .vcvtM8e _ _ _ _ => true
  | .vsel d a b _ t => pairOkWD t d && pairOkWD t a && pairOkWD t b
  | .vperm _ _ _ _ => true
  | .vrotl _ _ _ _ => true
  | .vredadd d a _ t => pairOkWD t d && pairOkWD t a
  | .vredmin d a _ t => pairOkWD t d && pairOkWD t a
  | .vredmax d a _ t => pairOkWD t d && pairOkWD t a
  | .vscanadd d a _ t => pairOkWD t d && pairOkWD t a
  | .vcompress d a _ t => pairOkWD t d && pairOkWD t a
  | .vwadd d a b _ t => pairOkWD t d && pairOkWD t a && pairOkWD t b
  | .vwsub d a b _ t => pairOkWD t d && pairOkWD t a && pairOkWD t b
  | .vwmul d _ _ => VIdx.even d
  | .vwshl d a b t => pairOkWD t d && pairOkWD t a && pairOkWD t b
  | .vwshr d a b t => pairOkWD t d && pairOkWD t a && pairOkWD t b
  | .vwcmp a b _ t => pairOkWD t a && pairOkWD t b
  | .vxclr d => VIdx.even d
  | .vxadd d _ _ => VIdx.even d
  | .vxfma d _ _ _ => VIdx.even d
  | .vxrndS _ a => VIdx.even a
  | .vxrndD _ a => VIdx.even a
  | .vxstat _ a => VIdx.even a
  | .vld _ _ _ _ _ => true
  | .vst _ _ _ _ _ => true
  | .vgather d _ _ t => pairOkWD t d
  | .vscatter _ b _ t => pairOkWD t b
  | .mand _ _ _ => true
  | .mor _ _ _ => true
  | .mxor _ _ _ => true
  | .mnot _ _ => true
  | .mpopc _ _ => true
  | .mffs _ _ => true
  | .mset _ _ => true
  | .mget _ _ => true
  | .vfromg d _ _ t => pairOk t d
  | .vtog _ a _ t => pairOkWD t a
  | .vlanew d _ _ t => pairOkWD t d
  | .vmorton d _ _ => VIdx.even d
  | .vhilbert d _ _ => VIdx.even d
  | .oxset _ _ => true
  | .oxget _ _ => true
  | .oxld j _ n => decide (j.toNat + n.toNat + 1 ≤ 8)
  | .oxst j _ n => decide (j.toNat + n.toNat + 1 ≤ 8)
  | .qpush _ _ _ => true
  | .qpop _ _ _ => true
  | .qtry _ _ _ => true
  | .qpushv _ _ _ _ => true
  | .qpopv _ _ _ => true
  | .qmap _ _ => true
  | .qunmap _ => true
  | .qmark _ _ _ => true
  | .qend _ => true
  | .qstat _ _ _ => true
  | .feed _ _ _ => true
  | .feedx _ _ _ => true
  | .feedqz _ _ _ => true
  | .feedt _ _ _ => true
  | .feedq _ _ _ => true
  | .mma => true
  | .mclr _ => true
  | .mdrain _ _ _ f _ => f != 3#2
  | .plld _ _ _ => true
  | .msort _ => true
  | .repart _ _ => true
  | .rpstat _ _ => true
  | .dadd _ _ _ _ => true
  | .dsub _ _ _ _ => true
  | .dmul _ _ _ _ => true
  | .ddiv _ _ _ _ => true
  | .dmin _ _ _ _ => true
  | .dmax _ _ _ _ => true
  | .daff _ _ _ v => VIdx.even v
  | .dmap _ _ _ i => decide (i.toNat ≤ 10)
  | .dmix _ _ _ _ _ => true
  | .dtag _ _ _ _ => true
  | .dtagOr _ _ _ _ => true
  | .dld _ _ g => tagOk g
  | .dst _ _ => true
  | .dfromv _ _ _ g => tagOk g
  | .ddirac _ _ _ g => tagOk g
  | .dmom _ _ _ k => decide (k.toNat ≤ 3)
  | .dqnt _ _ _ => true
  | .dcdf _ _ _ => true
  | .spawn _ => true
  | .suspend _ => true
  | .done => true
  | .cancel _ _ => true
  | .lvlwait _ _ _ => true
  | .yield => true
  | .cstart _ _ _ => true
  | .creap _ => true
  | .cstat _ _ => true
  | .chold _ => true
  | .crelease _ => true
  | .ctrd _ _ => true
  | .ctwr _ _ => true
  | .xrd _ _ _ _ => true
  | .xwr _ _ _ _ => true
  | .xpres _ _ k _ => (k == .g || k == .v)
  | .trap _ => true
  | .tret => true
  | .brk _ => true
  | .nop => true
  | .mvC _ _ => true
  | .liC _ _ => true
  | .addiC _ _ => true
  | .addC _ _ => true
  | .subC _ _ => true
  | .andC _ _ => true
  | .orC _ _ => true
  | .xorC _ _ => true
  | .shliC _ _ => true
  | .shriC _ _ => true
  | .shaiC _ _ => true
  | .ldwLs _ _ => true
  | .stwLs _ _ => true
  | .lddLs _ _ => true
  | .stdLs _ _ => true
  | .beqzC _ _ => true
  | .bnezC _ _ => true
  | .ret => true
  | .nopC => true
  | .qpopC _ _ => true
  | .qpushC _ _ => true
  | .poolmaskWrite _ => true
  | .saveareaWrite _ => true
  | .windowRegisterWrite _ _ => true
  | .qmapWrite _ => true
  | .loadValueLands _ => true
  | .longLatencyResultLands _ => true
  | .storeAcknowledgement _ => true
  | .refusalArrives _ => true
  | .attributedImpreciseTrap => true
  | .cancelTrap => true
  | .ibrkMatch _ => true
  | .watchpointMatch _ _ _ => true
  | .stepHold _ => true
  | .keeperRestart _ _ => true
  | .depositArrival _ => true
  | .depositAnswer _ => true
  | .memoryRequestAtHome _ => true
  | .bankAluOperation _ => true
  | .clockMessage _ _ _ => true
  | .queuePushAtHome _ => true
  | .queuePopAtHome _ => true
  | .queueMissService _ => true
  | .queueStateReport _ _ => true
  | .dispatchStep _ => true
  | .preemptRequest _ => true
  | .forcedSave _ => true
  | .cancelService _ => true
  | .formeLoad _ _ _ => true
  | .gangReadyReport _ _ => true
  | .gangReadyDeadline _ => true
  | .gangStartTick _ _ => true
  | .programReplacement _ _ => true
  | .replacementRegionDrained _ _ _ _ => true
  | .pageWalkComplete _ _ _ => true
  | .pagerMap _ _ _ _ => true
  | .pagerRefuse _ _ _ => true
  | .tlbInvalidationAck _ _ _ _ => true
  | .feedCopyEnd _ _ => true
  | .feedqEntry _ _ => true
  | .platenOpStart _ => true
  | .platenOpEnd _ => true
  | .condenserOpStart _ => true
  | .condenserOpEnd _ => true
  | .repartRanksGathered _ => true
  | .repartMovement _ => true
  | .repartEnd _ _ => true
  | .publishExchange _ => true
  | .shadowWithdrawal _ => true
  | .waitTableEnter _ => true
  | .waitTableWake _ => true
  | .waitDeadlineExpiry _ _ => true
  | .hostHdmAccess _ _ _ _ => true
  | .hostQueuePush _ _ _ => true
  | .hostQueuePop _ _ => true
  | .hstatusWrite _ _ => true
  | .hostBadAccess _ _ => true
  | .hwait _ _ => true
  | .hwake _ _ => true
  | .hattest _ _ => true
  | .powerOnBoot _ _ => true
  | .bootStepEnd _ _ _ _ _ => true
  | .railFault _ => true
  | .heartbeatListenTimeout _ => true
  | .candidacyReceived _ _ _ => true
  | .candidacyQuietTimeout _ => true
  | .leadReceived _ _ => true
  | .heartbeatSend _ => true
  | .heartbeatReceived _ _ _ => true
  | .leaderLossTimeout _ => true
  | .yieldReceived _ _ _ _ => true
  | .leaderCommand _ _ _ _ _ => true
  | .formeLoadOrder _ _ _ _ => true
  | .keyRegister _ _ _ => true
  | .keyRevoke _ _ => true
  | .groupRegister _ _ _ => true
  | .groupDeregister _ _ => true
  | .timeSyncExchange _ _ => true
  | .unsyncReport _ _ => true
  | .routerCycle _ _ => true
  | .injectionStarvation _ _ => true
  | .messageResend _ _ _ => true
  | .linkPacketArrival _ _ _ => true
  | .linkDown _ _ => true
  | .accountingTick _ _ => true
  | .allotmentIntervalEnd _ _ => true
  | .allotmentRequest _ _ => true
  | .governorSample _ _ _ _ => true
  | .clockRaise _ => true
  | .fastResponse _ => true
  | .thermalTrip _ => true
  | .healthRecord _ _ => true
  | .traceRequest _ _ => true
  | .traceStart _ => true
  | .traceEnd _ => true
  | .coreDumpRequest _ _ _ _ => true
  | .coreDumpAtT _ => true
  | .storageRead _ _ _ => true
  | .storageWrite _ _ _ => true
  | .storageFlush _ _ _ => true
  | .mapRange _ _ _ => true
  | .unmapRange _ _ _ => true
  | .nvmeCompletion _ _ _ _ => true
  | .editionLoad _ _ _ _ => true
  | .shardFetchDone _ _ _ _ _ => true
  | .shardTransformDone _ _ _ _ => true
  | .editionFlip _ _ _ => true
  | .editionOldSlotCheck _ _ => true
  | .encodingNotAnInstruction _ _ => true
  | .formeUnload _ => true
  | .storageTargetRegister _ _ _ _ _ _ => true
  | .editionSigningKeyRegister _ _ _ _ => true
  | .hostFunctionJobBind _ _ _ => true

end Sys2Proof
end

