-- ==== Sys2Proof/Decode.lean ====
section
/-! DEFINITION. The decoder, written from the field layouts and the major map of spec/07_encoding.md (R151 to R165) and the
encodings of the instruction chapters, and after it the encoder. -/

namespace Sys2Proof

/- Lean's code generator has no object tags above 244, and Instr has 454 constructors: what builds one of the later ones is
marked noncomputable. It evaluates in the kernel as any other definition. -/
noncomputable section

/-- Go on if the check holds; otherwise the encoding is not an instruction, for reason r (R163, R165). -/
def chk (c : Bool) (r : IllReason) (k : Except IllReason Instr) : Except IllReason Instr :=
  if c then k else .error r

/-- A type field where the function permits w and d only (R157). -/
def withWD (t : BitVec 2) (k : ElemWD → Except IllReason Instr) : Except IllReason Instr :=
  match ElemWD.ofBits t with
  | some x => k x
  | none => .error .scopeTySz

/-- A scope field: 6 and 7 are not scopes (R112, R157). -/
def withScope (s : BitVec 3) (k : Scope → Except IllReason Instr) : Except IllReason Instr :=
  match Scope.ofBits s with
  | some x => k x
  | none => .error .scopeTySz

/-- The scope field holds one of the six scopes. -/
def scopeOk (s : BitVec 3) : Bool := (Scope.ofBits s).isSome

/-- The level field of CANCEL and LVLWAIT holds 1 to 4 (R162). -/
def levelOk (l : BitVec 3) : Bool := 1 ≤ l.toNat && l.toNat ≤ 4

/-- Major 0x00 (R161). -/
def decIalu (w : BitVec 32) : Except IllReason Instr :=
  match (w.extractLsb' 0 4).toNat with
  | 0 => .ok (.add (w.extractLsb' 18 7) (w.extractLsb' 11 7) (w.extractLsb' 4 7))
  | 1 => .ok (.sub (w.extractLsb' 18 7) (w.extractLsb' 11 7) (w.extractLsb' 4 7))
  | 2 => .ok (.and (w.extractLsb' 18 7) (w.extractLsb' 11 7) (w.extractLsb' 4 7))
  | 3 => .ok (.or (w.extractLsb' 18 7) (w.extractLsb' 11 7) (w.extractLsb' 4 7))
  | 4 => .ok (.xor (w.extractLsb' 18 7) (w.extractLsb' 11 7) (w.extractLsb' 4 7))
  | 5 => .ok (.andn (w.extractLsb' 18 7) (w.extractLsb' 11 7) (w.extractLsb' 4 7))
  | 6 => .ok (.shl (w.extractLsb' 18 7) (w.extractLsb' 11 7) (w.extractLsb' 4 7))
  | 7 => .ok (.shr (w.extractLsb' 18 7) (w.extractLsb' 11 7) (w.extractLsb' 4 7))
  | 8 => .ok (.sha (w.extractLsb' 18 7) (w.extractLsb' 11 7) (w.extractLsb' 4 7))
  | 9 => .ok (.rot (w.extractLsb' 18 7) (w.extractLsb' 11 7) (w.extractLsb' 4 7))
  | 10 => .ok (.min (w.extractLsb' 18 7) (w.extractLsb' 11 7) (w.extractLsb' 4 7))
  | 11 => .ok (.max (w.extractLsb' 18 7) (w.extractLsb' 11 7) (w.extractLsb' 4 7))
  | 12 => .ok (.minn (w.extractLsb' 18 7) (w.extractLsb' 11 7) (w.extractLsb' 4 7))
  | 13 => .ok (.maxn (w.extractLsb' 18 7) (w.extractLsb' 11 7) (w.extractLsb' 4 7))
  | 14 => .ok (.slt (w.extractLsb' 18 7) (w.extractLsb' 11 7) (w.extractLsb' 4 7))
  | _ => .ok (.sltn (w.extractLsb' 18 7) (w.extractLsb' 11 7) (w.extractLsb' 4 7))

/-- Major 0x01 (R161). -/
def decImul (w : BitVec 32) : Except IllReason Instr :=
  match (w.extractLsb' 0 4).toNat with
  | 0 => .ok (.mul (w.extractLsb' 18 7) (w.extractLsb' 11 7) (w.extractLsb' 4 7))
  | 1 => .ok (.mulh (w.extractLsb' 18 7) (w.extractLsb' 11 7) (w.extractLsb' 4 7))
  | 2 => .ok (.mulhn (w.extractLsb' 18 7) (w.extractLsb' 11 7) (w.extractLsb' 4 7))
  | 3 => .ok (.div (w.extractLsb' 18 7) (w.extractLsb' 11 7) (w.extractLsb' 4 7))
  | 4 => .ok (.divn (w.extractLsb' 18 7) (w.extractLsb' 11 7) (w.extractLsb' 4 7))
  | 5 => .ok (.rem (w.extractLsb' 18 7) (w.extractLsb' 11 7) (w.extractLsb' 4 7))
  | 6 => .ok (.remn (w.extractLsb' 18 7) (w.extractLsb' 11 7) (w.extractLsb' 4 7))
  | 7 => .ok (.seq (w.extractLsb' 18 7) (w.extractLsb' 11 7) (w.extractLsb' 4 7))
  | 8 => chk (w.extractLsb' 6 5 == 0) .mustBeZero <| .ok (.clz (w.extractLsb' 18 7) (w.extractLsb' 11 7) (w.extractLsb' 4 2))
  | 9 => chk (w.extractLsb' 6 5 == 0) .mustBeZero <| .ok (.ffs (w.extractLsb' 18 7) (w.extractLsb' 11 7) (w.extractLsb' 4 2))
  | 10 => chk (w.extractLsb' 6 5 == 0) .mustBeZero <| .ok (.popc (w.extractLsb' 18 7) (w.extractLsb' 11 7) (w.extractLsb' 4 2))
  | 11 => chk (w.extractLsb' 6 5 == 0) .mustBeZero <| .ok (.sext (w.extractLsb' 18 7) (w.extractLsb' 11 7) (w.extractLsb' 4 2))
  | 12 => chk (w.extractLsb' 6 5 == 0) .mustBeZero <| .ok (.zext (w.extractLsb' 18 7) (w.extractLsb' 11 7) (w.extractLsb' 4 2))
  | 13 => chk (w.extractLsb' 4 7 == 0) .mustBeZero <| .ok (.brev (w.extractLsb' 18 7) (w.extractLsb' 11 7))
  | 14 => chk (w.extractLsb' 4 7 == 0) .mustBeZero <| .ok (.bswap (w.extractLsb' 18 7) (w.extractLsb' 11 7))
  | _ => .error .unassigned

/-- Major 0x02 (R161). -/
def decAddi (w : BitVec 32) : Except IllReason Instr :=
  .ok (.addi (w.extractLsb' 18 7) (w.extractLsb' 11 7) (w.extractLsb' 0 11))

/-- Major 0x03 (R161). -/
def decAndi (w : BitVec 32) : Except IllReason Instr :=
  .ok (.andi (w.extractLsb' 18 7) (w.extractLsb' 11 7) (w.extractLsb' 0 11))

/-- Major 0x04 (R161). -/
def decOri (w : BitVec 32) : Except IllReason Instr :=
  .ok (.ori (w.extractLsb' 18 7) (w.extractLsb' 11 7) (w.extractLsb' 0 11))

/-- Major 0x05 (R161). -/
def decXori (w : BitVec 32) : Except IllReason Instr :=
  .ok (.xori (w.extractLsb' 18 7) (w.extractLsb' 11 7) (w.extractLsb' 0 11))

/-- Major 0x06 (R161). -/
def decSlti (w : BitVec 32) : Except IllReason Instr :=
  .ok (.slti (w.extractLsb' 18 7) (w.extractLsb' 11 7) (w.extractLsb' 0 11))

/-- Major 0x07 (R161). -/
def decShi (w : BitVec 32) : Except IllReason Instr :=
  match (w.extractLsb' 6 2).toNat with
  | 0 => chk (w.extractLsb' 8 3 == 0) .mustBeZero <| .ok (.shli (w.extractLsb' 18 7) (w.extractLsb' 11 7) (w.extractLsb' 0 6))
  | 1 => chk (w.extractLsb' 8 3 == 0) .mustBeZero <| .ok (.shri (w.extractLsb' 18 7) (w.extractLsb' 11 7) (w.extractLsb' 0 6))
  | 2 => chk (w.extractLsb' 8 3 == 0) .mustBeZero <| .ok (.shai (w.extractLsb' 18 7) (w.extractLsb' 11 7) (w.extractLsb' 0 6))
  | _ => chk (w.extractLsb' 8 3 == 0) .mustBeZero <| .ok (.roti (w.extractLsb' 18 7) (w.extractLsb' 11 7) (w.extractLsb' 0 6))

/-- Major 0x08 (R161). -/
def decBfx (w : BitVec 32) : Except IllReason Instr :=
  chk (decide ((w.extractLsb' 0 6).toNat + (w.extractLsb' 6 5).toNat + 1 ≤ 64)) .immediate <| .ok (.bfx (w.extractLsb' 18 7) (w.extractLsb' 11 7) (w.extractLsb' 6 5) (w.extractLsb' 0 6))

/-- Major 0x09 (R161). -/
def decBfi (w : BitVec 32) : Except IllReason Instr :=
  chk (decide ((w.extractLsb' 0 6).toNat + (w.extractLsb' 6 5).toNat + 1 ≤ 64)) .immediate <| .ok (.bfi (w.extractLsb' 18 7) (w.extractLsb' 11 7) (w.extractLsb' 6 5) (w.extractLsb' 0 6))

/-- Major 0x0A (R161). -/
def decLimz (w : BitVec 32) : Except IllReason Instr :=
  .ok (.limz (w.extractLsb' 18 7) (w.extractLsb' 16 2) (w.extractLsb' 0 16))

/-- Major 0x0B (R161). -/
def decLimh (w : BitVec 32) : Except IllReason Instr :=
  .ok (.limh (w.extractLsb' 18 7) (w.extractLsb' 16 2) (w.extractLsb' 0 16))

/-- Major 0x0C (R161). -/
def decAdpc (w : BitVec 32) : Except IllReason Instr :=
  .ok (.adpc (w.extractLsb' 18 7) (w.extractLsb' 0 18))

/-- Major 0x0D (R161). -/
def decFops (w : BitVec 32) : Except IllReason Instr :=
  match (w.extractLsb' 0 4).toNat with
  | 0 => .ok (.faddS (w.extractLsb' 18 7) (w.extractLsb' 11 7) (w.extractLsb' 4 7))
  | 1 => .ok (.fsubS (w.extractLsb' 18 7) (w.extractLsb' 11 7) (w.extractLsb' 4 7))
  | 2 => .ok (.fmulS (w.extractLsb' 18 7) (w.extractLsb' 11 7) (w.extractLsb' 4 7))
  | 3 => .ok (.fdivS (w.extractLsb' 18 7) (w.extractLsb' 11 7) (w.extractLsb' 4 7))
  | 4 => .ok (.fminS (w.extractLsb' 18 7) (w.extractLsb' 11 7) (w.extractLsb' 4 7))
  | 5 => .ok (.fmaxS (w.extractLsb' 18 7) (w.extractLsb' 11 7) (w.extractLsb' 4 7))
  | 6 => chk (w.extractLsb' 4 7 == 0) .mustBeZero <| .ok (.fsqrtS (w.extractLsb' 18 7) (w.extractLsb' 11 7))
  | 7 => chk (w.extractLsb' 4 7 == 0) .mustBeZero <| .ok (.fclassS (w.extractLsb' 18 7) (w.extractLsb' 11 7))
  | 8 => .ok (.feqS (w.extractLsb' 18 7) (w.extractLsb' 11 7) (w.extractLsb' 4 7))
  | 9 => .ok (.fltS (w.extractLsb' 18 7) (w.extractLsb' 11 7) (w.extractLsb' 4 7))
  | 10 => .ok (.fleS (w.extractLsb' 18 7) (w.extractLsb' 11 7) (w.extractLsb' 4 7))
  | 11 => .ok (.funS (w.extractLsb' 18 7) (w.extractLsb' 11 7) (w.extractLsb' 4 7))
  | 12 => .ok (.fsgnjS (w.extractLsb' 18 7) (w.extractLsb' 11 7) (w.extractLsb' 4 7))
  | 13 => .ok (.fsgnjnS (w.extractLsb' 18 7) (w.extractLsb' 11 7) (w.extractLsb' 4 7))
  | _ => .error .unassigned

/-- Major 0x0E (R161). -/
def decFopd (w : BitVec 32) : Except IllReason Instr :=
  match (w.extractLsb' 0 4).toNat with
  | 0 => .ok (.faddD (w.extractLsb' 18 7) (w.extractLsb' 11 7) (w.extractLsb' 4 7))
  | 1 => .ok (.fsubD (w.extractLsb' 18 7) (w.extractLsb' 11 7) (w.extractLsb' 4 7))
  | 2 => .ok (.fmulD (w.extractLsb' 18 7) (w.extractLsb' 11 7) (w.extractLsb' 4 7))
  | 3 => .ok (.fdivD (w.extractLsb' 18 7) (w.extractLsb' 11 7) (w.extractLsb' 4 7))
  | 4 => .ok (.fminD (w.extractLsb' 18 7) (w.extractLsb' 11 7) (w.extractLsb' 4 7))
  | 5 => .ok (.fmaxD (w.extractLsb' 18 7) (w.extractLsb' 11 7) (w.extractLsb' 4 7))
  | 6 => chk (w.extractLsb' 4 7 == 0) .mustBeZero <| .ok (.fsqrtD (w.extractLsb' 18 7) (w.extractLsb' 11 7))
  | 7 => chk (w.extractLsb' 4 7 == 0) .mustBeZero <| .ok (.fclassD (w.extractLsb' 18 7) (w.extractLsb' 11 7))
  | 8 => .ok (.feqD (w.extractLsb' 18 7) (w.extractLsb' 11 7) (w.extractLsb' 4 7))
  | 9 => .ok (.fltD (w.extractLsb' 18 7) (w.extractLsb' 11 7) (w.extractLsb' 4 7))
  | 10 => .ok (.fleD (w.extractLsb' 18 7) (w.extractLsb' 11 7) (w.extractLsb' 4 7))
  | 11 => .ok (.funD (w.extractLsb' 18 7) (w.extractLsb' 11 7) (w.extractLsb' 4 7))
  | 12 => .ok (.fsgnjD (w.extractLsb' 18 7) (w.extractLsb' 11 7) (w.extractLsb' 4 7))
  | 13 => .ok (.fsgnjnD (w.extractLsb' 18 7) (w.extractLsb' 11 7) (w.extractLsb' 4 7))
  | _ => .error .unassigned

/-- Major 0x0F (R161). -/
def decFfma (w : BitVec 32) : Except IllReason Instr :=
  match (w.extractLsb' 0 4).toNat with
  | 0 => .ok (.ffmaS (w.extractLsb' 18 7) (w.extractLsb' 11 7) (w.extractLsb' 4 7))
  | 1 => .ok (.ffmsS (w.extractLsb' 18 7) (w.extractLsb' 11 7) (w.extractLsb' 4 7))
  | 2 => .ok (.fnmaS (w.extractLsb' 18 7) (w.extractLsb' 11 7) (w.extractLsb' 4 7))
  | 3 => .ok (.ffmaD (w.extractLsb' 18 7) (w.extractLsb' 11 7) (w.extractLsb' 4 7))
  | 4 => .ok (.ffmsD (w.extractLsb' 18 7) (w.extractLsb' 11 7) (w.extractLsb' 4 7))
  | 5 => .ok (.fnmaD (w.extractLsb' 18 7) (w.extractLsb' 11 7) (w.extractLsb' 4 7))
  | _ => .error .unassigned

/-- Major 0x10 (R161). -/
def decFcvt (w : BitVec 32) : Except IllReason Instr :=
  match (w.extractLsb' 0 4).toNat with
  | 0 => chk (w.extractLsb' 4 7 == 0) .mustBeZero <| .ok (.fcvtS2d (w.extractLsb' 18 7) (w.extractLsb' 11 7))
  | 1 => chk (w.extractLsb' 4 7 == 0) .mustBeZero <| .ok (.fcvtD2s (w.extractLsb' 18 7) (w.extractLsb' 11 7))
  | 2 => chk (w.extractLsb' 4 7 == 0) .mustBeZero <| .ok (.fcvtS2b (w.extractLsb' 18 7) (w.extractLsb' 11 7))
  | 3 => chk (w.extractLsb' 4 7 == 0) .mustBeZero <| .ok (.fcvtB2s (w.extractLsb' 18 7) (w.extractLsb' 11 7))
  | 4 => chk (w.extractLsb' 4 7 == 0) .mustBeZero <| .ok (.fcvtI2s (w.extractLsb' 18 7) (w.extractLsb' 11 7))
  | 5 => chk (w.extractLsb' 4 7 == 0) .mustBeZero <| .ok (.fcvtN2s (w.extractLsb' 18 7) (w.extractLsb' 11 7))
  | 6 => chk (w.extractLsb' 4 7 == 0) .mustBeZero <| .ok (.fcvtI2d (w.extractLsb' 18 7) (w.extractLsb' 11 7))
  | 7 => chk (w.extractLsb' 4 7 == 0) .mustBeZero <| .ok (.fcvtN2d (w.extractLsb' 18 7) (w.extractLsb' 11 7))
  | 8 => chk (w.extractLsb' 4 7 == 0) .mustBeZero <| .ok (.fcvtS2i (w.extractLsb' 18 7) (w.extractLsb' 11 7))
  | 9 => chk (w.extractLsb' 4 7 == 0) .mustBeZero <| .ok (.fcvtS2n (w.extractLsb' 18 7) (w.extractLsb' 11 7))
  | 10 => chk (w.extractLsb' 4 7 == 0) .mustBeZero <| .ok (.fcvtD2i (w.extractLsb' 18 7) (w.extractLsb' 11 7))
  | 11 => chk (w.extractLsb' 4 7 == 0) .mustBeZero <| .ok (.fcvtD2n (w.extractLsb' 18 7) (w.extractLsb' 11 7))
  | _ => .error .unassigned

/-- Major 0x11 (R161). -/
def decBcc (w : BitVec 32) : Except IllReason Instr :=
  match (w.extractLsb' 21 4).toNat with
  | 0 => .ok (.beqz (w.extractLsb' 14 7) (w.extractLsb' 0 14))
  | 1 => .ok (.bnez (w.extractLsb' 14 7) (w.extractLsb' 0 14))
  | 2 => .ok (.bltz (w.extractLsb' 14 7) (w.extractLsb' 0 14))
  | 3 => .ok (.bgez (w.extractLsb' 14 7) (w.extractLsb' 0 14))
  | 4 => .ok (.bgtz (w.extractLsb' 14 7) (w.extractLsb' 0 14))
  | 5 => .ok (.blez (w.extractLsb' 14 7) (w.extractLsb' 0 14))
  | _ => .error .unassigned

/-- Major 0x12 (R161). -/
def decBp (w : BitVec 32) : Except IllReason Instr :=
  match (w.extractLsb' 21 4).toNat with
  | 0 => .ok (.bpres (w.extractLsb' 14 7) (w.extractLsb' 0 14))
  | 1 => .ok (.babs (w.extractLsb' 14 7) (w.extractLsb' 0 14))
  | 2 => chk (w.extractLsb' 17 4 == 0) .mustBeZero <| .ok (.bmany (w.extractLsb' 14 3) (w.extractLsb' 0 14))
  | 3 => chk (w.extractLsb' 17 4 == 0) .mustBeZero <| .ok (.ball (w.extractLsb' 14 3) (w.extractLsb' 0 14))
  | 4 => chk (w.extractLsb' 17 4 == 0) .mustBeZero <| .ok (.bnone (w.extractLsb' 14 3) (w.extractLsb' 0 14))
  | _ => .error .unassigned

/-- Major 0x13 (R161). -/
def decJmp (w : BitVec 32) : Except IllReason Instr :=
  .ok (.jmp (w.extractLsb' 0 25))

/-- Major 0x14 (R161). -/
def decJal (w : BitVec 32) : Except IllReason Instr :=
  .ok (.jal (w.extractLsb' 0 25))

/-- Major 0x15 (R161). -/
def decJalr (w : BitVec 32) : Except IllReason Instr :=
  .ok (.jalr (w.extractLsb' 18 7) (w.extractLsb' 11 7) (w.extractLsb' 0 11))

/-- Major 0x16 (R161). -/
def decLds (w : BitVec 32) : Except IllReason Instr :=
  .ok (.lds (w.extractLsb' 18 7) (w.extractLsb' 11 7) (Size.ofBits (w.extractLsb' 9 2)) (AMode.ofBits (w.extractLsb' 7 2)) (w.extractLsb' 0 7))

/-- Major 0x17 (R161). -/
def decLdn (w : BitVec 32) : Except IllReason Instr :=
  chk (w.extractLsb' 9 2 != 3) .scopeTySz <| .ok (.ldn (w.extractLsb' 18 7) (w.extractLsb' 11 7) (Size.ofBits (w.extractLsb' 9 2)) (AMode.ofBits (w.extractLsb' 7 2)) (w.extractLsb' 0 7))

/-- Major 0x18 (R161). -/
def decSt (w : BitVec 32) : Except IllReason Instr :=
  .ok (.st (w.extractLsb' 18 7) (w.extractLsb' 11 7) (Size.ofBits (w.extractLsb' 9 2)) (AMode.ofBits (w.extractLsb' 7 2)) (w.extractLsb' 0 7))

/-- Major 0x19 (R161). -/
def decMemx (w : BitVec 32) : Except IllReason Instr :=
  match (w.extractLsb' 0 4).toNat with
  | 0 => .ok (.ldxsB (w.extractLsb' 18 7) (w.extractLsb' 11 7) (w.extractLsb' 4 7))
  | 1 => .ok (.ldxsH (w.extractLsb' 18 7) (w.extractLsb' 11 7) (w.extractLsb' 4 7))
  | 2 => .ok (.ldxsW (w.extractLsb' 18 7) (w.extractLsb' 11 7) (w.extractLsb' 4 7))
  | 3 => .ok (.ldxsD (w.extractLsb' 18 7) (w.extractLsb' 11 7) (w.extractLsb' 4 7))
  | 4 => .ok (.ldxnB (w.extractLsb' 18 7) (w.extractLsb' 11 7) (w.extractLsb' 4 7))
  | 5 => .ok (.ldxnH (w.extractLsb' 18 7) (w.extractLsb' 11 7) (w.extractLsb' 4 7))
  | 6 => .ok (.ldxnW (w.extractLsb' 18 7) (w.extractLsb' 11 7) (w.extractLsb' 4 7))
  | 7 => .ok (.stxB (w.extractLsb' 18 7) (w.extractLsb' 11 7) (w.extractLsb' 4 7))
  | 8 => .ok (.stxH (w.extractLsb' 18 7) (w.extractLsb' 11 7) (w.extractLsb' 4 7))
  | 9 => .ok (.stxW (w.extractLsb' 18 7) (w.extractLsb' 11 7) (w.extractLsb' 4 7))
  | 10 => .ok (.stxD (w.extractLsb' 18 7) (w.extractLsb' 11 7) (w.extractLsb' 4 7))
  | 11 => chk (w.extractLsb' 18 7 == 0) .mustBeZero <| .ok (.pref (w.extractLsb' 11 7) (w.extractLsb' 4 7))
  | _ => .error .unassigned

/-- Major 0x1A (R161). -/
def decAmoi (w : BitVec 32) : Except IllReason Instr :=
  match (w.extractLsb' 0 3).toNat with
  | 0 => withScope (w.extractLsb' 3 3) fun xs => .ok (.amoadd (w.extractLsb' 18 7) (w.extractLsb' 11 7) (w.extractLsb' 6 5) xs)
  | 1 => withScope (w.extractLsb' 3 3) fun xs => .ok (.amoand (w.extractLsb' 18 7) (w.extractLsb' 11 7) (w.extractLsb' 6 5) xs)
  | 2 => withScope (w.extractLsb' 3 3) fun xs => .ok (.amoor (w.extractLsb' 18 7) (w.extractLsb' 11 7) (w.extractLsb' 6 5) xs)
  | 3 => withScope (w.extractLsb' 3 3) fun xs => .ok (.amoxor (w.extractLsb' 18 7) (w.extractLsb' 11 7) (w.extractLsb' 6 5) xs)
  | 4 => withScope (w.extractLsb' 3 3) fun xs => .ok (.amomin (w.extractLsb' 18 7) (w.extractLsb' 11 7) (w.extractLsb' 6 5) xs)
  | 5 => withScope (w.extractLsb' 3 3) fun xs => .ok (.amomax (w.extractLsb' 18 7) (w.extractLsb' 11 7) (w.extractLsb' 6 5) xs)
  | 6 => withScope (w.extractLsb' 3 3) fun xs => .ok (.amominn (w.extractLsb' 18 7) (w.extractLsb' 11 7) (w.extractLsb' 6 5) xs)
  | _ => withScope (w.extractLsb' 3 3) fun xs => .ok (.amomaxn (w.extractLsb' 18 7) (w.extractLsb' 11 7) (w.extractLsb' 6 5) xs)

/-- Major 0x1B (R161). -/
def decAmof (w : BitVec 32) : Except IllReason Instr :=
  match (w.extractLsb' 0 3).toNat with
  | 0 => withScope (w.extractLsb' 3 3) fun xs => .ok (.amofaddS (w.extractLsb' 18 7) (w.extractLsb' 11 7) (w.extractLsb' 6 5) xs)
  | 1 => withScope (w.extractLsb' 3 3) fun xs => .ok (.amofminS (w.extractLsb' 18 7) (w.extractLsb' 11 7) (w.extractLsb' 6 5) xs)
  | 2 => withScope (w.extractLsb' 3 3) fun xs => .ok (.amofmaxS (w.extractLsb' 18 7) (w.extractLsb' 11 7) (w.extractLsb' 6 5) xs)
  | 3 => withScope (w.extractLsb' 3 3) fun xs => .ok (.amofaddD (w.extractLsb' 18 7) (w.extractLsb' 11 7) (w.extractLsb' 6 5) xs)
  | 4 => withScope (w.extractLsb' 3 3) fun xs => .ok (.amofminD (w.extractLsb' 18 7) (w.extractLsb' 11 7) (w.extractLsb' 6 5) xs)
  | 5 => withScope (w.extractLsb' 3 3) fun xs => .ok (.amofmaxD (w.extractLsb' 18 7) (w.extractLsb' 11 7) (w.extractLsb' 6 5) xs)
  | 6 => withScope (w.extractLsb' 3 3) fun xs => .ok (.amoswap (w.extractLsb' 18 7) (w.extractLsb' 11 7) (w.extractLsb' 6 5) xs)
  | _ => withScope (w.extractLsb' 3 3) fun xs => .ok (.amocas (w.extractLsb' 18 7) (w.extractLsb' 11 7) (w.extractLsb' 6 5) xs)

/-- Major 0x1C (R161). -/
def decRsv (w : BitVec 32) : Except IllReason Instr :=
  match (w.extractLsb' 0 3).toNat with
  | 0 => withScope (w.extractLsb' 3 3) fun xs => chk (w.extractLsb' 6 5 == 0) .mustBeZero <| .ok (.lrw (w.extractLsb' 18 7) (w.extractLsb' 11 7) xs)
  | 1 => withScope (w.extractLsb' 3 3) fun xs => chk (w.extractLsb' 18 7 == 0) .mustBeZero <| .ok (.sch (w.extractLsb' 11 7) (w.extractLsb' 6 5) xs)
  | 2 => withScope (w.extractLsb' 3 3) fun xs => chk (w.extractLsb' 6 5 == 0) .mustBeZero <| chk (w.extractLsb' 18 7 == 0) .mustBeZero <| .ok (.rsvrel (w.extractLsb' 11 7) xs)
  | _ => .error .unassigned

/-- Major 0x1D (R161). -/
def decSync (w : BitVec 32) : Except IllReason Instr :=
  match (w.extractLsb' 0 3).toNat with
  | 0 => withScope (w.extractLsb' 3 3) fun xs => chk (w.extractLsb' 6 19 == 0) .mustBeZero <| .ok (.fence xs)
  | 1 => withScope (w.extractLsb' 3 3) fun xs => chk (w.extractLsb' 6 5 == 0) .mustBeZero <| .ok (.lda (w.extractLsb' 18 7) (w.extractLsb' 11 7) xs)
  | 2 => withScope (w.extractLsb' 3 3) fun xs => chk (w.extractLsb' 18 7 == 0) .mustBeZero <| .ok (.stl (w.extractLsb' 11 7) (w.extractLsb' 6 5) xs)
  | 3 => chk (w.extractLsb' 4 2 == 2) .scopeTySz <| chk (w.extractLsb' 6 5 == 0) .mustBeZero <| .ok (.publish (w.extractLsb' 18 7) (w.extractLsb' 11 7) (PubScope.ofBits (w.extractLsb' 3 1)))
  | 4 => chk (scopeOk (w.extractLsb' 3 3)) .scopeTySz <| chk (w.extractLsb' 3 3 == 0) .mustBeZero <| .ok (.shadow (w.extractLsb' 18 7) (w.extractLsb' 11 7) (w.extractLsb' 6 5))
  | _ => .error .unassigned

/-- Major 0x1E (R161); BARRIVE's b5 must be 0 (DESIGN CHOICE, log entry 55: R228 does not call it unused). -/
def decBar (w : BitVec 32) : Except IllReason Instr :=
  match (w.extractLsb' 0 3).toNat with
  | 0 => withScope (w.extractLsb' 3 3) fun xs => .ok (.binit (w.extractLsb' 18 7) (w.extractLsb' 11 7) (w.extractLsb' 6 5) xs)
  | 1 => withScope (w.extractLsb' 3 3) fun xs => chk (w.extractLsb' 6 5 == 0) .mustBeZero <| .ok (.barrive (w.extractLsb' 18 7) (w.extractLsb' 11 7) xs)
  | 2 => withScope (w.extractLsb' 3 3) fun xs => .ok (.bwait (w.extractLsb' 18 7) (w.extractLsb' 11 7) (w.extractLsb' 6 5) xs)
  | 3 => chk (decide ((w.extractLsb' 6 5).toNat ≤ 2) || w.extractLsb' 3 3 == 0) .unassigned <| chk (scopeOk (w.extractLsb' 3 3)) .scopeTySz <| chk (w.extractLsb' 3 3 == 0) .mustBeZero <| .ok (.bstat (w.extractLsb' 18 7) (w.extractLsb' 11 7) (w.extractLsb' 6 5))
  | _ => .error .unassigned

/-- Major 0x1F (R161). -/
def decXctx (w : BitVec 32) : Except IllReason Instr :=
  match (w.extractLsb' 0 4).toNat with
  | 0 => chk (w.extractLsb' 20 5 == 0) .mustBeZero <| .ok (.nput (w.extractLsb' 18 2) (w.extractLsb' 11 7) (w.extractLsb' 4 7))
  | 1 => chk (w.extractLsb' 4 14 == 0) .mustBeZero <| .ok (.parm (w.extractLsb' 18 7))
  | 2 => .ok (.waitv (w.extractLsb' 18 7) (w.extractLsb' 11 7) (w.extractLsb' 4 7))
  | 3 => .ok (.wakev (w.extractLsb' 18 7) (w.extractLsb' 11 7) (w.extractLsb' 4 7))
  | 4 => chk (w.extractLsb' 4 7 == 0) .mustBeZero <| chk (w.extractLsb' 18 7 == 0) .mustBeZero <| .ok (.migrate (w.extractLsb' 11 7))
  | 5 => match (w.extractLsb' 18 3).toNat with
    | 0 => chk (w.extractLsb' 21 4 == 0) .mustBeZero <| .ok (.redAdd (w.extractLsb' 11 7) (w.extractLsb' 4 7))
    | 1 => chk (w.extractLsb' 21 4 == 0) .mustBeZero <| .ok (.redAnd (w.extractLsb' 11 7) (w.extractLsb' 4 7))
    | 2 => chk (w.extractLsb' 21 4 == 0) .mustBeZero <| .ok (.redOr (w.extractLsb' 11 7) (w.extractLsb' 4 7))
    | 3 => chk (w.extractLsb' 21 4 == 0) .mustBeZero <| .ok (.redXor (w.extractLsb' 11 7) (w.extractLsb' 4 7))
    | 4 => chk (w.extractLsb' 21 4 == 0) .mustBeZero <| .ok (.redMin (w.extractLsb' 11 7) (w.extractLsb' 4 7))
    | 5 => chk (w.extractLsb' 21 4 == 0) .mustBeZero <| .ok (.redMax (w.extractLsb' 11 7) (w.extractLsb' 4 7))
    | 6 => chk (w.extractLsb' 21 4 == 0) .mustBeZero <| .ok (.redFaddS (w.extractLsb' 11 7) (w.extractLsb' 4 7))
    | _ => chk (w.extractLsb' 21 4 == 0) .mustBeZero <| .ok (.redFaddD (w.extractLsb' 11 7) (w.extractLsb' 4 7))
  | _ => .error .unassigned

/-- Major 0x20 (R161). -/
def decVia (w : BitVec 32) : Except IllReason Instr :=
  match (w.extractLsb' 0 5).toNat with
  | 0 => chk ((w.extractLsb' 5 2 != 1 || w.extractLsb' 20 1 == 0)) .oddPair <| chk ((w.extractLsb' 5 2 != 1 || w.extractLsb' 15 1 == 0)) .oddPair <| chk ((w.extractLsb' 5 2 != 1 || w.extractLsb' 10 1 == 0)) .oddPair <| .ok (.vadd (w.extractLsb' 20 5) (w.extractLsb' 15 5) (w.extractLsb' 10 5) (w.extractLsb' 7 3) (Elem.ofBits (w.extractLsb' 5 2)))
  | 1 => chk ((w.extractLsb' 5 2 != 1 || w.extractLsb' 20 1 == 0)) .oddPair <| chk ((w.extractLsb' 5 2 != 1 || w.extractLsb' 15 1 == 0)) .oddPair <| chk ((w.extractLsb' 5 2 != 1 || w.extractLsb' 10 1 == 0)) .oddPair <| .ok (.vsub (w.extractLsb' 20 5) (w.extractLsb' 15 5) (w.extractLsb' 10 5) (w.extractLsb' 7 3) (Elem.ofBits (w.extractLsb' 5 2)))
  | 2 => chk ((w.extractLsb' 5 2 != 1 || w.extractLsb' 20 1 == 0)) .oddPair <| chk ((w.extractLsb' 5 2 != 1 || w.extractLsb' 15 1 == 0)) .oddPair <| chk ((w.extractLsb' 5 2 != 1 || w.extractLsb' 10 1 == 0)) .oddPair <| .ok (.vmul (w.extractLsb' 20 5) (w.extractLsb' 15 5) (w.extractLsb' 10 5) (w.extractLsb' 7 3) (Elem.ofBits (w.extractLsb' 5 2)))
  | 3 => chk ((w.extractLsb' 5 2 != 1 || w.extractLsb' 20 1 == 0)) .oddPair <| chk ((w.extractLsb' 5 2 != 1 || w.extractLsb' 15 1 == 0)) .oddPair <| chk ((w.extractLsb' 5 2 != 1 || w.extractLsb' 10 1 == 0)) .oddPair <| .ok (.vmulh (w.extractLsb' 20 5) (w.extractLsb' 15 5) (w.extractLsb' 10 5) (w.extractLsb' 7 3) (Elem.ofBits (w.extractLsb' 5 2)))
  | 4 => chk ((w.extractLsb' 5 2 != 1 || w.extractLsb' 20 1 == 0)) .oddPair <| chk ((w.extractLsb' 5 2 != 1 || w.extractLsb' 15 1 == 0)) .oddPair <| chk ((w.extractLsb' 5 2 != 1 || w.extractLsb' 10 1 == 0)) .oddPair <| .ok (.vmin (w.extractLsb' 20 5) (w.extractLsb' 15 5) (w.extractLsb' 10 5) (w.extractLsb' 7 3) (Elem.ofBits (w.extractLsb' 5 2)))
  | 5 => chk ((w.extractLsb' 5 2 != 1 || w.extractLsb' 20 1 == 0)) .oddPair <| chk ((w.extractLsb' 5 2 != 1 || w.extractLsb' 15 1 == 0)) .oddPair <| chk ((w.extractLsb' 5 2 != 1 || w.extractLsb' 10 1 == 0)) .oddPair <| .ok (.vmax (w.extractLsb' 20 5) (w.extractLsb' 15 5) (w.extractLsb' 10 5) (w.extractLsb' 7 3) (Elem.ofBits (w.extractLsb' 5 2)))
  | 6 => chk ((w.extractLsb' 5 2 != 1 || w.extractLsb' 20 1 == 0)) .oddPair <| chk ((w.extractLsb' 5 2 != 1 || w.extractLsb' 15 1 == 0)) .oddPair <| chk ((w.extractLsb' 5 2 != 1 || w.extractLsb' 10 1 == 0)) .oddPair <| .ok (.vminn (w.extractLsb' 20 5) (w.extractLsb' 15 5) (w.extractLsb' 10 5) (w.extractLsb' 7 3) (Elem.ofBits (w.extractLsb' 5 2)))
  | 7 => chk ((w.extractLsb' 5 2 != 1 || w.extractLsb' 20 1 == 0)) .oddPair <| chk ((w.extractLsb' 5 2 != 1 || w.extractLsb' 15 1 == 0)) .oddPair <| chk ((w.extractLsb' 5 2 != 1 || w.extractLsb' 10 1 == 0)) .oddPair <| .ok (.vmaxn (w.extractLsb' 20 5) (w.extractLsb' 15 5) (w.extractLsb' 10 5) (w.extractLsb' 7 3) (Elem.ofBits (w.extractLsb' 5 2)))
  | 8 => chk ((w.extractLsb' 5 2 != 1 || w.extractLsb' 20 1 == 0)) .oddPair <| chk ((w.extractLsb' 5 2 != 1 || w.extractLsb' 15 1 == 0)) .oddPair <| chk ((w.extractLsb' 5 2 != 1 || w.extractLsb' 10 1 == 0)) .oddPair <| .ok (.vand (w.extractLsb' 20 5) (w.extractLsb' 15 5) (w.extractLsb' 10 5) (w.extractLsb' 7 3) (Elem.ofBits (w.extractLsb' 5 2)))
  | 9 => chk ((w.extractLsb' 5 2 != 1 || w.extractLsb' 20 1 == 0)) .oddPair <| chk ((w.extractLsb' 5 2 != 1 || w.extractLsb' 15 1 == 0)) .oddPair <| chk ((w.extractLsb' 5 2 != 1 || w.extractLsb' 10 1 == 0)) .oddPair <| .ok (.vor (w.extractLsb' 20 5) (w.extractLsb' 15 5) (w.extractLsb' 10 5) (w.extractLsb' 7 3) (Elem.ofBits (w.extractLsb' 5 2)))
  | 10 => chk ((w.extractLsb' 5 2 != 1 || w.extractLsb' 20 1 == 0)) .oddPair <| chk ((w.extractLsb' 5 2 != 1 || w.extractLsb' 15 1 == 0)) .oddPair <| chk ((w.extractLsb' 5 2 != 1 || w.extractLsb' 10 1 == 0)) .oddPair <| .ok (.vxor (w.extractLsb' 20 5) (w.extractLsb' 15 5) (w.extractLsb' 10 5) (w.extractLsb' 7 3) (Elem.ofBits (w.extractLsb' 5 2)))
  | 11 => chk ((w.extractLsb' 5 2 != 1 || w.extractLsb' 20 1 == 0)) .oddPair <| chk ((w.extractLsb' 5 2 != 1 || w.extractLsb' 15 1 == 0)) .oddPair <| chk ((w.extractLsb' 5 2 != 1 || w.extractLsb' 10 1 == 0)) .oddPair <| .ok (.vandn (w.extractLsb' 20 5) (w.extractLsb' 15 5) (w.extractLsb' 10 5) (w.extractLsb' 7 3) (Elem.ofBits (w.extractLsb' 5 2)))
  | 12 => chk ((w.extractLsb' 5 2 != 1 || w.extractLsb' 20 1 == 0)) .oddPair <| chk ((w.extractLsb' 5 2 != 1 || w.extractLsb' 15 1 == 0)) .oddPair <| chk ((w.extractLsb' 5 2 != 1 || w.extractLsb' 10 1 == 0)) .oddPair <| .ok (.vshl (w.extractLsb' 20 5) (w.extractLsb' 15 5) (w.extractLsb' 10 5) (w.extractLsb' 7 3) (Elem.ofBits (w.extractLsb' 5 2)))
  | 13 => chk ((w.extractLsb' 5 2 != 1 || w.extractLsb' 20 1 == 0)) .oddPair <| chk ((w.extractLsb' 5 2 != 1 || w.extractLsb' 15 1 == 0)) .oddPair <| chk ((w.extractLsb' 5 2 != 1 || w.extractLsb' 10 1 == 0)) .oddPair <| .ok (.vshr (w.extractLsb' 20 5) (w.extractLsb' 15 5) (w.extractLsb' 10 5) (w.extractLsb' 7 3) (Elem.ofBits (w.extractLsb' 5 2)))
  | 14 => chk ((w.extractLsb' 5 2 != 1 || w.extractLsb' 20 1 == 0)) .oddPair <| chk ((w.extractLsb' 5 2 != 1 || w.extractLsb' 15 1 == 0)) .oddPair <| chk ((w.extractLsb' 5 2 != 1 || w.extractLsb' 10 1 == 0)) .oddPair <| .ok (.vsha (w.extractLsb' 20 5) (w.extractLsb' 15 5) (w.extractLsb' 10 5) (w.extractLsb' 7 3) (Elem.ofBits (w.extractLsb' 5 2)))
  | 15 => chk (w.extractLsb' 10 5 == 0) .mustBeZero <| chk ((w.extractLsb' 5 2 != 1 || w.extractLsb' 20 1 == 0)) .oddPair <| chk ((w.extractLsb' 5 2 != 1 || w.extractLsb' 15 1 == 0)) .oddPair <| .ok (.vabs (w.extractLsb' 20 5) (w.extractLsb' 15 5) (w.extractLsb' 7 3) (Elem.ofBits (w.extractLsb' 5 2)))
  | 16 => chk (w.extractLsb' 10 5 == 0) .mustBeZero <| chk ((w.extractLsb' 5 2 != 1 || w.extractLsb' 20 1 == 0)) .oddPair <| chk ((w.extractLsb' 5 2 != 1 || w.extractLsb' 15 1 == 0)) .oddPair <| .ok (.vneg (w.extractLsb' 20 5) (w.extractLsb' 15 5) (w.extractLsb' 7 3) (Elem.ofBits (w.extractLsb' 5 2)))
  | _ => .error .unassigned

/-- Major 0x21 (R161). -/
def decVib (w : BitVec 32) : Except IllReason Instr :=
  match (w.extractLsb' 0 5).toNat with
  | 0 => chk (w.extractLsb' 10 5 == 0) .mustBeZero <| chk ((w.extractLsb' 5 2 != 1 || w.extractLsb' 20 1 == 0)) .oddPair <| chk ((w.extractLsb' 5 2 != 1 || w.extractLsb' 15 1 == 0)) .oddPair <| .ok (.vclz (w.extractLsb' 20 5) (w.extractLsb' 15 5) (w.extractLsb' 7 3) (Elem.ofBits (w.extractLsb' 5 2)))
  | 1 => chk (w.extractLsb' 10 5 == 0) .mustBeZero <| chk ((w.extractLsb' 5 2 != 1 || w.extractLsb' 20 1 == 0)) .oddPair <| chk ((w.extractLsb' 5 2 != 1 || w.extractLsb' 15 1 == 0)) .oddPair <| .ok (.vffs (w.extractLsb' 20 5) (w.extractLsb' 15 5) (w.extractLsb' 7 3) (Elem.ofBits (w.extractLsb' 5 2)))
  | 2 => chk (w.extractLsb' 10 5 == 0) .mustBeZero <| chk ((w.extractLsb' 5 2 != 1 || w.extractLsb' 20 1 == 0)) .oddPair <| chk ((w.extractLsb' 5 2 != 1 || w.extractLsb' 15 1 == 0)) .oddPair <| .ok (.vpopc (w.extractLsb' 20 5) (w.extractLsb' 15 5) (w.extractLsb' 7 3) (Elem.ofBits (w.extractLsb' 5 2)))
  | _ => .error .unassigned

/-- Major 0x22 (R161). -/
def decVf (w : BitVec 32) : Except IllReason Instr :=
  match (w.extractLsb' 0 5).toNat with
  | 0 => withWD (w.extractLsb' 5 2) fun xt => chk ((w.extractLsb' 5 2 != 1 || w.extractLsb' 20 1 == 0)) .oddPair <| chk ((w.extractLsb' 5 2 != 1 || w.extractLsb' 15 1 == 0)) .oddPair <| chk ((w.extractLsb' 5 2 != 1 || w.extractLsb' 10 1 == 0)) .oddPair <| .ok (.vfadd (w.extractLsb' 20 5) (w.extractLsb' 15 5) (w.extractLsb' 10 5) (w.extractLsb' 7 3) xt)
  | 1 => withWD (w.extractLsb' 5 2) fun xt => chk ((w.extractLsb' 5 2 != 1 || w.extractLsb' 20 1 == 0)) .oddPair <| chk ((w.extractLsb' 5 2 != 1 || w.extractLsb' 15 1 == 0)) .oddPair <| chk ((w.extractLsb' 5 2 != 1 || w.extractLsb' 10 1 == 0)) .oddPair <| .ok (.vfsub (w.extractLsb' 20 5) (w.extractLsb' 15 5) (w.extractLsb' 10 5) (w.extractLsb' 7 3) xt)
  | 2 => withWD (w.extractLsb' 5 2) fun xt => chk ((w.extractLsb' 5 2 != 1 || w.extractLsb' 20 1 == 0)) .oddPair <| chk ((w.extractLsb' 5 2 != 1 || w.extractLsb' 15 1 == 0)) .oddPair <| chk ((w.extractLsb' 5 2 != 1 || w.extractLsb' 10 1 == 0)) .oddPair <| .ok (.vfmul (w.extractLsb' 20 5) (w.extractLsb' 15 5) (w.extractLsb' 10 5) (w.extractLsb' 7 3) xt)
  | 3 => withWD (w.extractLsb' 5 2) fun xt => chk ((w.extractLsb' 5 2 != 1 || w.extractLsb' 20 1 == 0)) .oddPair <| chk ((w.extractLsb' 5 2 != 1 || w.extractLsb' 15 1 == 0)) .oddPair <| chk ((w.extractLsb' 5 2 != 1 || w.extractLsb' 10 1 == 0)) .oddPair <| .ok (.vfdiv (w.extractLsb' 20 5) (w.extractLsb' 15 5) (w.extractLsb' 10 5) (w.extractLsb' 7 3) xt)
  | 4 => withWD (w.extractLsb' 5 2) fun xt => chk ((w.extractLsb' 5 2 != 1 || w.extractLsb' 20 1 == 0)) .oddPair <| chk ((w.extractLsb' 5 2 != 1 || w.extractLsb' 15 1 == 0)) .oddPair <| chk ((w.extractLsb' 5 2 != 1 || w.extractLsb' 10 1 == 0)) .oddPair <| .ok (.vfmin (w.extractLsb' 20 5) (w.extractLsb' 15 5) (w.extractLsb' 10 5) (w.extractLsb' 7 3) xt)
  | 5 => withWD (w.extractLsb' 5 2) fun xt => chk ((w.extractLsb' 5 2 != 1 || w.extractLsb' 20 1 == 0)) .oddPair <| chk ((w.extractLsb' 5 2 != 1 || w.extractLsb' 15 1 == 0)) .oddPair <| chk ((w.extractLsb' 5 2 != 1 || w.extractLsb' 10 1 == 0)) .oddPair <| .ok (.vfmax (w.extractLsb' 20 5) (w.extractLsb' 15 5) (w.extractLsb' 10 5) (w.extractLsb' 7 3) xt)
  | 6 => withWD (w.extractLsb' 5 2) fun xt => chk (w.extractLsb' 10 5 == 0) .mustBeZero <| chk ((w.extractLsb' 5 2 != 1 || w.extractLsb' 20 1 == 0)) .oddPair <| chk ((w.extractLsb' 5 2 != 1 || w.extractLsb' 15 1 == 0)) .oddPair <| .ok (.vfabs (w.extractLsb' 20 5) (w.extractLsb' 15 5) (w.extractLsb' 7 3) xt)
  | 7 => withWD (w.extractLsb' 5 2) fun xt => chk (w.extractLsb' 10 5 == 0) .mustBeZero <| chk ((w.extractLsb' 5 2 != 1 || w.extractLsb' 20 1 == 0)) .oddPair <| chk ((w.extractLsb' 5 2 != 1 || w.extractLsb' 15 1 == 0)) .oddPair <| .ok (.vfneg (w.extractLsb' 20 5) (w.extractLsb' 15 5) (w.extractLsb' 7 3) xt)
  | 8 => withWD (w.extractLsb' 5 2) fun xt => chk (w.extractLsb' 10 5 == 0) .mustBeZero <| chk ((w.extractLsb' 5 2 != 1 || w.extractLsb' 20 1 == 0)) .oddPair <| chk ((w.extractLsb' 5 2 != 1 || w.extractLsb' 15 1 == 0)) .oddPair <| .ok (.vfsqrt (w.extractLsb' 20 5) (w.extractLsb' 15 5) (w.extractLsb' 7 3) xt)
  | _ => .error .unassigned

/-- Major 0x23 (R161). -/
def decVfma (w : BitVec 32) : Except IllReason Instr :=
  match (w.extractLsb' 0 5).toNat with
  | 0 => withWD (w.extractLsb' 5 2) fun xt => chk ((w.extractLsb' 5 2 != 1 || w.extractLsb' 20 1 == 0)) .oddPair <| chk ((w.extractLsb' 5 2 != 1 || w.extractLsb' 15 1 == 0)) .oddPair <| chk ((w.extractLsb' 5 2 != 1 || w.extractLsb' 10 1 == 0)) .oddPair <| .ok (.vfma (w.extractLsb' 20 5) (w.extractLsb' 15 5) (w.extractLsb' 10 5) (w.extractLsb' 7 3) xt)
  | 1 => withWD (w.extractLsb' 5 2) fun xt => chk ((w.extractLsb' 5 2 != 1 || w.extractLsb' 20 1 == 0)) .oddPair <| chk ((w.extractLsb' 5 2 != 1 || w.extractLsb' 15 1 == 0)) .oddPair <| chk ((w.extractLsb' 5 2 != 1 || w.extractLsb' 10 1 == 0)) .oddPair <| .ok (.vfms (w.extractLsb' 20 5) (w.extractLsb' 15 5) (w.extractLsb' 10 5) (w.extractLsb' 7 3) xt)
  | 2 => withWD (w.extractLsb' 5 2) fun xt => chk ((w.extractLsb' 5 2 != 1 || w.extractLsb' 20 1 == 0)) .oddPair <| chk ((w.extractLsb' 5 2 != 1 || w.extractLsb' 15 1 == 0)) .oddPair <| chk ((w.extractLsb' 5 2 != 1 || w.extractLsb' 10 1 == 0)) .oddPair <| .ok (.vfnma (w.extractLsb' 20 5) (w.extractLsb' 15 5) (w.extractLsb' 10 5) (w.extractLsb' 7 3) xt)
  | _ => .error .unassigned

/-- Major 0x24 (R161). -/
def decVcmp (w : BitVec 32) : Except IllReason Instr :=
  match (w.extractLsb' 0 5).toNat with
  | 0 => withWD (w.extractLsb' 5 2) fun xt => chk (w.extractLsb' 23 2 == 0) .mustBeZero <| chk ((w.extractLsb' 5 2 != 1 || w.extractLsb' 15 1 == 0)) .oddPair <| chk ((w.extractLsb' 5 2 != 1 || w.extractLsb' 10 1 == 0)) .oddPair <| .ok (.veq (w.extractLsb' 20 3) (w.extractLsb' 15 5) (w.extractLsb' 10 5) (w.extractLsb' 7 3) xt)
  | 1 => withWD (w.extractLsb' 5 2) fun xt => chk (w.extractLsb' 23 2 == 0) .mustBeZero <| chk ((w.extractLsb' 5 2 != 1 || w.extractLsb' 15 1 == 0)) .oddPair <| chk ((w.extractLsb' 5 2 != 1 || w.extractLsb' 10 1 == 0)) .oddPair <| .ok (.vne (w.extractLsb' 20 3) (w.extractLsb' 15 5) (w.extractLsb' 10 5) (w.extractLsb' 7 3) xt)
  | 2 => withWD (w.extractLsb' 5 2) fun xt => chk (w.extractLsb' 23 2 == 0) .mustBeZero <| chk ((w.extractLsb' 5 2 != 1 || w.extractLsb' 15 1 == 0)) .oddPair <| chk ((w.extractLsb' 5 2 != 1 || w.extractLsb' 10 1 == 0)) .oddPair <| .ok (.vlt (w.extractLsb' 20 3) (w.extractLsb' 15 5) (w.extractLsb' 10 5) (w.extractLsb' 7 3) xt)
  | 3 => withWD (w.extractLsb' 5 2) fun xt => chk (w.extractLsb' 23 2 == 0) .mustBeZero <| chk ((w.extractLsb' 5 2 != 1 || w.extractLsb' 15 1 == 0)) .oddPair <| chk ((w.extractLsb' 5 2 != 1 || w.extractLsb' 10 1 == 0)) .oddPair <| .ok (.vle (w.extractLsb' 20 3) (w.extractLsb' 15 5) (w.extractLsb' 10 5) (w.extractLsb' 7 3) xt)
  | 4 => withWD (w.extractLsb' 5 2) fun xt => chk (w.extractLsb' 23 2 == 0) .mustBeZero <| chk ((w.extractLsb' 5 2 != 1 || w.extractLsb' 15 1 == 0)) .oddPair <| chk ((w.extractLsb' 5 2 != 1 || w.extractLsb' 10 1 == 0)) .oddPair <| .ok (.vltn (w.extractLsb' 20 3) (w.extractLsb' 15 5) (w.extractLsb' 10 5) (w.extractLsb' 7 3) xt)
  | 5 => withWD (w.extractLsb' 5 2) fun xt => chk (w.extractLsb' 23 2 == 0) .mustBeZero <| chk ((w.extractLsb' 5 2 != 1 || w.extractLsb' 15 1 == 0)) .oddPair <| chk ((w.extractLsb' 5 2 != 1 || w.extractLsb' 10 1 == 0)) .oddPair <| .ok (.vlen (w.extractLsb' 20 3) (w.extractLsb' 15 5) (w.extractLsb' 10 5) (w.extractLsb' 7 3) xt)
  | 6 => withWD (w.extractLsb' 5 2) fun xt => chk (w.extractLsb' 23 2 == 0) .mustBeZero <| chk ((w.extractLsb' 5 2 != 1 || w.extractLsb' 15 1 == 0)) .oddPair <| chk ((w.extractLsb' 5 2 != 1 || w.extractLsb' 10 1 == 0)) .oddPair <| .ok (.vfeq (w.extractLsb' 20 3) (w.extractLsb' 15 5) (w.extractLsb' 10 5) (w.extractLsb' 7 3) xt)
  | 7 => withWD (w.extractLsb' 5 2) fun xt => chk (w.extractLsb' 23 2 == 0) .mustBeZero <| chk ((w.extractLsb' 5 2 != 1 || w.extractLsb' 15 1 == 0)) .oddPair <| chk ((w.extractLsb' 5 2 != 1 || w.extractLsb' 10 1 == 0)) .oddPair <| .ok (.vflt (w.extractLsb' 20 3) (w.extractLsb' 15 5) (w.extractLsb' 10 5) (w.extractLsb' 7 3) xt)
  | 8 => withWD (w.extractLsb' 5 2) fun xt => chk (w.extractLsb' 23 2 == 0) .mustBeZero <| chk ((w.extractLsb' 5 2 != 1 || w.extractLsb' 15 1 == 0)) .oddPair <| chk ((w.extractLsb' 5 2 != 1 || w.extractLsb' 10 1 == 0)) .oddPair <| .ok (.vfle (w.extractLsb' 20 3) (w.extractLsb' 15 5) (w.extractLsb' 10 5) (w.extractLsb' 7 3) xt)
  | 9 => withWD (w.extractLsb' 5 2) fun xt => chk (w.extractLsb' 23 2 == 0) .mustBeZero <| chk ((w.extractLsb' 5 2 != 1 || w.extractLsb' 15 1 == 0)) .oddPair <| chk ((w.extractLsb' 5 2 != 1 || w.extractLsb' 10 1 == 0)) .oddPair <| .ok (.vfun (w.extractLsb' 20 3) (w.extractLsb' 15 5) (w.extractLsb' 10 5) (w.extractLsb' 7 3) xt)
  | _ => .error .unassigned

/-- Major 0x25 (R161). -/
def decVsf (w : BitVec 32) : Except IllReason Instr :=
  match (w.extractLsb' 0 5).toNat with
  | 0 => chk (w.extractLsb' 5 2 == 0) .scopeTySz <| chk (w.extractLsb' 10 5 == 0) .mustBeZero <| .ok (.vrcp (w.extractLsb' 20 5) (w.extractLsb' 15 5) (w.extractLsb' 7 3))
  | 1 => chk (w.extractLsb' 5 2 == 0) .scopeTySz <| chk (w.extractLsb' 10 5 == 0) .mustBeZero <| .ok (.vrsq (w.extractLsb' 20 5) (w.extractLsb' 15 5) (w.extractLsb' 7 3))
  | 2 => chk (w.extractLsb' 5 2 == 0) .scopeTySz <| chk (w.extractLsb' 10 5 == 0) .mustBeZero <| .ok (.vexp2 (w.extractLsb' 20 5) (w.extractLsb' 15 5) (w.extractLsb' 7 3))
  | 3 => chk (w.extractLsb' 5 2 == 0) .scopeTySz <| chk (w.extractLsb' 10 5 == 0) .mustBeZero <| .ok (.vlog2 (w.extractLsb' 20 5) (w.extractLsb' 15 5) (w.extractLsb' 7 3))
  | 4 => chk (w.extractLsb' 5 2 == 0) .scopeTySz <| chk (w.extractLsb' 10 5 == 0) .mustBeZero <| .ok (.vsin (w.extractLsb' 20 5) (w.extractLsb' 15 5) (w.extractLsb' 7 3))
  | 5 => chk (w.extractLsb' 5 2 == 0) .scopeTySz <| chk (w.extractLsb' 10 5 == 0) .mustBeZero <| .ok (.vcos (w.extractLsb' 20 5) (w.extractLsb' 15 5) (w.extractLsb' 7 3))
  | 6 => chk (w.extractLsb' 5 2 == 0) .scopeTySz <| chk (w.extractLsb' 10 5 == 0) .mustBeZero <| .ok (.vtanh (w.extractLsb' 20 5) (w.extractLsb' 15 5) (w.extractLsb' 7 3))
  | _ => .error .unassigned

/-- Major 0x26 (R161). -/
def decVcvt (w : BitVec 32) : Except IllReason Instr :=
  match (w.extractLsb' 0 5).toNat with
  | 0 => chk (w.extractLsb' 5 2 == 0) .scopeTySz <| chk (w.extractLsb' 10 5 == 0) .mustBeZero <| chk (w.extractLsb' 20 1 == 0) .oddPair <| .ok (.vcvtS2d (w.extractLsb' 20 5) (w.extractLsb' 15 5) (w.extractLsb' 7 3))
  | 1 => chk (w.extractLsb' 5 2 == 0) .scopeTySz <| chk (w.extractLsb' 10 5 == 0) .mustBeZero <| chk (w.extractLsb' 15 1 == 0) .oddPair <| .ok (.vcvtD2s (w.extractLsb' 20 5) (w.extractLsb' 15 5) (w.extractLsb' 7 3))
  | 2 => chk (w.extractLsb' 5 2 == 0) .scopeTySz <| chk (w.extractLsb' 10 5 == 0) .mustBeZero <| chk (w.extractLsb' 15 1 == 0) .oddPair <| .ok (.vcvtS2b (w.extractLsb' 20 5) (w.extractLsb' 15 5) (w.extractLsb' 7 3))
  | 3 => chk (w.extractLsb' 5 2 == 0) .scopeTySz <| chk (w.extractLsb' 10 5 == 0) .mustBeZero <| chk (w.extractLsb' 20 1 == 0) .oddPair <| .ok (.vcvtB2s (w.extractLsb' 20 5) (w.extractLsb' 15 5) (w.extractLsb' 7 3))
  | 4 => chk (w.extractLsb' 5 2 == 0) .scopeTySz <| chk (w.extractLsb' 10 5 == 0) .mustBeZero <| .ok (.vcvtI2s (w.extractLsb' 20 5) (w.extractLsb' 15 5) (w.extractLsb' 7 3))
  | 5 => chk (w.extractLsb' 5 2 == 0) .scopeTySz <| chk (w.extractLsb' 10 5 == 0) .mustBeZero <| .ok (.vcvtN2s (w.extractLsb' 20 5) (w.extractLsb' 15 5) (w.extractLsb' 7 3))
  | 6 => chk (w.extractLsb' 5 2 == 0) .scopeTySz <| chk (w.extractLsb' 10 5 == 0) .mustBeZero <| .ok (.vcvtS2i (w.extractLsb' 20 5) (w.extractLsb' 15 5) (w.extractLsb' 7 3))
  | 7 => chk (w.extractLsb' 5 2 == 0) .scopeTySz <| chk (w.extractLsb' 10 5 == 0) .mustBeZero <| .ok (.vcvtS2n (w.extractLsb' 20 5) (w.extractLsb' 15 5) (w.extractLsb' 7 3))
  | 8 => chk (w.extractLsb' 5 2 == 0) .scopeTySz <| chk (w.extractLsb' 12 3 == 0) .mustBeZero <| .ok (.vcvtM8d (w.extractLsb' 20 5) (w.extractLsb' 15 5) (w.extractLsb' 10 2) (w.extractLsb' 7 3))
  | 9 => chk (w.extractLsb' 5 2 == 0) .scopeTySz <| chk (w.extractLsb' 12 3 == 0) .mustBeZero <| .ok (.vcvtM8e (w.extractLsb' 20 5) (w.extractLsb' 15 5) (w.extractLsb' 10 2) (w.extractLsb' 7 3))
  | _ => .error .unassigned

/-- Major 0x27 (R161). -/
def decVlane (w : BitVec 32) : Except IllReason Instr :=
  match (w.extractLsb' 0 5).toNat with
  | 0 => withWD (w.extractLsb' 5 2) fun xt => chk ((w.extractLsb' 5 2 != 1 || w.extractLsb' 20 1 == 0)) .oddPair <| chk ((w.extractLsb' 5 2 != 1 || w.extractLsb' 15 1 == 0)) .oddPair <| chk ((w.extractLsb' 5 2 != 1 || w.extractLsb' 10 1 == 0)) .oddPair <| .ok (.vsel (w.extractLsb' 20 5) (w.extractLsb' 15 5) (w.extractLsb' 10 5) (w.extractLsb' 7 3) xt)
  | 1 => chk (w.extractLsb' 5 2 == 0) .scopeTySz <| .ok (.vperm (w.extractLsb' 20 5) (w.extractLsb' 15 5) (w.extractLsb' 10 5) (w.extractLsb' 7 3))
  | 2 => chk (w.extractLsb' 5 2 == 0) .scopeTySz <| chk (w.extractLsb' 14 1 == 0) .mustBeZero <| .ok (.vrotl (w.extractLsb' 20 5) (w.extractLsb' 15 5) (w.extractLsb' 10 4) (w.extractLsb' 7 3))
  | 3 => withWD (w.extractLsb' 5 2) fun xt => chk (w.extractLsb' 10 5 == 0) .mustBeZero <| chk ((w.extractLsb' 5 2 != 1 || w.extractLsb' 20 1 == 0)) .oddPair <| chk ((w.extractLsb' 5 2 != 1 || w.extractLsb' 15 1 == 0)) .oddPair <| .ok (.vredadd (w.extractLsb' 20 5) (w.extractLsb' 15 5) (w.extractLsb' 7 3) xt)
  | 4 => withWD (w.extractLsb' 5 2) fun xt => chk (w.extractLsb' 10 5 == 0) .mustBeZero <| chk ((w.extractLsb' 5 2 != 1 || w.extractLsb' 20 1 == 0)) .oddPair <| chk ((w.extractLsb' 5 2 != 1 || w.extractLsb' 15 1 == 0)) .oddPair <| .ok (.vredmin (w.extractLsb' 20 5) (w.extractLsb' 15 5) (w.extractLsb' 7 3) xt)
  | 5 => withWD (w.extractLsb' 5 2) fun xt => chk (w.extractLsb' 10 5 == 0) .mustBeZero <| chk ((w.extractLsb' 5 2 != 1 || w.extractLsb' 20 1 == 0)) .oddPair <| chk ((w.extractLsb' 5 2 != 1 || w.extractLsb' 15 1 == 0)) .oddPair <| .ok (.vredmax (w.extractLsb' 20 5) (w.extractLsb' 15 5) (w.extractLsb' 7 3) xt)
  | 6 => withWD (w.extractLsb' 5 2) fun xt => chk (w.extractLsb' 10 5 == 0) .mustBeZero <| chk ((w.extractLsb' 5 2 != 1 || w.extractLsb' 20 1 == 0)) .oddPair <| chk ((w.extractLsb' 5 2 != 1 || w.extractLsb' 15 1 == 0)) .oddPair <| .ok (.vscanadd (w.extractLsb' 20 5) (w.extractLsb' 15 5) (w.extractLsb' 7 3) xt)
  | 7 => withWD (w.extractLsb' 5 2) fun xt => chk (w.extractLsb' 10 5 == 0) .mustBeZero <| chk ((w.extractLsb' 5 2 != 1 || w.extractLsb' 20 1 == 0)) .oddPair <| chk ((w.extractLsb' 5 2 != 1 || w.extractLsb' 15 1 == 0)) .oddPair <| .ok (.vcompress (w.extractLsb' 20 5) (w.extractLsb' 15 5) (w.extractLsb' 7 3) xt)
  | _ => .error .unassigned

/-- Major 0x28 (R161). -/
def decVwide (w : BitVec 32) : Except IllReason Instr :=
  match (w.extractLsb' 0 5).toNat with
  | 0 => withWD (w.extractLsb' 5 2) fun xt => chk ((w.extractLsb' 5 2 != 1 || w.extractLsb' 20 1 == 0)) .oddPair <| chk ((w.extractLsb' 5 2 != 1 || w.extractLsb' 15 1 == 0)) .oddPair <| chk ((w.extractLsb' 5 2 != 1 || w.extractLsb' 10 1 == 0)) .oddPair <| .ok (.vwadd (w.extractLsb' 20 5) (w.extractLsb' 15 5) (w.extractLsb' 10 5) (w.extractLsb' 7 3) xt)
  | 1 => withWD (w.extractLsb' 5 2) fun xt => chk ((w.extractLsb' 5 2 != 1 || w.extractLsb' 20 1 == 0)) .oddPair <| chk ((w.extractLsb' 5 2 != 1 || w.extractLsb' 15 1 == 0)) .oddPair <| chk ((w.extractLsb' 5 2 != 1 || w.extractLsb' 10 1 == 0)) .oddPair <| .ok (.vwsub (w.extractLsb' 20 5) (w.extractLsb' 15 5) (w.extractLsb' 10 5) (w.extractLsb' 7 3) xt)
  | 2 => chk (w.extractLsb' 5 2 == 0) .scopeTySz <| chk (w.extractLsb' 7 3 == 0) .mustBeZero <| chk (w.extractLsb' 20 1 == 0) .oddPair <| .ok (.vwmul (w.extractLsb' 20 5) (w.extractLsb' 15 5) (w.extractLsb' 10 5))
  | 3 => withWD (w.extractLsb' 5 2) fun xt => chk (w.extractLsb' 7 3 == 0) .mustBeZero <| chk ((w.extractLsb' 5 2 != 1 || w.extractLsb' 20 1 == 0)) .oddPair <| chk ((w.extractLsb' 5 2 != 1 || w.extractLsb' 15 1 == 0)) .oddPair <| chk ((w.extractLsb' 5 2 != 1 || w.extractLsb' 10 1 == 0)) .oddPair <| .ok (.vwshl (w.extractLsb' 20 5) (w.extractLsb' 15 5) (w.extractLsb' 10 5) xt)
  | 4 => withWD (w.extractLsb' 5 2) fun xt => chk (w.extractLsb' 7 3 == 0) .mustBeZero <| chk ((w.extractLsb' 5 2 != 1 || w.extractLsb' 20 1 == 0)) .oddPair <| chk ((w.extractLsb' 5 2 != 1 || w.extractLsb' 15 1 == 0)) .oddPair <| chk ((w.extractLsb' 5 2 != 1 || w.extractLsb' 10 1 == 0)) .oddPair <| .ok (.vwshr (w.extractLsb' 20 5) (w.extractLsb' 15 5) (w.extractLsb' 10 5) xt)
  | 5 => withWD (w.extractLsb' 5 2) fun xt => chk (w.extractLsb' 20 5 == 0) .mustBeZero <| chk (w.extractLsb' 7 3 != 0 || ((w.extractLsb' 5 2 != 1 || w.extractLsb' 15 1 == 0) && (w.extractLsb' 5 2 != 1 || w.extractLsb' 10 1 == 0))) .mustBeZero <| chk ((w.extractLsb' 5 2 != 1 || w.extractLsb' 15 1 == 0)) .oddPair <| chk ((w.extractLsb' 5 2 != 1 || w.extractLsb' 10 1 == 0)) .oddPair <| .ok (.vwcmp (w.extractLsb' 15 5) (w.extractLsb' 10 5) (w.extractLsb' 7 3) xt)
  | _ => .error .unassigned

/-- Major 0x29 (R161). -/
def decVxa (w : BitVec 32) : Except IllReason Instr :=
  match (w.extractLsb' 0 5).toNat with
  | 0 => chk (w.extractLsb' 5 2 == 0) .scopeTySz <| chk (w.extractLsb' 7 13 == 0) .mustBeZero <| chk (w.extractLsb' 20 1 == 0) .oddPair <| .ok (.vxclr (w.extractLsb' 20 5))
  | 1 => chk (w.extractLsb' 5 2 == 0) .scopeTySz <| chk (w.extractLsb' 10 5 == 0) .mustBeZero <| chk (w.extractLsb' 20 1 == 0) .oddPair <| .ok (.vxadd (w.extractLsb' 20 5) (w.extractLsb' 15 5) (w.extractLsb' 7 3))
  | 2 => chk (w.extractLsb' 5 2 == 0) .scopeTySz <| chk (w.extractLsb' 20 1 == 0) .oddPair <| .ok (.vxfma (w.extractLsb' 20 5) (w.extractLsb' 15 5) (w.extractLsb' 10 5) (w.extractLsb' 7 3))
  | 3 => chk (w.extractLsb' 5 2 == 0) .scopeTySz <| chk (w.extractLsb' 7 8 == 0) .mustBeZero <| chk (w.extractLsb' 15 1 == 0) .oddPair <| .ok (.vxrndS (w.extractLsb' 20 5) (w.extractLsb' 15 5))
  | 4 => chk (w.extractLsb' 5 2 == 0) .scopeTySz <| chk (w.extractLsb' 7 8 == 0) .mustBeZero <| chk (w.extractLsb' 15 1 == 0) .oddPair <| .ok (.vxrndD (w.extractLsb' 20 5) (w.extractLsb' 15 5))
  | 5 => chk (w.extractLsb' 5 2 == 0) .scopeTySz <| chk (w.extractLsb' 7 8 == 0) .mustBeZero <| chk (w.extractLsb' 15 1 == 0) .oddPair <| .ok (.vxstat (w.extractLsb' 20 5) (w.extractLsb' 15 5))
  | _ => .error .unassigned

/-- Major 0x2A (R161). -/
def decVmem (w : BitVec 32) : Except IllReason Instr :=
  match (w.extractLsb' 0 1).toNat with
  | 0 => .ok (.vld (w.extractLsb' 20 5) (w.extractLsb' 13 7) (w.extractLsb' 10 3) (AMode.ofBits (w.extractLsb' 8 2)) (w.extractLsb' 1 7))
  | _ => .ok (.vst (w.extractLsb' 20 5) (w.extractLsb' 13 7) (w.extractLsb' 10 3) (AMode.ofBits (w.extractLsb' 8 2)) (w.extractLsb' 1 7))

/-- Major 0x2B (R161). -/
def decVgs (w : BitVec 32) : Except IllReason Instr :=
  match (w.extractLsb' 0 5).toNat with
  | 0 => withWD (w.extractLsb' 5 2) fun xt => chk (w.extractLsb' 10 5 == 0) .mustBeZero <| chk ((w.extractLsb' 5 2 != 1 || w.extractLsb' 20 1 == 0)) .oddPair <| .ok (.vgather (w.extractLsb' 20 5) (w.extractLsb' 15 5) (w.extractLsb' 7 3) xt)
  | 1 => withWD (w.extractLsb' 5 2) fun xt => chk (w.extractLsb' 20 5 == 0) .mustBeZero <| chk ((w.extractLsb' 5 2 != 1 || w.extractLsb' 10 1 == 0)) .oddPair <| .ok (.vscatter (w.extractLsb' 15 5) (w.extractLsb' 10 5) (w.extractLsb' 7 3) xt)
  | _ => .error .unassigned

/-- Major 0x2C (R161); vb of MFFS and MGET must be 0 (DESIGN CHOICE, log entry 55: R208's rows do not call it unused). -/
def decVmv (w : BitVec 32) : Except IllReason Instr :=
  match (w.extractLsb' 0 5).toNat with
  | 0 => chk (w.extractLsb' 5 2 == 0) .scopeTySz <| chk (w.extractLsb' 7 3 == 0) .mustBeZero <| chk (w.extractLsb' 13 2 == 0) .mustBeZero <| chk (w.extractLsb' 18 2 == 0) .mustBeZero <| chk (w.extractLsb' 23 2 == 0) .mustBeZero <| .ok (.mand (w.extractLsb' 20 3) (w.extractLsb' 15 3) (w.extractLsb' 10 3))
  | 1 => chk (w.extractLsb' 5 2 == 0) .scopeTySz <| chk (w.extractLsb' 7 3 == 0) .mustBeZero <| chk (w.extractLsb' 13 2 == 0) .mustBeZero <| chk (w.extractLsb' 18 2 == 0) .mustBeZero <| chk (w.extractLsb' 23 2 == 0) .mustBeZero <| .ok (.mor (w.extractLsb' 20 3) (w.extractLsb' 15 3) (w.extractLsb' 10 3))
  | 2 => chk (w.extractLsb' 5 2 == 0) .scopeTySz <| chk (w.extractLsb' 7 3 == 0) .mustBeZero <| chk (w.extractLsb' 13 2 == 0) .mustBeZero <| chk (w.extractLsb' 18 2 == 0) .mustBeZero <| chk (w.extractLsb' 23 2 == 0) .mustBeZero <| .ok (.mxor (w.extractLsb' 20 3) (w.extractLsb' 15 3) (w.extractLsb' 10 3))
  | 3 => chk (w.extractLsb' 5 2 == 0) .scopeTySz <| chk (w.extractLsb' 7 8 == 0) .mustBeZero <| chk (w.extractLsb' 18 2 == 0) .mustBeZero <| chk (w.extractLsb' 23 2 == 0) .mustBeZero <| .ok (.mnot (w.extractLsb' 20 3) (w.extractLsb' 15 3))
  | 4 => chk (w.extractLsb' 5 2 == 0) .scopeTySz <| chk (w.extractLsb' 7 8 == 0) .mustBeZero <| chk (w.extractLsb' 18 2 == 0) .mustBeZero <| .ok (.mpopc (w.extractLsb' 20 5) (w.extractLsb' 15 3))
  | 5 => chk (w.extractLsb' 5 2 == 0) .scopeTySz <| chk (w.extractLsb' 7 8 == 0) .mustBeZero <| chk (w.extractLsb' 18 2 == 0) .mustBeZero <| .ok (.mffs (w.extractLsb' 20 5) (w.extractLsb' 15 3))
  | 6 => chk (w.extractLsb' 5 2 == 0) .scopeTySz <| chk (w.extractLsb' 7 8 == 0) .mustBeZero <| chk (w.extractLsb' 23 2 == 0) .mustBeZero <| .ok (.mset (w.extractLsb' 20 3) (w.extractLsb' 15 5))
  | 7 => chk (w.extractLsb' 5 2 == 0) .scopeTySz <| chk (w.extractLsb' 7 8 == 0) .mustBeZero <| chk (w.extractLsb' 18 2 == 0) .mustBeZero <| .ok (.mget (w.extractLsb' 20 5) (w.extractLsb' 15 3))
  | 8 => chk (w.extractLsb' 10 5 == 0) .mustBeZero <| chk ((w.extractLsb' 5 2 != 1 || w.extractLsb' 20 1 == 0)) .oddPair <| .ok (.vfromg (w.extractLsb' 20 5) (w.extractLsb' 15 5) (w.extractLsb' 7 3) (Elem.ofBits (w.extractLsb' 5 2)))
  | 9 => withWD (w.extractLsb' 5 2) fun xt => chk (w.extractLsb' 7 3 == 0) .mustBeZero <| chk (w.extractLsb' 14 1 == 0) .mustBeZero <| chk ((w.extractLsb' 5 2 != 1 || w.extractLsb' 15 1 == 0)) .oddPair <| .ok (.vtog (w.extractLsb' 20 5) (w.extractLsb' 15 5) (w.extractLsb' 10 4) xt)
  | 10 => withWD (w.extractLsb' 5 2) fun xt => chk (w.extractLsb' 7 3 == 0) .mustBeZero <| chk (w.extractLsb' 14 1 == 0) .mustBeZero <| chk ((w.extractLsb' 5 2 != 1 || w.extractLsb' 20 1 == 0)) .oddPair <| .ok (.vlanew (w.extractLsb' 20 5) (w.extractLsb' 15 5) (w.extractLsb' 10 4) xt)
  | _ => .error .unassigned

/-- Major 0x2D (R161). -/
def decSfc (w : BitVec 32) : Except IllReason Instr :=
  match (w.extractLsb' 0 5).toNat with
  | 0 => chk (w.extractLsb' 5 2 == 0) .scopeTySz <| chk (w.extractLsb' 10 5 == 0) .mustBeZero <| chk (w.extractLsb' 20 1 == 0) .oddPair <| .ok (.vmorton (w.extractLsb' 20 5) (w.extractLsb' 15 5) (w.extractLsb' 7 3))
  | 1 => chk (w.extractLsb' 5 2 == 0) .scopeTySz <| chk (w.extractLsb' 10 5 == 0) .mustBeZero <| chk (w.extractLsb' 20 1 == 0) .oddPair <| .ok (.vhilbert (w.extractLsb' 20 5) (w.extractLsb' 15 5) (w.extractLsb' 7 3))
  | _ => .error .unassigned

/-- Major 0x2E (R161). -/
def decOxm (w : BitVec 32) : Except IllReason Instr :=
  match (w.extractLsb' 0 4).toNat with
  | 0 => chk (w.extractLsb' 4 7 == 0) .mustBeZero <| chk (w.extractLsb' 21 4 == 0) .mustBeZero <| .ok (.oxset (w.extractLsb' 18 3) (w.extractLsb' 11 7))
  | 1 => chk (w.extractLsb' 4 7 == 0) .mustBeZero <| chk (w.extractLsb' 14 4 == 0) .mustBeZero <| .ok (.oxget (w.extractLsb' 18 7) (w.extractLsb' 11 3))
  | 2 => chk (w.extractLsb' 7 4 == 0) .mustBeZero <| chk (w.extractLsb' 21 4 == 0) .mustBeZero <| chk (decide ((w.extractLsb' 18 3).toNat + (w.extractLsb' 4 3).toNat + 1 ≤ 8)) .immediate <| .ok (.oxld (w.extractLsb' 18 3) (w.extractLsb' 11 7) (w.extractLsb' 4 3))
  | 3 => chk (w.extractLsb' 7 4 == 0) .mustBeZero <| chk (w.extractLsb' 21 4 == 0) .mustBeZero <| chk (decide ((w.extractLsb' 18 3).toNat + (w.extractLsb' 4 3).toNat + 1 ≤ 8)) .immediate <| .ok (.oxst (w.extractLsb' 18 3) (w.extractLsb' 11 7) (w.extractLsb' 4 3))
  | _ => .error .unassigned

/-- Major 0x30 (R161). -/
def decQue (w : BitVec 32) : Except IllReason Instr :=
  match (w.extractLsb' 0 4).toNat with
  | 0 => chk (w.extractLsb' 20 5 == 0) .mustBeZero <| .ok (.qpush (w.extractLsb' 18 2) (w.extractLsb' 11 7) (w.extractLsb' 4 7))
  | 1 => .ok (.qpop (w.extractLsb' 18 7) (w.extractLsb' 11 7) (w.extractLsb' 4 7))
  | 2 => .ok (.qtry (w.extractLsb' 18 7) (w.extractLsb' 11 7) (w.extractLsb' 4 7))
  | 3 => chk (w.extractLsb' 9 2 == 0) .mustBeZero <| chk (w.extractLsb' 23 2 == 0) .mustBeZero <| .ok (.qpushv (w.extractLsb' 20 3) (w.extractLsb' 18 2) (w.extractLsb' 11 7) (w.extractLsb' 4 5))
  | 4 => chk (w.extractLsb' 23 2 == 0) .mustBeZero <| .ok (.qpopv (w.extractLsb' 18 5) (w.extractLsb' 11 7) (w.extractLsb' 4 7))
  | 5 => chk (w.extractLsb' 4 7 == 0) .mustBeZero <| chk (w.extractLsb' 20 5 == 0) .mustBeZero <| .ok (.qmap (w.extractLsb' 18 2) (w.extractLsb' 11 7))
  | 6 => chk (w.extractLsb' 4 14 == 0) .mustBeZero <| chk (w.extractLsb' 20 5 == 0) .mustBeZero <| .ok (.qunmap (w.extractLsb' 18 2))
  | 7 => chk (w.extractLsb' 19 6 == 0) .mustBeZero <| .ok (.qmark (w.extractLsb' 18 1) (w.extractLsb' 11 7) (w.extractLsb' 4 7))
  | 8 => chk (w.extractLsb' 4 7 == 0) .mustBeZero <| chk (w.extractLsb' 18 7 == 0) .mustBeZero <| .ok (.qend (w.extractLsb' 11 7))
  | 9 => .ok (.qstat (w.extractLsb' 18 7) (w.extractLsb' 11 7) (w.extractLsb' 4 7))
  | _ => .error .unassigned

/-- Major 0x31 (R161). -/
def decFeedop (w : BitVec 32) : Except IllReason Instr :=
  match (w.extractLsb' 0 4).toNat with
  | 0 => .ok (.feed (w.extractLsb' 18 7) (w.extractLsb' 11 7) (w.extractLsb' 4 7))
  | 1 => .ok (.feedx (w.extractLsb' 18 7) (w.extractLsb' 11 7) (w.extractLsb' 4 7))
  | 2 => .ok (.feedqz (w.extractLsb' 18 7) (w.extractLsb' 11 7) (w.extractLsb' 4 7))
  | 3 => .ok (.feedt (w.extractLsb' 18 7) (w.extractLsb' 11 7) (w.extractLsb' 4 7))
  | 4 => .ok (.feedq (w.extractLsb' 18 7) (w.extractLsb' 11 7) (w.extractLsb' 4 7))
  | _ => .error .unassigned

/-- Major 0x32 (R161). -/
def decPlt (w : BitVec 32) : Except IllReason Instr :=
  match (w.extractLsb' 0 4).toNat with
  | 0 => chk (w.extractLsb' 4 21 == 0) .mustBeZero <| .ok (.mma)
  | 1 => chk (w.extractLsb' 6 19 == 0) .mustBeZero <| .ok (.mclr (w.extractLsb' 4 2))
  | 2 => chk (w.extractLsb' 6 2 != 3) .scopeTySz <| chk (w.extractLsb' 9 2 == 0) .mustBeZero <| .ok (.mdrain (w.extractLsb' 18 7) (w.extractLsb' 11 7) (w.extractLsb' 8 1) (w.extractLsb' 6 2) (w.extractLsb' 4 2))
  | 3 => .ok (.plld (w.extractLsb' 18 7) (w.extractLsb' 11 7) (w.extractLsb' 4 7))
  | 4 => chk (w.extractLsb' 4 14 == 0) .mustBeZero <| .ok (.msort (w.extractLsb' 18 7))
  | _ => .error .unassigned

/-- Major 0x33 (R161). -/
def decRep (w : BitVec 32) : Except IllReason Instr :=
  match (w.extractLsb' 0 4).toNat with
  | 0 => chk (w.extractLsb' 4 7 == 0) .mustBeZero <| .ok (.repart (w.extractLsb' 18 7) (w.extractLsb' 11 7))
  | 1 => chk (w.extractLsb' 4 7 == 0) .mustBeZero <| .ok (.rpstat (w.extractLsb' 18 7) (w.extractLsb' 11 7))
  | _ => .error .unassigned

/-- Major 0x34 (R161). -/
def decDista (w : BitVec 32) : Except IllReason Instr :=
  match (w.extractLsb' 4 4).toNat with
  | 0 => chk (w.extractLsb' 0 4 == 0) .mustBeZero <| chk (w.extractLsb' 8 5 == 0) .mustBeZero <| .ok (.dadd (w.extractLsb' 22 3) (w.extractLsb' 19 3) (w.extractLsb' 16 3) (w.extractLsb' 13 3))
  | 1 => chk (w.extractLsb' 0 4 == 0) .mustBeZero <| chk (w.extractLsb' 8 5 == 0) .mustBeZero <| .ok (.dsub (w.extractLsb' 22 3) (w.extractLsb' 19 3) (w.extractLsb' 16 3) (w.extractLsb' 13 3))
  | 2 => chk (w.extractLsb' 0 4 == 0) .mustBeZero <| chk (w.extractLsb' 8 5 == 0) .mustBeZero <| .ok (.dmul (w.extractLsb' 22 3) (w.extractLsb' 19 3) (w.extractLsb' 16 3) (w.extractLsb' 13 3))
  | 3 => chk (w.extractLsb' 0 4 == 0) .mustBeZero <| chk (w.extractLsb' 8 5 == 0) .mustBeZero <| .ok (.ddiv (w.extractLsb' 22 3) (w.extractLsb' 19 3) (w.extractLsb' 16 3) (w.extractLsb' 13 3))
  | 4 => chk (w.extractLsb' 0 4 == 0) .mustBeZero <| chk (w.extractLsb' 8 5 == 0) .mustBeZero <| .ok (.dmin (w.extractLsb' 22 3) (w.extractLsb' 19 3) (w.extractLsb' 16 3) (w.extractLsb' 13 3))
  | 5 => chk (w.extractLsb' 0 4 == 0) .mustBeZero <| chk (w.extractLsb' 8 5 == 0) .mustBeZero <| .ok (.dmax (w.extractLsb' 22 3) (w.extractLsb' 19 3) (w.extractLsb' 16 3) (w.extractLsb' 13 3))
  | _ => .error .unassigned

/-- Major 0x35 (R161). -/
def decDistb (w : BitVec 32) : Except IllReason Instr :=
  match (w.extractLsb' 4 4).toNat with
  | 0 => chk (w.extractLsb' 0 4 == 0) .mustBeZero <| chk (w.extractLsb' 16 3 == 0) .mustBeZero <| chk (w.extractLsb' 8 1 == 0) .oddPair <| .ok (.daff (w.extractLsb' 22 3) (w.extractLsb' 19 3) (w.extractLsb' 13 3) (w.extractLsb' 8 5))
  | 1 => chk (decide ((w.extractLsb' 0 4).toNat ≤ 10)) .unassigned <| chk (w.extractLsb' 8 5 == 0) .mustBeZero <| chk (w.extractLsb' 16 3 == 0) .mustBeZero <| .ok (.dmap (w.extractLsb' 22 3) (w.extractLsb' 19 3) (w.extractLsb' 13 3) (w.extractLsb' 0 4))
  | 2 => chk (w.extractLsb' 0 4 == 0) .mustBeZero <| .ok (.dmix (w.extractLsb' 22 3) (w.extractLsb' 19 3) (w.extractLsb' 16 3) (w.extractLsb' 13 3) (w.extractLsb' 8 5))
  | 3 => if w.extractLsb' 16 1 == 0 then chk (w.extractLsb' 12 4 == 0) .mustBeZero <| chk (w.extractLsb' 17 2 == 0) .mustBeZero <| .ok (.dtag (w.extractLsb' 22 3) (w.extractLsb' 19 3) (w.extractLsb' 8 4) (w.extractLsb' 0 4))
    else chk (w.extractLsb' 12 4 == 0) .mustBeZero <| chk (w.extractLsb' 17 2 == 0) .mustBeZero <| .ok (.dtagOr (w.extractLsb' 22 3) (w.extractLsb' 19 3) (w.extractLsb' 8 4) (w.extractLsb' 0 4))
  | _ => .error .unassigned

/-- Major 0x36 (R161). -/
def decDistc (w : BitVec 32) : Except IllReason Instr :=
  match (w.extractLsb' 4 4).toNat with
  | 0 => chk (w.extractLsb' 8 5 == 0) .mustBeZero <| chk (w.extractLsb' 16 6 == 0) .mustBeZero <| chk (w.extractLsb' 3 1 == 1 || w.extractLsb' 0 4 == 0) .mustBeZero <| .ok (.dld (w.extractLsb' 22 3) (w.extractLsb' 13 3) (w.extractLsb' 0 4))
  | 1 => chk (w.extractLsb' 0 4 == 0) .mustBeZero <| chk (w.extractLsb' 8 5 == 0) .mustBeZero <| chk (w.extractLsb' 16 3 == 0) .mustBeZero <| chk (w.extractLsb' 22 3 == 0) .mustBeZero <| .ok (.dst (w.extractLsb' 19 3) (w.extractLsb' 13 3))
  | 2 => chk (w.extractLsb' 16 6 == 0) .mustBeZero <| chk (w.extractLsb' 3 1 == 1 || w.extractLsb' 0 4 == 0) .mustBeZero <| .ok (.dfromv (w.extractLsb' 22 3) (w.extractLsb' 13 3) (w.extractLsb' 8 5) (w.extractLsb' 0 4))
  | 3 => chk (w.extractLsb' 16 6 == 0) .mustBeZero <| chk (w.extractLsb' 3 1 == 1 || w.extractLsb' 0 4 == 0) .mustBeZero <| .ok (.ddirac (w.extractLsb' 22 3) (w.extractLsb' 13 3) (w.extractLsb' 8 5) (w.extractLsb' 0 4))
  | 4 => chk (decide ((w.extractLsb' 0 4).toNat ≤ 3)) .unassigned <| chk (w.extractLsb' 16 3 == 0) .mustBeZero <| chk (w.extractLsb' 22 3 == 0) .mustBeZero <| .ok (.dmom (w.extractLsb' 19 3) (w.extractLsb' 13 3) (w.extractLsb' 8 5) (w.extractLsb' 0 4))
  | 5 => chk (w.extractLsb' 0 4 == 0) .mustBeZero <| chk (w.extractLsb' 16 3 == 0) .mustBeZero <| chk (w.extractLsb' 22 3 == 0) .mustBeZero <| .ok (.dqnt (w.extractLsb' 19 3) (w.extractLsb' 13 3) (w.extractLsb' 8 5))
  | 6 => chk (w.extractLsb' 0 4 == 0) .mustBeZero <| chk (w.extractLsb' 16 3 == 0) .mustBeZero <| chk (w.extractLsb' 22 3 == 0) .mustBeZero <| .ok (.dcdf (w.extractLsb' 19 3) (w.extractLsb' 13 3) (w.extractLsb' 8 5))
  | _ => .error .unassigned

/-- Major 0x38 (R161). -/
def decWork (w : BitVec 32) : Except IllReason Instr :=
  match (w.extractLsb' 0 4).toNat with
  | 0 => chk (w.extractLsb' 4 7 == 0) .mustBeZero <| chk (w.extractLsb' 18 7 == 0) .mustBeZero <| .ok (.spawn (w.extractLsb' 11 7))
  | 1 => chk (w.extractLsb' 4 7 == 0) .mustBeZero <| chk (w.extractLsb' 18 7 == 0) .mustBeZero <| .ok (.suspend (w.extractLsb' 11 7))
  | 2 => chk (w.extractLsb' 4 21 == 0) .mustBeZero <| .ok (.done)
  | 3 => chk (levelOk (w.extractLsb' 4 3) || (w.extractLsb' 7 4 == 0 && w.extractLsb' 18 7 == 0)) .unassigned <| chk (w.extractLsb' 7 4 == 0) .mustBeZero <| chk (w.extractLsb' 18 7 == 0) .mustBeZero <| .ok (.cancel (w.extractLsb' 11 7) (w.extractLsb' 4 3))
  | 4 => chk (levelOk (w.extractLsb' 4 3) || (w.extractLsb' 7 4 == 0)) .unassigned <| chk (w.extractLsb' 7 4 == 0) .mustBeZero <| .ok (.lvlwait (w.extractLsb' 18 7) (w.extractLsb' 11 7) (w.extractLsb' 4 3))
  | 5 => chk (w.extractLsb' 4 21 == 0) .mustBeZero <| .ok (.yield)
  | _ => .error .unassigned

/-- Major 0x39 (R161). -/
def decKeep (w : BitVec 32) : Except IllReason Instr :=
  match (w.extractLsb' 0 3).toNat with
  | 0 => chk (w.extractLsb' 7 4 == 0) .mustBeZero <| .ok (.cstart (w.extractLsb' 18 7) (w.extractLsb' 11 7) (w.extractLsb' 3 4))
  | 1 => chk (w.extractLsb' 7 18 == 0) .mustBeZero <| .ok (.creap (w.extractLsb' 3 4))
  | 2 => chk (w.extractLsb' 7 11 == 0) .mustBeZero <| .ok (.cstat (w.extractLsb' 18 7) (w.extractLsb' 3 4))
  | 3 => chk (w.extractLsb' 7 18 == 0) .mustBeZero <| .ok (.chold (w.extractLsb' 3 4))
  | 4 => chk (w.extractLsb' 7 18 == 0) .mustBeZero <| .ok (.crelease (w.extractLsb' 3 4))
  | _ => .error .unassigned

/-- Major 0x3A (R161). -/
def decCtl (w : BitVec 32) : Except IllReason Instr :=
  match (w.extractLsb' 10 1).toNat with
  | 0 => chk (w.extractLsb' 11 7 == 0) .mustBeZero <| .ok (.ctrd (w.extractLsb' 18 7) (w.extractLsb' 0 10))
  | _ => chk (w.extractLsb' 18 7 == 0) .mustBeZero <| .ok (.ctwr (w.extractLsb' 11 7) (w.extractLsb' 0 10))

/-- Major 0x3B (R161). -/
def decXreg (w : BitVec 32) : Except IllReason Instr :=
  match (w.extractLsb' 0 2).toNat with
  | 0 => chk (w.extractLsb' 8 3 == 0) .mustBeZero <| .ok (.xrd (w.extractLsb' 18 7) (w.extractLsb' 11 7) (RClass.ofBits (w.extractLsb' 6 2)) (w.extractLsb' 2 4))
  | 1 => chk (w.extractLsb' 8 3 == 0) .mustBeZero <| .ok (.xwr (w.extractLsb' 18 7) (w.extractLsb' 11 7) (RClass.ofBits (w.extractLsb' 6 2)) (w.extractLsb' 2 4))
  | 2 => chk (w.extractLsb' 7 1 == 0) .scopeTySz <| chk (w.extractLsb' 8 3 == 0) .mustBeZero <| .ok (.xpres (w.extractLsb' 18 7) (w.extractLsb' 11 7) (RClass.ofBits (w.extractLsb' 6 2)) (w.extractLsb' 2 4))
  | _ => .error .unassigned

/-- Major 0x3C (R161). -/
def decTrp (w : BitVec 32) : Except IllReason Instr :=
  match (w.extractLsb' 0 2).toNat with
  | 0 => chk (w.extractLsb' 11 14 == 0) .mustBeZero <| .ok (.trap (w.extractLsb' 2 9))
  | 1 => chk (w.extractLsb' 2 23 == 0) .mustBeZero <| .ok (.tret)
  | 2 => chk (w.extractLsb' 11 14 == 0) .mustBeZero <| .ok (.brk (w.extractLsb' 2 9))
  | _ => chk (w.extractLsb' 2 23 == 0) .mustBeZero <| .ok (.nop)

/-- A 32-bit word, by its major (R161). -/
def decode32 (w : BitVec 32) : Except IllReason Instr :=
  match (w.extractLsb' 25 6).toNat with
  | 0x00 => decIalu w
  | 0x01 => decImul w
  | 0x02 => decAddi w
  | 0x03 => decAndi w
  | 0x04 => decOri w
  | 0x05 => decXori w
  | 0x06 => decSlti w
  | 0x07 => decShi w
  | 0x08 => decBfx w
  | 0x09 => decBfi w
  | 0x0A => decLimz w
  | 0x0B => decLimh w
  | 0x0C => decAdpc w
  | 0x0D => decFops w
  | 0x0E => decFopd w
  | 0x0F => decFfma w
  | 0x10 => decFcvt w
  | 0x11 => decBcc w
  | 0x12 => decBp w
  | 0x13 => decJmp w
  | 0x14 => decJal w
  | 0x15 => decJalr w
  | 0x16 => decLds w
  | 0x17 => decLdn w
  | 0x18 => decSt w
  | 0x19 => decMemx w
  | 0x1A => decAmoi w
  | 0x1B => decAmof w
  | 0x1C => decRsv w
  | 0x1D => decSync w
  | 0x1E => decBar w
  | 0x1F => decXctx w
  | 0x20 => decVia w
  | 0x21 => decVib w
  | 0x22 => decVf w
  | 0x23 => decVfma w
  | 0x24 => decVcmp w
  | 0x25 => decVsf w
  | 0x26 => decVcvt w
  | 0x27 => decVlane w
  | 0x28 => decVwide w
  | 0x29 => decVxa w
  | 0x2A => decVmem w
  | 0x2B => decVgs w
  | 0x2C => decVmv w
  | 0x2D => decSfc w
  | 0x2E => decOxm w
  | 0x30 => decQue w
  | 0x31 => decFeedop w
  | 0x32 => decPlt w
  | 0x33 => decRep w
  | 0x34 => decDista w
  | 0x35 => decDistb w
  | 0x36 => decDistc w
  | 0x38 => decWork w
  | 0x39 => decKeep w
  | 0x3A => decCtl w
  | 0x3B => decXreg w
  | 0x3C => decTrp w
  | _ => .error .reservedMajor

/-- A compact halfword, by its cop (R159). -/
def decode16 (w : BitVec 16) : Except IllReason Instr :=
  match (w.extractLsb' 10 5).toNat with
  | 1 => .ok (.mvC (w.extractLsb' 5 5) (w.extractLsb' 0 5))
  | 2 => .ok (.liC (w.extractLsb' 5 5) (w.extractLsb' 0 5))
  | 3 => .ok (.addiC (w.extractLsb' 5 5) (w.extractLsb' 0 5))
  | 4 => .ok (.addC (w.extractLsb' 5 5) (w.extractLsb' 0 5))
  | 5 => .ok (.subC (w.extractLsb' 5 5) (w.extractLsb' 0 5))
  | 6 => .ok (.andC (w.extractLsb' 5 5) (w.extractLsb' 0 5))
  | 7 => .ok (.orC (w.extractLsb' 5 5) (w.extractLsb' 0 5))
  | 8 => .ok (.xorC (w.extractLsb' 5 5) (w.extractLsb' 0 5))
  | 9 => .ok (.shliC (w.extractLsb' 5 5) (w.extractLsb' 0 5))
  | 10 => .ok (.shriC (w.extractLsb' 5 5) (w.extractLsb' 0 5))
  | 11 => .ok (.shaiC (w.extractLsb' 5 5) (w.extractLsb' 0 5))
  | 12 => .ok (.ldwLs (w.extractLsb' 5 5) (w.extractLsb' 0 5))
  | 13 => .ok (.stwLs (w.extractLsb' 5 5) (w.extractLsb' 0 5))
  | 14 => .ok (.lddLs (w.extractLsb' 5 5) (w.extractLsb' 0 5))
  | 15 => .ok (.stdLs (w.extractLsb' 5 5) (w.extractLsb' 0 5))
  | 16 => .ok (.beqzC (w.extractLsb' 5 5) (w.extractLsb' 0 5))
  | 17 => .ok (.bnezC (w.extractLsb' 5 5) (w.extractLsb' 0 5))
  | 18 => chk (w.extractLsb' 0 10 == 1) .compactForm <| .ok (.ret)
  | 19 => chk (w.extractLsb' 0 10 == 0) .compactForm <| .ok (.nopC)
  | 20 => chk (w.extractLsb' 2 3 == 0) .compactForm <| .ok (.qpopC (w.extractLsb' 5 5) (w.extractLsb' 0 2))
  | 21 => chk (w.extractLsb' 2 3 == 0) .compactForm <| .ok (.qpushC (w.extractLsb' 5 5) (w.extractLsb' 0 2))
  | _ => .error .compactForm
/-- The words of an encoded instruction. -/
inductive Encoding
  /-- A 32-bit word (R154). -/
  | w32 (w : BitVec 32)
  /-- A compact halfword (R158). -/
  | w16 (h : BitVec 16)
  /-- An event of the table: it has no encoding. -/
  | event
  deriving DecidableEq, Repr

/-- An instruction stream's next instruction: the first halfword says whether a second one follows (R151). -/
def decodeHalves (h0 h1 : Half) : Except IllReason Instr :=
  if h0.getLsbD 15 then decode32 (h0 ++ h1) else decode16 h0

/-- Fields laid side by side, least significant first: each is a width in bits and a value. -/
def pack : List (Nat × Nat) → Nat
  | [] => 0
  | (k, v) :: r => v + 2 ^ k * pack r

/-- The encoding of an instruction, from the same layouts. -/
def encode (i : Instr) : Encoding :=
  match i with
  | .add d a b => .w32 (.ofNat 32 (pack [(4, 0), (7, b.toNat), (7, a.toNat), (7, d.toNat), (7, 64)]))
  | .sub d a b => .w32 (.ofNat 32 (pack [(4, 1), (7, b.toNat), (7, a.toNat), (7, d.toNat), (7, 64)]))
  | .and d a b => .w32 (.ofNat 32 (pack [(4, 2), (7, b.toNat), (7, a.toNat), (7, d.toNat), (7, 64)]))
  | .or d a b => .w32 (.ofNat 32 (pack [(4, 3), (7, b.toNat), (7, a.toNat), (7, d.toNat), (7, 64)]))
  | .xor d a b => .w32 (.ofNat 32 (pack [(4, 4), (7, b.toNat), (7, a.toNat), (7, d.toNat), (7, 64)]))
  | .andn d a b => .w32 (.ofNat 32 (pack [(4, 5), (7, b.toNat), (7, a.toNat), (7, d.toNat), (7, 64)]))
  | .shl d a b => .w32 (.ofNat 32 (pack [(4, 6), (7, b.toNat), (7, a.toNat), (7, d.toNat), (7, 64)]))
  | .shr d a b => .w32 (.ofNat 32 (pack [(4, 7), (7, b.toNat), (7, a.toNat), (7, d.toNat), (7, 64)]))
  | .sha d a b => .w32 (.ofNat 32 (pack [(4, 8), (7, b.toNat), (7, a.toNat), (7, d.toNat), (7, 64)]))
  | .rot d a b => .w32 (.ofNat 32 (pack [(4, 9), (7, b.toNat), (7, a.toNat), (7, d.toNat), (7, 64)]))
  | .min d a b => .w32 (.ofNat 32 (pack [(4, 10), (7, b.toNat), (7, a.toNat), (7, d.toNat), (7, 64)]))
  | .max d a b => .w32 (.ofNat 32 (pack [(4, 11), (7, b.toNat), (7, a.toNat), (7, d.toNat), (7, 64)]))
  | .minn d a b => .w32 (.ofNat 32 (pack [(4, 12), (7, b.toNat), (7, a.toNat), (7, d.toNat), (7, 64)]))
  | .maxn d a b => .w32 (.ofNat 32 (pack [(4, 13), (7, b.toNat), (7, a.toNat), (7, d.toNat), (7, 64)]))
  | .slt d a b => .w32 (.ofNat 32 (pack [(4, 14), (7, b.toNat), (7, a.toNat), (7, d.toNat), (7, 64)]))
  | .sltn d a b => .w32 (.ofNat 32 (pack [(4, 15), (7, b.toNat), (7, a.toNat), (7, d.toNat), (7, 64)]))
  | .mul d a b => .w32 (.ofNat 32 (pack [(4, 0), (7, b.toNat), (7, a.toNat), (7, d.toNat), (7, 65)]))
  | .mulh d a b => .w32 (.ofNat 32 (pack [(4, 1), (7, b.toNat), (7, a.toNat), (7, d.toNat), (7, 65)]))
  | .mulhn d a b => .w32 (.ofNat 32 (pack [(4, 2), (7, b.toNat), (7, a.toNat), (7, d.toNat), (7, 65)]))
  | .div d a b => .w32 (.ofNat 32 (pack [(4, 3), (7, b.toNat), (7, a.toNat), (7, d.toNat), (7, 65)]))
  | .divn d a b => .w32 (.ofNat 32 (pack [(4, 4), (7, b.toNat), (7, a.toNat), (7, d.toNat), (7, 65)]))
  | .rem d a b => .w32 (.ofNat 32 (pack [(4, 5), (7, b.toNat), (7, a.toNat), (7, d.toNat), (7, 65)]))
  | .remn d a b => .w32 (.ofNat 32 (pack [(4, 6), (7, b.toNat), (7, a.toNat), (7, d.toNat), (7, 65)]))
  | .seq d a b => .w32 (.ofNat 32 (pack [(4, 7), (7, b.toNat), (7, a.toNat), (7, d.toNat), (7, 65)]))
  | .clz d a w => .w32 (.ofNat 32 (pack [(4, 8), (2, w.toNat), (5, 0), (7, a.toNat), (7, d.toNat), (7, 65)]))
  | .ffs d a w => .w32 (.ofNat 32 (pack [(4, 9), (2, w.toNat), (5, 0), (7, a.toNat), (7, d.toNat), (7, 65)]))
  | .popc d a w => .w32 (.ofNat 32 (pack [(4, 10), (2, w.toNat), (5, 0), (7, a.toNat), (7, d.toNat), (7, 65)]))
  | .sext d a w => .w32 (.ofNat 32 (pack [(4, 11), (2, w.toNat), (5, 0), (7, a.toNat), (7, d.toNat), (7, 65)]))
  | .zext d a w => .w32 (.ofNat 32 (pack [(4, 12), (2, w.toNat), (5, 0), (7, a.toNat), (7, d.toNat), (7, 65)]))
  | .brev d a => .w32 (.ofNat 32 (pack [(4, 13), (7, 0), (7, a.toNat), (7, d.toNat), (7, 65)]))
  | .bswap d a => .w32 (.ofNat 32 (pack [(4, 14), (7, 0), (7, a.toNat), (7, d.toNat), (7, 65)]))
  | .addi d a i => .w32 (.ofNat 32 (pack [(11, i.toNat), (7, a.toNat), (7, d.toNat), (7, 66)]))
  | .andi d a i => .w32 (.ofNat 32 (pack [(11, i.toNat), (7, a.toNat), (7, d.toNat), (7, 67)]))
  | .ori d a i => .w32 (.ofNat 32 (pack [(11, i.toNat), (7, a.toNat), (7, d.toNat), (7, 68)]))
  | .xori d a i => .w32 (.ofNat 32 (pack [(11, i.toNat), (7, a.toNat), (7, d.toNat), (7, 69)]))
  | .slti d a i => .w32 (.ofNat 32 (pack [(11, i.toNat), (7, a.toNat), (7, d.toNat), (7, 70)]))
  | .shli d a n => .w32 (.ofNat 32 (pack [(6, n.toNat), (2, 0), (3, 0), (7, a.toNat), (7, d.toNat), (7, 71)]))
  | .shri d a n => .w32 (.ofNat 32 (pack [(6, n.toNat), (2, 1), (3, 0), (7, a.toNat), (7, d.toNat), (7, 71)]))
  | .shai d a n => .w32 (.ofNat 32 (pack [(6, n.toNat), (2, 2), (3, 0), (7, a.toNat), (7, d.toNat), (7, 71)]))
  | .roti d a n => .w32 (.ofNat 32 (pack [(6, n.toNat), (2, 3), (3, 0), (7, a.toNat), (7, d.toNat), (7, 71)]))
  | .bfx d a l p => .w32 (.ofNat 32 (pack [(6, p.toNat), (5, l.toNat), (7, a.toNat), (7, d.toNat), (7, 72)]))
  | .bfi d a l p => .w32 (.ofNat 32 (pack [(6, p.toNat), (5, l.toNat), (7, a.toNat), (7, d.toNat), (7, 73)]))
  | .limz d s i => .w32 (.ofNat 32 (pack [(16, i.toNat), (2, s.toNat), (7, d.toNat), (7, 74)]))
  | .limh d s i => .w32 (.ofNat 32 (pack [(16, i.toNat), (2, s.toNat), (7, d.toNat), (7, 75)]))
  | .adpc d i => .w32 (.ofNat 32 (pack [(18, i.toNat), (7, d.toNat), (7, 76)]))
  | .faddS d a b => .w32 (.ofNat 32 (pack [(4, 0), (7, b.toNat), (7, a.toNat), (7, d.toNat), (7, 77)]))
  | .fsubS d a b => .w32 (.ofNat 32 (pack [(4, 1), (7, b.toNat), (7, a.toNat), (7, d.toNat), (7, 77)]))
  | .fmulS d a b => .w32 (.ofNat 32 (pack [(4, 2), (7, b.toNat), (7, a.toNat), (7, d.toNat), (7, 77)]))
  | .fdivS d a b => .w32 (.ofNat 32 (pack [(4, 3), (7, b.toNat), (7, a.toNat), (7, d.toNat), (7, 77)]))
  | .fminS d a b => .w32 (.ofNat 32 (pack [(4, 4), (7, b.toNat), (7, a.toNat), (7, d.toNat), (7, 77)]))
  | .fmaxS d a b => .w32 (.ofNat 32 (pack [(4, 5), (7, b.toNat), (7, a.toNat), (7, d.toNat), (7, 77)]))
  | .fsqrtS d a => .w32 (.ofNat 32 (pack [(4, 6), (7, 0), (7, a.toNat), (7, d.toNat), (7, 77)]))
  | .fclassS d a => .w32 (.ofNat 32 (pack [(4, 7), (7, 0), (7, a.toNat), (7, d.toNat), (7, 77)]))
  | .feqS d a b => .w32 (.ofNat 32 (pack [(4, 8), (7, b.toNat), (7, a.toNat), (7, d.toNat), (7, 77)]))
  | .fltS d a b => .w32 (.ofNat 32 (pack [(4, 9), (7, b.toNat), (7, a.toNat), (7, d.toNat), (7, 77)]))
  | .fleS d a b => .w32 (.ofNat 32 (pack [(4, 10), (7, b.toNat), (7, a.toNat), (7, d.toNat), (7, 77)]))
  | .funS d a b => .w32 (.ofNat 32 (pack [(4, 11), (7, b.toNat), (7, a.toNat), (7, d.toNat), (7, 77)]))
  | .fsgnjS d a b => .w32 (.ofNat 32 (pack [(4, 12), (7, b.toNat), (7, a.toNat), (7, d.toNat), (7, 77)]))
  | .fsgnjnS d a b => .w32 (.ofNat 32 (pack [(4, 13), (7, b.toNat), (7, a.toNat), (7, d.toNat), (7, 77)]))
  | .faddD d a b => .w32 (.ofNat 32 (pack [(4, 0), (7, b.toNat), (7, a.toNat), (7, d.toNat), (7, 78)]))
  | .fsubD d a b => .w32 (.ofNat 32 (pack [(4, 1), (7, b.toNat), (7, a.toNat), (7, d.toNat), (7, 78)]))
  | .fmulD d a b => .w32 (.ofNat 32 (pack [(4, 2), (7, b.toNat), (7, a.toNat), (7, d.toNat), (7, 78)]))
  | .fdivD d a b => .w32 (.ofNat 32 (pack [(4, 3), (7, b.toNat), (7, a.toNat), (7, d.toNat), (7, 78)]))
  | .fminD d a b => .w32 (.ofNat 32 (pack [(4, 4), (7, b.toNat), (7, a.toNat), (7, d.toNat), (7, 78)]))
  | .fmaxD d a b => .w32 (.ofNat 32 (pack [(4, 5), (7, b.toNat), (7, a.toNat), (7, d.toNat), (7, 78)]))
  | .fsqrtD d a => .w32 (.ofNat 32 (pack [(4, 6), (7, 0), (7, a.toNat), (7, d.toNat), (7, 78)]))
  | .fclassD d a => .w32 (.ofNat 32 (pack [(4, 7), (7, 0), (7, a.toNat), (7, d.toNat), (7, 78)]))
  | .feqD d a b => .w32 (.ofNat 32 (pack [(4, 8), (7, b.toNat), (7, a.toNat), (7, d.toNat), (7, 78)]))
  | .fltD d a b => .w32 (.ofNat 32 (pack [(4, 9), (7, b.toNat), (7, a.toNat), (7, d.toNat), (7, 78)]))
  | .fleD d a b => .w32 (.ofNat 32 (pack [(4, 10), (7, b.toNat), (7, a.toNat), (7, d.toNat), (7, 78)]))
  | .funD d a b => .w32 (.ofNat 32 (pack [(4, 11), (7, b.toNat), (7, a.toNat), (7, d.toNat), (7, 78)]))
  | .fsgnjD d a b => .w32 (.ofNat 32 (pack [(4, 12), (7, b.toNat), (7, a.toNat), (7, d.toNat), (7, 78)]))
  | .fsgnjnD d a b => .w32 (.ofNat 32 (pack [(4, 13), (7, b.toNat), (7, a.toNat), (7, d.toNat), (7, 78)]))
  | .ffmaS d a b => .w32 (.ofNat 32 (pack [(4, 0), (7, b.toNat), (7, a.toNat), (7, d.toNat), (7, 79)]))
  | .ffmsS d a b => .w32 (.ofNat 32 (pack [(4, 1), (7, b.toNat), (7, a.toNat), (7, d.toNat), (7, 79)]))
  | .fnmaS d a b => .w32 (.ofNat 32 (pack [(4, 2), (7, b.toNat), (7, a.toNat), (7, d.toNat), (7, 79)]))
  | .ffmaD d a b => .w32 (.ofNat 32 (pack [(4, 3), (7, b.toNat), (7, a.toNat), (7, d.toNat), (7, 79)]))
  | .ffmsD d a b => .w32 (.ofNat 32 (pack [(4, 4), (7, b.toNat), (7, a.toNat), (7, d.toNat), (7, 79)]))
  | .fnmaD d a b => .w32 (.ofNat 32 (pack [(4, 5), (7, b.toNat), (7, a.toNat), (7, d.toNat), (7, 79)]))
  | .fcvtS2d d a => .w32 (.ofNat 32 (pack [(4, 0), (7, 0), (7, a.toNat), (7, d.toNat), (7, 80)]))
  | .fcvtD2s d a => .w32 (.ofNat 32 (pack [(4, 1), (7, 0), (7, a.toNat), (7, d.toNat), (7, 80)]))
  | .fcvtS2b d a => .w32 (.ofNat 32 (pack [(4, 2), (7, 0), (7, a.toNat), (7, d.toNat), (7, 80)]))
  | .fcvtB2s d a => .w32 (.ofNat 32 (pack [(4, 3), (7, 0), (7, a.toNat), (7, d.toNat), (7, 80)]))
  | .fcvtI2s d a => .w32 (.ofNat 32 (pack [(4, 4), (7, 0), (7, a.toNat), (7, d.toNat), (7, 80)]))
  | .fcvtN2s d a => .w32 (.ofNat 32 (pack [(4, 5), (7, 0), (7, a.toNat), (7, d.toNat), (7, 80)]))
  | .fcvtI2d d a => .w32 (.ofNat 32 (pack [(4, 6), (7, 0), (7, a.toNat), (7, d.toNat), (7, 80)]))
  | .fcvtN2d d a => .w32 (.ofNat 32 (pack [(4, 7), (7, 0), (7, a.toNat), (7, d.toNat), (7, 80)]))
  | .fcvtS2i d a => .w32 (.ofNat 32 (pack [(4, 8), (7, 0), (7, a.toNat), (7, d.toNat), (7, 80)]))
  | .fcvtS2n d a => .w32 (.ofNat 32 (pack [(4, 9), (7, 0), (7, a.toNat), (7, d.toNat), (7, 80)]))
  | .fcvtD2i d a => .w32 (.ofNat 32 (pack [(4, 10), (7, 0), (7, a.toNat), (7, d.toNat), (7, 80)]))
  | .fcvtD2n d a => .w32 (.ofNat 32 (pack [(4, 11), (7, 0), (7, a.toNat), (7, d.toNat), (7, 80)]))
  | .beqz a o => .w32 (.ofNat 32 (pack [(14, o.toNat), (7, a.toNat), (4, 0), (7, 81)]))
  | .bnez a o => .w32 (.ofNat 32 (pack [(14, o.toNat), (7, a.toNat), (4, 1), (7, 81)]))
  | .bltz a o => .w32 (.ofNat 32 (pack [(14, o.toNat), (7, a.toNat), (4, 2), (7, 81)]))
  | .bgez a o => .w32 (.ofNat 32 (pack [(14, o.toNat), (7, a.toNat), (4, 3), (7, 81)]))
  | .bgtz a o => .w32 (.ofNat 32 (pack [(14, o.toNat), (7, a.toNat), (4, 4), (7, 81)]))
  | .blez a o => .w32 (.ofNat 32 (pack [(14, o.toNat), (7, a.toNat), (4, 5), (7, 81)]))
  | .bpres a o => .w32 (.ofNat 32 (pack [(14, o.toNat), (7, a.toNat), (4, 0), (7, 82)]))
  | .babs a o => .w32 (.ofNat 32 (pack [(14, o.toNat), (7, a.toNat), (4, 1), (7, 82)]))
  | .bmany k o => .w32 (.ofNat 32 (pack [(14, o.toNat), (3, k.toNat), (4, 0), (4, 2), (7, 82)]))
  | .ball k o => .w32 (.ofNat 32 (pack [(14, o.toNat), (3, k.toNat), (4, 0), (4, 3), (7, 82)]))
  | .bnone k o => .w32 (.ofNat 32 (pack [(14, o.toNat), (3, k.toNat), (4, 0), (4, 4), (7, 82)]))
  | .jmp o => .w32 (.ofNat 32 (pack [(25, o.toNat), (7, 83)]))
  | .jal o => .w32 (.ofNat 32 (pack [(25, o.toNat), (7, 84)]))
  | .jalr d a i => .w32 (.ofNat 32 (pack [(11, i.toNat), (7, a.toNat), (7, d.toNat), (7, 85)]))
  | .lds t a z m o => .w32 (.ofNat 32 (pack [(7, o.toNat), (2, (m.bits).toNat), (2, (z.bits).toNat), (7, a.toNat), (7, t.toNat), (7, 86)]))
  | .ldn t a z m o => .w32 (.ofNat 32 (pack [(7, o.toNat), (2, (m.bits).toNat), (2, (z.bits).toNat), (7, a.toNat), (7, t.toNat), (7, 87)]))
  | .st t a z m o => .w32 (.ofNat 32 (pack [(7, o.toNat), (2, (m.bits).toNat), (2, (z.bits).toNat), (7, a.toNat), (7, t.toNat), (7, 88)]))
  | .ldxsB d a b => .w32 (.ofNat 32 (pack [(4, 0), (7, b.toNat), (7, a.toNat), (7, d.toNat), (7, 89)]))
  | .ldxsH d a b => .w32 (.ofNat 32 (pack [(4, 1), (7, b.toNat), (7, a.toNat), (7, d.toNat), (7, 89)]))
  | .ldxsW d a b => .w32 (.ofNat 32 (pack [(4, 2), (7, b.toNat), (7, a.toNat), (7, d.toNat), (7, 89)]))
  | .ldxsD d a b => .w32 (.ofNat 32 (pack [(4, 3), (7, b.toNat), (7, a.toNat), (7, d.toNat), (7, 89)]))
  | .ldxnB d a b => .w32 (.ofNat 32 (pack [(4, 4), (7, b.toNat), (7, a.toNat), (7, d.toNat), (7, 89)]))
  | .ldxnH d a b => .w32 (.ofNat 32 (pack [(4, 5), (7, b.toNat), (7, a.toNat), (7, d.toNat), (7, 89)]))
  | .ldxnW d a b => .w32 (.ofNat 32 (pack [(4, 6), (7, b.toNat), (7, a.toNat), (7, d.toNat), (7, 89)]))
  | .stxB d a b => .w32 (.ofNat 32 (pack [(4, 7), (7, b.toNat), (7, a.toNat), (7, d.toNat), (7, 89)]))
  | .stxH d a b => .w32 (.ofNat 32 (pack [(4, 8), (7, b.toNat), (7, a.toNat), (7, d.toNat), (7, 89)]))
  | .stxW d a b => .w32 (.ofNat 32 (pack [(4, 9), (7, b.toNat), (7, a.toNat), (7, d.toNat), (7, 89)]))
  | .stxD d a b => .w32 (.ofNat 32 (pack [(4, 10), (7, b.toNat), (7, a.toNat), (7, d.toNat), (7, 89)]))
  | .pref a b => .w32 (.ofNat 32 (pack [(4, 11), (7, b.toNat), (7, a.toNat), (7, 0), (7, 89)]))
  | .amoadd d a b s => .w32 (.ofNat 32 (pack [(3, 0), (3, (s.bits).toNat), (5, b.toNat), (7, a.toNat), (7, d.toNat), (7, 90)]))
  | .amoand d a b s => .w32 (.ofNat 32 (pack [(3, 1), (3, (s.bits).toNat), (5, b.toNat), (7, a.toNat), (7, d.toNat), (7, 90)]))
  | .amoor d a b s => .w32 (.ofNat 32 (pack [(3, 2), (3, (s.bits).toNat), (5, b.toNat), (7, a.toNat), (7, d.toNat), (7, 90)]))
  | .amoxor d a b s => .w32 (.ofNat 32 (pack [(3, 3), (3, (s.bits).toNat), (5, b.toNat), (7, a.toNat), (7, d.toNat), (7, 90)]))
  | .amomin d a b s => .w32 (.ofNat 32 (pack [(3, 4), (3, (s.bits).toNat), (5, b.toNat), (7, a.toNat), (7, d.toNat), (7, 90)]))
  | .amomax d a b s => .w32 (.ofNat 32 (pack [(3, 5), (3, (s.bits).toNat), (5, b.toNat), (7, a.toNat), (7, d.toNat), (7, 90)]))
  | .amominn d a b s => .w32 (.ofNat 32 (pack [(3, 6), (3, (s.bits).toNat), (5, b.toNat), (7, a.toNat), (7, d.toNat), (7, 90)]))
  | .amomaxn d a b s => .w32 (.ofNat 32 (pack [(3, 7), (3, (s.bits).toNat), (5, b.toNat), (7, a.toNat), (7, d.toNat), (7, 90)]))
  | .amofaddS d a b s => .w32 (.ofNat 32 (pack [(3, 0), (3, (s.bits).toNat), (5, b.toNat), (7, a.toNat), (7, d.toNat), (7, 91)]))
  | .amofminS d a b s => .w32 (.ofNat 32 (pack [(3, 1), (3, (s.bits).toNat), (5, b.toNat), (7, a.toNat), (7, d.toNat), (7, 91)]))
  | .amofmaxS d a b s => .w32 (.ofNat 32 (pack [(3, 2), (3, (s.bits).toNat), (5, b.toNat), (7, a.toNat), (7, d.toNat), (7, 91)]))
  | .amofaddD d a b s => .w32 (.ofNat 32 (pack [(3, 3), (3, (s.bits).toNat), (5, b.toNat), (7, a.toNat), (7, d.toNat), (7, 91)]))
  | .amofminD d a b s => .w32 (.ofNat 32 (pack [(3, 4), (3, (s.bits).toNat), (5, b.toNat), (7, a.toNat), (7, d.toNat), (7, 91)]))
  | .amofmaxD d a b s => .w32 (.ofNat 32 (pack [(3, 5), (3, (s.bits).toNat), (5, b.toNat), (7, a.toNat), (7, d.toNat), (7, 91)]))
  | .amoswap d a b s => .w32 (.ofNat 32 (pack [(3, 6), (3, (s.bits).toNat), (5, b.toNat), (7, a.toNat), (7, d.toNat), (7, 91)]))
  | .amocas d a b s => .w32 (.ofNat 32 (pack [(3, 7), (3, (s.bits).toNat), (5, b.toNat), (7, a.toNat), (7, d.toNat), (7, 91)]))
  | .lrw d a s => .w32 (.ofNat 32 (pack [(3, 0), (3, (s.bits).toNat), (5, 0), (7, a.toNat), (7, d.toNat), (7, 92)]))
  | .sch a b s => .w32 (.ofNat 32 (pack [(3, 1), (3, (s.bits).toNat), (5, b.toNat), (7, a.toNat), (7, 0), (7, 92)]))
  | .rsvrel a s => .w32 (.ofNat 32 (pack [(3, 2), (3, (s.bits).toNat), (5, 0), (7, a.toNat), (7, 0), (7, 92)]))
  | .fence s => .w32 (.ofNat 32 (pack [(3, 0), (3, (s.bits).toNat), (19, 0), (7, 93)]))
  | .lda d a s => .w32 (.ofNat 32 (pack [(3, 1), (3, (s.bits).toNat), (5, 0), (7, a.toNat), (7, d.toNat), (7, 93)]))
  | .stl a b s => .w32 (.ofNat 32 (pack [(3, 2), (3, (s.bits).toNat), (5, b.toNat), (7, a.toNat), (7, 0), (7, 93)]))
  | .publish d a s => .w32 (.ofNat 32 (pack [(3, 3), (1, (s.bits).toNat), (2, 2), (5, 0), (7, a.toNat), (7, d.toNat), (7, 93)]))
  | .shadow d a b => .w32 (.ofNat 32 (pack [(3, 4), (3, 0), (5, b.toNat), (7, a.toNat), (7, d.toNat), (7, 93)]))
  | .binit d a b s => .w32 (.ofNat 32 (pack [(3, 0), (3, (s.bits).toNat), (5, b.toNat), (7, a.toNat), (7, d.toNat), (7, 94)]))
  | .barrive d a s => .w32 (.ofNat 32 (pack [(3, 1), (3, (s.bits).toNat), (5, 0), (7, a.toNat), (7, d.toNat), (7, 94)]))
  | .bwait d a b s => .w32 (.ofNat 32 (pack [(3, 2), (3, (s.bits).toNat), (5, b.toNat), (7, a.toNat), (7, d.toNat), (7, 94)]))
  | .bstat d a k => .w32 (.ofNat 32 (pack [(3, 3), (3, 0), (5, k.toNat), (7, a.toNat), (7, d.toNat), (7, 94)]))
  | .nput e a b => .w32 (.ofNat 32 (pack [(4, 0), (7, b.toNat), (7, a.toNat), (2, e.toNat), (5, 0), (7, 95)]))
  | .parm t => .w32 (.ofNat 32 (pack [(4, 1), (14, 0), (7, t.toNat), (7, 95)]))
  | .waitv t a b => .w32 (.ofNat 32 (pack [(4, 2), (7, b.toNat), (7, a.toNat), (7, t.toNat), (7, 95)]))
  | .wakev t a b => .w32 (.ofNat 32 (pack [(4, 3), (7, b.toNat), (7, a.toNat), (7, t.toNat), (7, 95)]))
  | .migrate a => .w32 (.ofNat 32 (pack [(4, 4), (7, 0), (7, a.toNat), (7, 0), (7, 95)]))
  | .redAdd a b => .w32 (.ofNat 32 (pack [(4, 5), (7, b.toNat), (7, a.toNat), (3, 0), (4, 0), (7, 95)]))
  | .redAnd a b => .w32 (.ofNat 32 (pack [(4, 5), (7, b.toNat), (7, a.toNat), (3, 1), (4, 0), (7, 95)]))
  | .redOr a b => .w32 (.ofNat 32 (pack [(4, 5), (7, b.toNat), (7, a.toNat), (3, 2), (4, 0), (7, 95)]))
  | .redXor a b => .w32 (.ofNat 32 (pack [(4, 5), (7, b.toNat), (7, a.toNat), (3, 3), (4, 0), (7, 95)]))
  | .redMin a b => .w32 (.ofNat 32 (pack [(4, 5), (7, b.toNat), (7, a.toNat), (3, 4), (4, 0), (7, 95)]))
  | .redMax a b => .w32 (.ofNat 32 (pack [(4, 5), (7, b.toNat), (7, a.toNat), (3, 5), (4, 0), (7, 95)]))
  | .redFaddS a b => .w32 (.ofNat 32 (pack [(4, 5), (7, b.toNat), (7, a.toNat), (3, 6), (4, 0), (7, 95)]))
  | .redFaddD a b => .w32 (.ofNat 32 (pack [(4, 5), (7, b.toNat), (7, a.toNat), (3, 7), (4, 0), (7, 95)]))
  | .vadd d a b m t => .w32 (.ofNat 32 (pack [(5, 0), (2, (t.bits).toNat), (3, m.toNat), (5, b.toNat), (5, a.toNat), (5, d.toNat), (7, 96)]))
  | .vsub d a b m t => .w32 (.ofNat 32 (pack [(5, 1), (2, (t.bits).toNat), (3, m.toNat), (5, b.toNat), (5, a.toNat), (5, d.toNat), (7, 96)]))
  | .vmul d a b m t => .w32 (.ofNat 32 (pack [(5, 2), (2, (t.bits).toNat), (3, m.toNat), (5, b.toNat), (5, a.toNat), (5, d.toNat), (7, 96)]))
  | .vmulh d a b m t => .w32 (.ofNat 32 (pack [(5, 3), (2, (t.bits).toNat), (3, m.toNat), (5, b.toNat), (5, a.toNat), (5, d.toNat), (7, 96)]))
  | .vmin d a b m t => .w32 (.ofNat 32 (pack [(5, 4), (2, (t.bits).toNat), (3, m.toNat), (5, b.toNat), (5, a.toNat), (5, d.toNat), (7, 96)]))
  | .vmax d a b m t => .w32 (.ofNat 32 (pack [(5, 5), (2, (t.bits).toNat), (3, m.toNat), (5, b.toNat), (5, a.toNat), (5, d.toNat), (7, 96)]))
  | .vminn d a b m t => .w32 (.ofNat 32 (pack [(5, 6), (2, (t.bits).toNat), (3, m.toNat), (5, b.toNat), (5, a.toNat), (5, d.toNat), (7, 96)]))
  | .vmaxn d a b m t => .w32 (.ofNat 32 (pack [(5, 7), (2, (t.bits).toNat), (3, m.toNat), (5, b.toNat), (5, a.toNat), (5, d.toNat), (7, 96)]))
  | .vand d a b m t => .w32 (.ofNat 32 (pack [(5, 8), (2, (t.bits).toNat), (3, m.toNat), (5, b.toNat), (5, a.toNat), (5, d.toNat), (7, 96)]))
  | .vor d a b m t => .w32 (.ofNat 32 (pack [(5, 9), (2, (t.bits).toNat), (3, m.toNat), (5, b.toNat), (5, a.toNat), (5, d.toNat), (7, 96)]))
  | .vxor d a b m t => .w32 (.ofNat 32 (pack [(5, 10), (2, (t.bits).toNat), (3, m.toNat), (5, b.toNat), (5, a.toNat), (5, d.toNat), (7, 96)]))
  | .vandn d a b m t => .w32 (.ofNat 32 (pack [(5, 11), (2, (t.bits).toNat), (3, m.toNat), (5, b.toNat), (5, a.toNat), (5, d.toNat), (7, 96)]))
  | .vshl d a b m t => .w32 (.ofNat 32 (pack [(5, 12), (2, (t.bits).toNat), (3, m.toNat), (5, b.toNat), (5, a.toNat), (5, d.toNat), (7, 96)]))
  | .vshr d a b m t => .w32 (.ofNat 32 (pack [(5, 13), (2, (t.bits).toNat), (3, m.toNat), (5, b.toNat), (5, a.toNat), (5, d.toNat), (7, 96)]))
  | .vsha d a b m t => .w32 (.ofNat 32 (pack [(5, 14), (2, (t.bits).toNat), (3, m.toNat), (5, b.toNat), (5, a.toNat), (5, d.toNat), (7, 96)]))
  | .vabs d a m t => .w32 (.ofNat 32 (pack [(5, 15), (2, (t.bits).toNat), (3, m.toNat), (5, 0), (5, a.toNat), (5, d.toNat), (7, 96)]))
  | .vneg d a m t => .w32 (.ofNat 32 (pack [(5, 16), (2, (t.bits).toNat), (3, m.toNat), (5, 0), (5, a.toNat), (5, d.toNat), (7, 96)]))
  | .vclz d a m t => .w32 (.ofNat 32 (pack [(5, 0), (2, (t.bits).toNat), (3, m.toNat), (5, 0), (5, a.toNat), (5, d.toNat), (7, 97)]))
  | .vffs d a m t => .w32 (.ofNat 32 (pack [(5, 1), (2, (t.bits).toNat), (3, m.toNat), (5, 0), (5, a.toNat), (5, d.toNat), (7, 97)]))
  | .vpopc d a m t => .w32 (.ofNat 32 (pack [(5, 2), (2, (t.bits).toNat), (3, m.toNat), (5, 0), (5, a.toNat), (5, d.toNat), (7, 97)]))
  | .vfadd d a b m t => .w32 (.ofNat 32 (pack [(5, 0), (2, (t.bits).toNat), (3, m.toNat), (5, b.toNat), (5, a.toNat), (5, d.toNat), (7, 98)]))
  | .vfsub d a b m t => .w32 (.ofNat 32 (pack [(5, 1), (2, (t.bits).toNat), (3, m.toNat), (5, b.toNat), (5, a.toNat), (5, d.toNat), (7, 98)]))
  | .vfmul d a b m t => .w32 (.ofNat 32 (pack [(5, 2), (2, (t.bits).toNat), (3, m.toNat), (5, b.toNat), (5, a.toNat), (5, d.toNat), (7, 98)]))
  | .vfdiv d a b m t => .w32 (.ofNat 32 (pack [(5, 3), (2, (t.bits).toNat), (3, m.toNat), (5, b.toNat), (5, a.toNat), (5, d.toNat), (7, 98)]))
  | .vfmin d a b m t => .w32 (.ofNat 32 (pack [(5, 4), (2, (t.bits).toNat), (3, m.toNat), (5, b.toNat), (5, a.toNat), (5, d.toNat), (7, 98)]))
  | .vfmax d a b m t => .w32 (.ofNat 32 (pack [(5, 5), (2, (t.bits).toNat), (3, m.toNat), (5, b.toNat), (5, a.toNat), (5, d.toNat), (7, 98)]))
  | .vfabs d a m t => .w32 (.ofNat 32 (pack [(5, 6), (2, (t.bits).toNat), (3, m.toNat), (5, 0), (5, a.toNat), (5, d.toNat), (7, 98)]))
  | .vfneg d a m t => .w32 (.ofNat 32 (pack [(5, 7), (2, (t.bits).toNat), (3, m.toNat), (5, 0), (5, a.toNat), (5, d.toNat), (7, 98)]))
  | .vfsqrt d a m t => .w32 (.ofNat 32 (pack [(5, 8), (2, (t.bits).toNat), (3, m.toNat), (5, 0), (5, a.toNat), (5, d.toNat), (7, 98)]))
  | .vfma d a b m t => .w32 (.ofNat 32 (pack [(5, 0), (2, (t.bits).toNat), (3, m.toNat), (5, b.toNat), (5, a.toNat), (5, d.toNat), (7, 99)]))
  | .vfms d a b m t => .w32 (.ofNat 32 (pack [(5, 1), (2, (t.bits).toNat), (3, m.toNat), (5, b.toNat), (5, a.toNat), (5, d.toNat), (7, 99)]))
  | .vfnma d a b m t => .w32 (.ofNat 32 (pack [(5, 2), (2, (t.bits).toNat), (3, m.toNat), (5, b.toNat), (5, a.toNat), (5, d.toNat), (7, 99)]))
  | .veq k a b m t => .w32 (.ofNat 32 (pack [(5, 0), (2, (t.bits).toNat), (3, m.toNat), (5, b.toNat), (5, a.toNat), (3, k.toNat), (2, 0), (7, 100)]))
  | .vne k a b m t => .w32 (.ofNat 32 (pack [(5, 1), (2, (t.bits).toNat), (3, m.toNat), (5, b.toNat), (5, a.toNat), (3, k.toNat), (2, 0), (7, 100)]))
  | .vlt k a b m t => .w32 (.ofNat 32 (pack [(5, 2), (2, (t.bits).toNat), (3, m.toNat), (5, b.toNat), (5, a.toNat), (3, k.toNat), (2, 0), (7, 100)]))
  | .vle k a b m t => .w32 (.ofNat 32 (pack [(5, 3), (2, (t.bits).toNat), (3, m.toNat), (5, b.toNat), (5, a.toNat), (3, k.toNat), (2, 0), (7, 100)]))
  | .vltn k a b m t => .w32 (.ofNat 32 (pack [(5, 4), (2, (t.bits).toNat), (3, m.toNat), (5, b.toNat), (5, a.toNat), (3, k.toNat), (2, 0), (7, 100)]))
  | .vlen k a b m t => .w32 (.ofNat 32 (pack [(5, 5), (2, (t.bits).toNat), (3, m.toNat), (5, b.toNat), (5, a.toNat), (3, k.toNat), (2, 0), (7, 100)]))
  | .vfeq k a b m t => .w32 (.ofNat 32 (pack [(5, 6), (2, (t.bits).toNat), (3, m.toNat), (5, b.toNat), (5, a.toNat), (3, k.toNat), (2, 0), (7, 100)]))
  | .vflt k a b m t => .w32 (.ofNat 32 (pack [(5, 7), (2, (t.bits).toNat), (3, m.toNat), (5, b.toNat), (5, a.toNat), (3, k.toNat), (2, 0), (7, 100)]))
  | .vfle k a b m t => .w32 (.ofNat 32 (pack [(5, 8), (2, (t.bits).toNat), (3, m.toNat), (5, b.toNat), (5, a.toNat), (3, k.toNat), (2, 0), (7, 100)]))
  | .vfun k a b m t => .w32 (.ofNat 32 (pack [(5, 9), (2, (t.bits).toNat), (3, m.toNat), (5, b.toNat), (5, a.toNat), (3, k.toNat), (2, 0), (7, 100)]))
  | .vrcp d a m => .w32 (.ofNat 32 (pack [(5, 0), (2, 0), (3, m.toNat), (5, 0), (5, a.toNat), (5, d.toNat), (7, 101)]))
  | .vrsq d a m => .w32 (.ofNat 32 (pack [(5, 1), (2, 0), (3, m.toNat), (5, 0), (5, a.toNat), (5, d.toNat), (7, 101)]))
  | .vexp2 d a m => .w32 (.ofNat 32 (pack [(5, 2), (2, 0), (3, m.toNat), (5, 0), (5, a.toNat), (5, d.toNat), (7, 101)]))
  | .vlog2 d a m => .w32 (.ofNat 32 (pack [(5, 3), (2, 0), (3, m.toNat), (5, 0), (5, a.toNat), (5, d.toNat), (7, 101)]))
  | .vsin d a m => .w32 (.ofNat 32 (pack [(5, 4), (2, 0), (3, m.toNat), (5, 0), (5, a.toNat), (5, d.toNat), (7, 101)]))
  | .vcos d a m => .w32 (.ofNat 32 (pack [(5, 5), (2, 0), (3, m.toNat), (5, 0), (5, a.toNat), (5, d.toNat), (7, 101)]))
  | .vtanh d a m => .w32 (.ofNat 32 (pack [(5, 6), (2, 0), (3, m.toNat), (5, 0), (5, a.toNat), (5, d.toNat), (7, 101)]))
  | .vcvtS2d d a m => .w32 (.ofNat 32 (pack [(5, 0), (2, 0), (3, m.toNat), (5, 0), (5, a.toNat), (5, d.toNat), (7, 102)]))
  | .vcvtD2s d a m => .w32 (.ofNat 32 (pack [(5, 1), (2, 0), (3, m.toNat), (5, 0), (5, a.toNat), (5, d.toNat), (7, 102)]))
  | .vcvtS2b d a m => .w32 (.ofNat 32 (pack [(5, 2), (2, 0), (3, m.toNat), (5, 0), (5, a.toNat), (5, d.toNat), (7, 102)]))
  | .vcvtB2s d a m => .w32 (.ofNat 32 (pack [(5, 3), (2, 0), (3, m.toNat), (5, 0), (5, a.toNat), (5, d.toNat), (7, 102)]))
  | .vcvtI2s d a m => .w32 (.ofNat 32 (pack [(5, 4), (2, 0), (3, m.toNat), (5, 0), (5, a.toNat), (5, d.toNat), (7, 102)]))
  | .vcvtN2s d a m => .w32 (.ofNat 32 (pack [(5, 5), (2, 0), (3, m.toNat), (5, 0), (5, a.toNat), (5, d.toNat), (7, 102)]))
  | .vcvtS2i d a m => .w32 (.ofNat 32 (pack [(5, 6), (2, 0), (3, m.toNat), (5, 0), (5, a.toNat), (5, d.toNat), (7, 102)]))
  | .vcvtS2n d a m => .w32 (.ofNat 32 (pack [(5, 7), (2, 0), (3, m.toNat), (5, 0), (5, a.toNat), (5, d.toNat), (7, 102)]))
  | .vcvtM8d d a q m => .w32 (.ofNat 32 (pack [(5, 8), (2, 0), (3, m.toNat), (2, q.toNat), (3, 0), (5, a.toNat), (5, d.toNat), (7, 102)]))
  | .vcvtM8e d a q m => .w32 (.ofNat 32 (pack [(5, 9), (2, 0), (3, m.toNat), (2, q.toNat), (3, 0), (5, a.toNat), (5, d.toNat), (7, 102)]))
  | .vsel d a b m t => .w32 (.ofNat 32 (pack [(5, 0), (2, (t.bits).toNat), (3, m.toNat), (5, b.toNat), (5, a.toNat), (5, d.toNat), (7, 103)]))
  | .vperm d a b m => .w32 (.ofNat 32 (pack [(5, 1), (2, 0), (3, m.toNat), (5, b.toNat), (5, a.toNat), (5, d.toNat), (7, 103)]))
  | .vrotl d a k m => .w32 (.ofNat 32 (pack [(5, 2), (2, 0), (3, m.toNat), (4, k.toNat), (1, 0), (5, a.toNat), (5, d.toNat), (7, 103)]))
  | .vredadd d a m t => .w32 (.ofNat 32 (pack [(5, 3), (2, (t.bits).toNat), (3, m.toNat), (5, 0), (5, a.toNat), (5, d.toNat), (7, 103)]))
  | .vredmin d a m t => .w32 (.ofNat 32 (pack [(5, 4), (2, (t.bits).toNat), (3, m.toNat), (5, 0), (5, a.toNat), (5, d.toNat), (7, 103)]))
  | .vredmax d a m t => .w32 (.ofNat 32 (pack [(5, 5), (2, (t.bits).toNat), (3, m.toNat), (5, 0), (5, a.toNat), (5, d.toNat), (7, 103)]))
  | .vscanadd d a m t => .w32 (.ofNat 32 (pack [(5, 6), (2, (t.bits).toNat), (3, m.toNat), (5, 0), (5, a.toNat), (5, d.toNat), (7, 103)]))
  | .vcompress d a m t => .w32 (.ofNat 32 (pack [(5, 7), (2, (t.bits).toNat), (3, m.toNat), (5, 0), (5, a.toNat), (5, d.toNat), (7, 103)]))
  | .vwadd d a b k t => .w32 (.ofNat 32 (pack [(5, 0), (2, (t.bits).toNat), (3, k.toNat), (5, b.toNat), (5, a.toNat), (5, d.toNat), (7, 104)]))
  | .vwsub d a b k t => .w32 (.ofNat 32 (pack [(5, 1), (2, (t.bits).toNat), (3, k.toNat), (5, b.toNat), (5, a.toNat), (5, d.toNat), (7, 104)]))
  | .vwmul d a b => .w32 (.ofNat 32 (pack [(5, 2), (2, 0), (3, 0), (5, b.toNat), (5, a.toNat), (5, d.toNat), (7, 104)]))
  | .vwshl d a b t => .w32 (.ofNat 32 (pack [(5, 3), (2, (t.bits).toNat), (3, 0), (5, b.toNat), (5, a.toNat), (5, d.toNat), (7, 104)]))
  | .vwshr d a b t => .w32 (.ofNat 32 (pack [(5, 4), (2, (t.bits).toNat), (3, 0), (5, b.toNat), (5, a.toNat), (5, d.toNat), (7, 104)]))
  | .vwcmp a b k t => .w32 (.ofNat 32 (pack [(5, 5), (2, (t.bits).toNat), (3, k.toNat), (5, b.toNat), (5, a.toNat), (5, 0), (7, 104)]))
  | .vxclr d => .w32 (.ofNat 32 (pack [(5, 0), (2, 0), (13, 0), (5, d.toNat), (7, 105)]))
  | .vxadd d a m => .w32 (.ofNat 32 (pack [(5, 1), (2, 0), (3, m.toNat), (5, 0), (5, a.toNat), (5, d.toNat), (7, 105)]))
  | .vxfma d a b m => .w32 (.ofNat 32 (pack [(5, 2), (2, 0), (3, m.toNat), (5, b.toNat), (5, a.toNat), (5, d.toNat), (7, 105)]))
  | .vxrndS d a => .w32 (.ofNat 32 (pack [(5, 3), (2, 0), (8, 0), (5, a.toNat), (5, d.toNat), (7, 105)]))
  | .vxrndD d a => .w32 (.ofNat 32 (pack [(5, 4), (2, 0), (8, 0), (5, a.toNat), (5, d.toNat), (7, 105)]))
  | .vxstat d a => .w32 (.ofNat 32 (pack [(5, 5), (2, 0), (8, 0), (5, a.toNat), (5, d.toNat), (7, 105)]))
  | .vld v a m p o => .w32 (.ofNat 32 (pack [(1, 0), (7, o.toNat), (2, (p.bits).toNat), (3, m.toNat), (7, a.toNat), (5, v.toNat), (7, 106)]))
  | .vst v a m p o => .w32 (.ofNat 32 (pack [(1, 1), (7, o.toNat), (2, (p.bits).toNat), (3, m.toNat), (7, a.toNat), (5, v.toNat), (7, 106)]))
  | .vgather d a m t => .w32 (.ofNat 32 (pack [(5, 0), (2, (t.bits).toNat), (3, m.toNat), (5, 0), (5, a.toNat), (5, d.toNat), (7, 107)]))
  | .vscatter a b m t => .w32 (.ofNat 32 (pack [(5, 1), (2, (t.bits).toNat), (3, m.toNat), (5, b.toNat), (5, a.toNat), (5, 0), (7, 107)]))
  | .mand k i j => .w32 (.ofNat 32 (pack [(5, 0), (2, 0), (3, 0), (3, j.toNat), (2, 0), (3, i.toNat), (2, 0), (3, k.toNat), (2, 0), (7, 108)]))
  | .mor k i j => .w32 (.ofNat 32 (pack [(5, 1), (2, 0), (3, 0), (3, j.toNat), (2, 0), (3, i.toNat), (2, 0), (3, k.toNat), (2, 0), (7, 108)]))
  | .mxor k i j => .w32 (.ofNat 32 (pack [(5, 2), (2, 0), (3, 0), (3, j.toNat), (2, 0), (3, i.toNat), (2, 0), (3, k.toNat), (2, 0), (7, 108)]))
  | .mnot k i => .w32 (.ofNat 32 (pack [(5, 3), (2, 0), (8, 0), (3, i.toNat), (2, 0), (3, k.toNat), (2, 0), (7, 108)]))
  | .mpopc d i => .w32 (.ofNat 32 (pack [(5, 4), (2, 0), (8, 0), (3, i.toNat), (2, 0), (5, d.toNat), (7, 108)]))
  | .mffs d i => .w32 (.ofNat 32 (pack [(5, 5), (2, 0), (8, 0), (3, i.toNat), (2, 0), (5, d.toNat), (7, 108)]))
  | .mset k a => .w32 (.ofNat 32 (pack [(5, 6), (2, 0), (8, 0), (5, a.toNat), (3, k.toNat), (2, 0), (7, 108)]))
  | .mget d i => .w32 (.ofNat 32 (pack [(5, 7), (2, 0), (8, 0), (3, i.toNat), (2, 0), (5, d.toNat), (7, 108)]))
  | .vfromg d a m t => .w32 (.ofNat 32 (pack [(5, 8), (2, (t.bits).toNat), (3, m.toNat), (5, 0), (5, a.toNat), (5, d.toNat), (7, 108)]))
  | .vtog d a k t => .w32 (.ofNat 32 (pack [(5, 9), (2, (t.bits).toNat), (3, 0), (4, k.toNat), (1, 0), (5, a.toNat), (5, d.toNat), (7, 108)]))
  | .vlanew d a k t => .w32 (.ofNat 32 (pack [(5, 10), (2, (t.bits).toNat), (3, 0), (4, k.toNat), (1, 0), (5, a.toNat), (5, d.toNat), (7, 108)]))
  | .vmorton d a m => .w32 (.ofNat 32 (pack [(5, 0), (2, 0), (3, m.toNat), (5, 0), (5, a.toNat), (5, d.toNat), (7, 109)]))
  | .vhilbert d a m => .w32 (.ofNat 32 (pack [(5, 1), (2, 0), (3, m.toNat), (5, 0), (5, a.toNat), (5, d.toNat), (7, 109)]))
  | .oxset j a => .w32 (.ofNat 32 (pack [(4, 0), (7, 0), (7, a.toNat), (3, j.toNat), (4, 0), (7, 110)]))
  | .oxget d j => .w32 (.ofNat 32 (pack [(4, 1), (7, 0), (3, j.toNat), (4, 0), (7, d.toNat), (7, 110)]))
  | .oxld j a n => .w32 (.ofNat 32 (pack [(4, 2), (3, n.toNat), (4, 0), (7, a.toNat), (3, j.toNat), (4, 0), (7, 110)]))
  | .oxst j a n => .w32 (.ofNat 32 (pack [(4, 3), (3, n.toNat), (4, 0), (7, a.toNat), (3, j.toNat), (4, 0), (7, 110)]))
  | .qpush c a b => .w32 (.ofNat 32 (pack [(4, 0), (7, b.toNat), (7, a.toNat), (2, c.toNat), (5, 0), (7, 112)]))
  | .qpop t a b => .w32 (.ofNat 32 (pack [(4, 1), (7, b.toNat), (7, a.toNat), (7, t.toNat), (7, 112)]))
  | .qtry t a b => .w32 (.ofNat 32 (pack [(4, 2), (7, b.toNat), (7, a.toNat), (7, t.toNat), (7, 112)]))
  | .qpushv k c a b => .w32 (.ofNat 32 (pack [(4, 3), (5, b.toNat), (2, 0), (7, a.toNat), (2, c.toNat), (3, k.toNat), (2, 0), (7, 112)]))
  | .qpopv t a b => .w32 (.ofNat 32 (pack [(4, 4), (7, b.toNat), (7, a.toNat), (5, t.toNat), (2, 0), (7, 112)]))
  | .qmap s a => .w32 (.ofNat 32 (pack [(4, 5), (7, 0), (7, a.toNat), (2, s.toNat), (5, 0), (7, 112)]))
  | .qunmap s => .w32 (.ofNat 32 (pack [(4, 6), (14, 0), (2, s.toNat), (5, 0), (7, 112)]))
  | .qmark q a b => .w32 (.ofNat 32 (pack [(4, 7), (7, b.toNat), (7, a.toNat), (1, q.toNat), (6, 0), (7, 112)]))
  | .qend a => .w32 (.ofNat 32 (pack [(4, 8), (7, 0), (7, a.toNat), (7, 0), (7, 112)]))
  | .qstat t a k => .w32 (.ofNat 32 (pack [(4, 9), (7, k.toNat), (7, a.toNat), (7, t.toNat), (7, 112)]))
  | .feed t a b => .w32 (.ofNat 32 (pack [(4, 0), (7, b.toNat), (7, a.toNat), (7, t.toNat), (7, 113)]))
  | .feedx t a b => .w32 (.ofNat 32 (pack [(4, 1), (7, b.toNat), (7, a.toNat), (7, t.toNat), (7, 113)]))
  | .feedqz t a b => .w32 (.ofNat 32 (pack [(4, 2), (7, b.toNat), (7, a.toNat), (7, t.toNat), (7, 113)]))
  | .feedt t a b => .w32 (.ofNat 32 (pack [(4, 3), (7, b.toNat), (7, a.toNat), (7, t.toNat), (7, 113)]))
  | .feedq t a b => .w32 (.ofNat 32 (pack [(4, 4), (7, b.toNat), (7, a.toNat), (7, t.toNat), (7, 113)]))
  | .mma => .w32 (.ofNat 32 (pack [(4, 0), (21, 0), (7, 114)]))
  | .mclr c => .w32 (.ofNat 32 (pack [(4, 1), (2, c.toNat), (19, 0), (7, 114)]))
  | .mdrain t a x f c => .w32 (.ofNat 32 (pack [(4, 2), (2, c.toNat), (2, f.toNat), (1, x.toNat), (2, 0), (7, a.toNat), (7, t.toNat), (7, 114)]))
  | .plld t a b => .w32 (.ofNat 32 (pack [(4, 3), (7, b.toNat), (7, a.toNat), (7, t.toNat), (7, 114)]))
  | .msort t => .w32 (.ofNat 32 (pack [(4, 4), (14, 0), (7, t.toNat), (7, 114)]))
  | .repart t a => .w32 (.ofNat 32 (pack [(4, 0), (7, 0), (7, a.toNat), (7, t.toNat), (7, 115)]))
  | .rpstat t a => .w32 (.ofNat 32 (pack [(4, 1), (7, 0), (7, a.toNat), (7, t.toNat), (7, 115)]))
  | .dadd d a b m => .w32 (.ofNat 32 (pack [(4, 0), (4, 0), (5, 0), (3, m.toNat), (3, b.toNat), (3, a.toNat), (3, d.toNat), (7, 116)]))
  | .dsub d a b m => .w32 (.ofNat 32 (pack [(4, 0), (4, 1), (5, 0), (3, m.toNat), (3, b.toNat), (3, a.toNat), (3, d.toNat), (7, 116)]))
  | .dmul d a b m => .w32 (.ofNat 32 (pack [(4, 0), (4, 2), (5, 0), (3, m.toNat), (3, b.toNat), (3, a.toNat), (3, d.toNat), (7, 116)]))
  | .ddiv d a b m => .w32 (.ofNat 32 (pack [(4, 0), (4, 3), (5, 0), (3, m.toNat), (3, b.toNat), (3, a.toNat), (3, d.toNat), (7, 116)]))
  | .dmin d a b m => .w32 (.ofNat 32 (pack [(4, 0), (4, 4), (5, 0), (3, m.toNat), (3, b.toNat), (3, a.toNat), (3, d.toNat), (7, 116)]))
  | .dmax d a b m => .w32 (.ofNat 32 (pack [(4, 0), (4, 5), (5, 0), (3, m.toNat), (3, b.toNat), (3, a.toNat), (3, d.toNat), (7, 116)]))
  | .daff d a m v => .w32 (.ofNat 32 (pack [(4, 0), (4, 0), (5, v.toNat), (3, m.toNat), (3, 0), (3, a.toNat), (3, d.toNat), (7, 117)]))
  | .dmap d a m i => .w32 (.ofNat 32 (pack [(4, i.toNat), (4, 1), (5, 0), (3, m.toNat), (3, 0), (3, a.toNat), (3, d.toNat), (7, 117)]))
  | .dmix d a b m v => .w32 (.ofNat 32 (pack [(4, 0), (4, 2), (5, v.toNat), (3, m.toNat), (3, b.toNat), (3, a.toNat), (3, d.toNat), (7, 117)]))
  | .dtag d a h l => .w32 (.ofNat 32 (pack [(4, l.toNat), (4, 3), (4, h.toNat), (4, 0), (1, 0), (2, 0), (3, a.toNat), (3, d.toNat), (7, 117)]))
  | .dtagOr d a h l => .w32 (.ofNat 32 (pack [(4, l.toNat), (4, 3), (4, h.toNat), (4, 0), (1, 1), (2, 0), (3, a.toNat), (3, d.toNat), (7, 117)]))
  | .dld d m g => .w32 (.ofNat 32 (pack [(4, g.toNat), (4, 0), (5, 0), (3, m.toNat), (6, 0), (3, d.toNat), (7, 118)]))
  | .dst a m => .w32 (.ofNat 32 (pack [(4, 0), (4, 1), (5, 0), (3, m.toNat), (3, 0), (3, a.toNat), (3, 0), (7, 118)]))
  | .dfromv d m v g => .w32 (.ofNat 32 (pack [(4, g.toNat), (4, 2), (5, v.toNat), (3, m.toNat), (6, 0), (3, d.toNat), (7, 118)]))
  | .ddirac d m v g => .w32 (.ofNat 32 (pack [(4, g.toNat), (4, 3), (5, v.toNat), (3, m.toNat), (6, 0), (3, d.toNat), (7, 118)]))
  | .dmom a m v k => .w32 (.ofNat 32 (pack [(4, k.toNat), (4, 4), (5, v.toNat), (3, m.toNat), (3, 0), (3, a.toNat), (3, 0), (7, 118)]))
  | .dqnt a m v => .w32 (.ofNat 32 (pack [(4, 0), (4, 5), (5, v.toNat), (3, m.toNat), (3, 0), (3, a.toNat), (3, 0), (7, 118)]))
  | .dcdf a m v => .w32 (.ofNat 32 (pack [(4, 0), (4, 6), (5, v.toNat), (3, m.toNat), (3, 0), (3, a.toNat), (3, 0), (7, 118)]))
  | .spawn a => .w32 (.ofNat 32 (pack [(4, 0), (7, 0), (7, a.toNat), (7, 0), (7, 120)]))
  | .suspend a => .w32 (.ofNat 32 (pack [(4, 1), (7, 0), (7, a.toNat), (7, 0), (7, 120)]))
  | .done => .w32 (.ofNat 32 (pack [(4, 2), (21, 0), (7, 120)]))
  | .cancel a l => .w32 (.ofNat 32 (pack [(4, 3), (3, l.toNat), (4, 0), (7, a.toNat), (7, 0), (7, 120)]))
  | .lvlwait d a l => .w32 (.ofNat 32 (pack [(4, 4), (3, l.toNat), (4, 0), (7, a.toNat), (7, d.toNat), (7, 120)]))
  | .yield => .w32 (.ofNat 32 (pack [(4, 5), (21, 0), (7, 120)]))
  | .cstart d a c => .w32 (.ofNat 32 (pack [(3, 0), (4, c.toNat), (4, 0), (7, a.toNat), (7, d.toNat), (7, 121)]))
  | .creap c => .w32 (.ofNat 32 (pack [(3, 1), (4, c.toNat), (18, 0), (7, 121)]))
  | .cstat d c => .w32 (.ofNat 32 (pack [(3, 2), (4, c.toNat), (11, 0), (7, d.toNat), (7, 121)]))
  | .chold c => .w32 (.ofNat 32 (pack [(3, 3), (4, c.toNat), (18, 0), (7, 121)]))
  | .crelease c => .w32 (.ofNat 32 (pack [(3, 4), (4, c.toNat), (18, 0), (7, 121)]))
  | .ctrd d r => .w32 (.ofNat 32 (pack [(10, r.toNat), (1, 0), (7, 0), (7, d.toNat), (7, 122)]))
  | .ctwr a r => .w32 (.ofNat 32 (pack [(10, r.toNat), (1, 1), (7, a.toNat), (7, 0), (7, 122)]))
  | .xrd d a k c => .w32 (.ofNat 32 (pack [(2, 0), (4, c.toNat), (2, (k.bits).toNat), (3, 0), (7, a.toNat), (7, d.toNat), (7, 123)]))
  | .xwr d a k c => .w32 (.ofNat 32 (pack [(2, 1), (4, c.toNat), (2, (k.bits).toNat), (3, 0), (7, a.toNat), (7, d.toNat), (7, 123)]))
  | .xpres d a k c => .w32 (.ofNat 32 (pack [(2, 2), (4, c.toNat), (2, (k.bits).toNat), (3, 0), (7, a.toNat), (7, d.toNat), (7, 123)]))
  | .trap c => .w32 (.ofNat 32 (pack [(2, 0), (9, c.toNat), (14, 0), (7, 124)]))
  | .tret => .w32 (.ofNat 32 (pack [(2, 1), (23, 0), (7, 124)]))
  | .brk c => .w32 (.ofNat 32 (pack [(2, 2), (9, c.toNat), (14, 0), (7, 124)]))
  | .nop => .w32 (.ofNat 32 (pack [(2, 3), (23, 0), (7, 124)]))
  | .mvC a b => .w16 (.ofNat 16 (pack [(5, b.toNat), (5, a.toNat), (6, 1)]))
  | .liC a i => .w16 (.ofNat 16 (pack [(5, i.toNat), (5, a.toNat), (6, 2)]))
  | .addiC a i => .w16 (.ofNat 16 (pack [(5, i.toNat), (5, a.toNat), (6, 3)]))
  | .addC a b => .w16 (.ofNat 16 (pack [(5, b.toNat), (5, a.toNat), (6, 4)]))
  | .subC a b => .w16 (.ofNat 16 (pack [(5, b.toNat), (5, a.toNat), (6, 5)]))
  | .andC a b => .w16 (.ofNat 16 (pack [(5, b.toNat), (5, a.toNat), (6, 6)]))
  | .orC a b => .w16 (.ofNat 16 (pack [(5, b.toNat), (5, a.toNat), (6, 7)]))
  | .xorC a b => .w16 (.ofNat 16 (pack [(5, b.toNat), (5, a.toNat), (6, 8)]))
  | .shliC a i => .w16 (.ofNat 16 (pack [(5, i.toNat), (5, a.toNat), (6, 9)]))
  | .shriC a i => .w16 (.ofNat 16 (pack [(5, i.toNat), (5, a.toNat), (6, 10)]))
  | .shaiC a i => .w16 (.ofNat 16 (pack [(5, i.toNat), (5, a.toNat), (6, 11)]))
  | .ldwLs a b => .w16 (.ofNat 16 (pack [(5, b.toNat), (5, a.toNat), (6, 12)]))
  | .stwLs a b => .w16 (.ofNat 16 (pack [(5, b.toNat), (5, a.toNat), (6, 13)]))
  | .lddLs a b => .w16 (.ofNat 16 (pack [(5, b.toNat), (5, a.toNat), (6, 14)]))
  | .stdLs a b => .w16 (.ofNat 16 (pack [(5, b.toNat), (5, a.toNat), (6, 15)]))
  | .beqzC a i => .w16 (.ofNat 16 (pack [(5, i.toNat), (5, a.toNat), (6, 16)]))
  | .bnezC a i => .w16 (.ofNat 16 (pack [(5, i.toNat), (5, a.toNat), (6, 17)]))
  | .ret => .w16 (.ofNat 16 (pack [(10, 1), (6, 18)]))
  | .nopC => .w16 (.ofNat 16 (pack [(10, 0), (6, 19)]))
  | .qpopC a s => .w16 (.ofNat 16 (pack [(2, s.toNat), (3, 0), (5, a.toNat), (6, 20)]))
  | .qpushC a s => .w16 (.ofNat 16 (pack [(2, s.toNat), (3, 0), (5, a.toNat), (6, 21)]))
  | .poolmaskWrite _ => .event
  | .saveareaWrite _ => .event
  | .windowRegisterWrite _ _ => .event
  | .qmapWrite _ => .event
  | .loadValueLands _ => .event
  | .longLatencyResultLands _ => .event
  | .storeAcknowledgement _ => .event
  | .refusalArrives _ => .event
  | .attributedImpreciseTrap => .event
  | .cancelTrap => .event
  | .ibrkMatch _ => .event
  | .watchpointMatch _ _ _ => .event
  | .stepHold _ => .event
  | .keeperRestart _ _ => .event
  | .depositArrival _ => .event
  | .depositAnswer _ => .event
  | .memoryRequestAtHome _ => .event
  | .bankAluOperation _ => .event
  | .clockMessage _ _ _ => .event
  | .queuePushAtHome _ => .event
  | .queuePopAtHome _ => .event
  | .queueMissService _ => .event
  | .queueStateReport _ _ => .event
  | .dispatchStep _ => .event
  | .preemptRequest _ => .event
  | .forcedSave _ => .event
  | .cancelService _ => .event
  | .formeLoad _ _ _ => .event
  | .gangReadyReport _ _ => .event
  | .gangReadyDeadline _ => .event
  | .gangStartTick _ _ => .event
  | .programReplacement _ _ => .event
  | .replacementRegionDrained _ _ _ _ => .event
  | .pageWalkComplete _ _ _ => .event
  | .pagerMap _ _ _ _ => .event
  | .pagerRefuse _ _ _ => .event
  | .tlbInvalidationAck _ _ _ _ => .event
  | .feedCopyEnd _ _ => .event
  | .feedqEntry _ _ => .event
  | .platenOpStart _ => .event
  | .platenOpEnd _ => .event
  | .condenserOpStart _ => .event
  | .condenserOpEnd _ => .event
  | .repartRanksGathered _ => .event
  | .repartMovement _ => .event
  | .repartEnd _ _ => .event
  | .publishExchange _ => .event
  | .shadowWithdrawal _ => .event
  | .waitTableEnter _ => .event
  | .waitTableWake _ => .event
  | .waitDeadlineExpiry _ _ => .event
  | .hostHdmAccess _ _ _ _ => .event
  | .hostQueuePush _ _ _ => .event
  | .hostQueuePop _ _ => .event
  | .hstatusWrite _ _ => .event
  | .hostBadAccess _ _ => .event
  | .hwait _ _ => .event
  | .hwake _ _ => .event
  | .hattest _ _ => .event
  | .powerOnBoot _ _ => .event
  | .bootStepEnd _ _ _ _ _ => .event
  | .railFault _ => .event
  | .heartbeatListenTimeout _ => .event
  | .candidacyReceived _ _ _ => .event
  | .candidacyQuietTimeout _ => .event
  | .leadReceived _ _ => .event
  | .heartbeatSend _ => .event
  | .heartbeatReceived _ _ _ => .event
  | .leaderLossTimeout _ => .event
  | .yieldReceived _ _ _ _ => .event
  | .leaderCommand _ _ _ _ _ => .event
  | .formeLoadOrder _ _ _ _ => .event
  | .keyRegister _ _ _ => .event
  | .keyRevoke _ _ => .event
  | .groupRegister _ _ _ => .event
  | .groupDeregister _ _ => .event
  | .timeSyncExchange _ _ => .event
  | .unsyncReport _ _ => .event
  | .routerCycle _ _ => .event
  | .injectionStarvation _ _ => .event
  | .messageResend _ _ _ => .event
  | .linkPacketArrival _ _ _ => .event
  | .linkDown _ _ => .event
  | .accountingTick _ _ => .event
  | .allotmentIntervalEnd _ _ => .event
  | .allotmentRequest _ _ => .event
  | .governorSample _ _ _ _ => .event
  | .clockRaise _ => .event
  | .fastResponse _ => .event
  | .thermalTrip _ => .event
  | .healthRecord _ _ => .event
  | .traceRequest _ _ => .event
  | .traceStart _ => .event
  | .traceEnd _ => .event
  | .coreDumpRequest _ _ _ _ => .event
  | .coreDumpAtT _ => .event
  | .storageRead _ _ _ => .event
  | .storageWrite _ _ _ => .event
  | .storageFlush _ _ _ => .event
  | .mapRange _ _ _ => .event
  | .unmapRange _ _ _ => .event
  | .nvmeCompletion _ _ _ _ => .event
  | .editionLoad _ _ _ _ => .event
  | .shardFetchDone _ _ _ _ _ => .event
  | .shardTransformDone _ _ _ _ => .event
  | .editionFlip _ _ _ => .event
  | .editionOldSlotCheck _ _ => .event
  | .encodingNotAnInstruction _ _ => .event
  | .formeUnload _ => .event
  | .storageTargetRegister _ _ _ _ _ _ => .event
  | .editionSigningKeyRegister _ _ _ _ => .event
  | .hostFunctionJobBind _ _ _ => .event

/-- The instruction an encoding holds. -/
def Encoding.decode : Encoding → Option Instr
  | .w32 w => (decode32 w).toOption
  | .w16 h => (decode16 h).toOption
  | .event => none

/-- The bytes of an encoding at ascending addresses: h0 first, each halfword low byte first (R151). -/
def Encoding.bytes : Encoding → List Byte
  | .w32 w => [w.extractLsb' 16 8, w.extractLsb' 24 8, w.extractLsb' 0 8, w.extractLsb' 8 8]
  | .w16 h => [h.extractLsb' 0 8, h.extractLsb' 8 8]
  | .event => []

/-- An encoding as one number: the word, or the halfword zero-extended (R165). -/
def Encoding.word : Encoding → BitVec 32
  | .w32 w => w
  | .w16 h => h.zeroExtend 32
  | .event => 0#32

/-- The length in bytes of an instruction: 2 for a compact form, 4 for a word (R151). -/
def Encoding.length : Encoding → Nat
  | .w32 _ => 4
  | .w16 _ => 2
  | .event => 0

/-- The decoder on bytes: the halfwords are little-endian, and too few bytes give nothing. -/
def decodeBytes : List Byte → Option (Except IllReason Instr)
  | b0 :: b1 :: rest =>
    let h0 : Half := b1 ++ b0
    if h0.getLsbD 15 then
      match rest with
      | b2 :: b3 :: _ => some (decodeHalves h0 (b3 ++ b2))
      | _ => none
    else some (decodeHalves h0 0#16)
  | _ => none

/-- The bytes of a table word of `nbits` bits, laid out as the hardware stores them (R151). -/
def tableBytes (nbits w : Nat) : List Byte :=
  if nbits ≤ 16 then (Encoding.w16 (BitVec.ofNat 16 w)).bytes else (Encoding.w32 (BitVec.ofNat 32 w)).bytes

/-- What the decoder reads from a table word: its bytes are laid out and decoded. -/
def decodeTableWord (nbits w : Nat) : Option Instr :=
  match decodeBytes (tableBytes nbits w) with
  | some (.ok i) => some i
  | _ => none

end

end Sys2Proof
end

