-- ==== Sys2Proof/Config.lean ====
section
/-! DEFINITION. What the spec leaves open and no run may fix: constants without a body, so that no proof can see a value
of them (log entries 5, 6 and 7). -/

namespace Sys2Proof.Config

/-- Free values, one for each index: which of the values a bound allows an inexact special function returns
(spec/09_isa_vector.md R198), which prefix a cancelled copy has written (spec/12_isa_engines.md R294), and what memory
holds after a spill ring has returned (spec/04_memory.md, Engine-only paths). Log entry 5. -/
opaque freeValue : Nat → Word

/-- Which of the binary32 values within the bound of R198 the special function of VSF with this number returns for an operand: a
fixed function of the operand alone, not given (spec/09_isa_vector.md R198). Log entry 14. -/
opaque vsfChoice : Nat → Nat → Nat

/-- What `vrcp` returns for an operand whose reciprocal lies beyond the largest finite value: not given. Log entry 14. -/
opaque vsfBeyond : Lane → Lane

/-- SHA-384 (spec/03_queues.md R73, spec/18_attach_boot.md R344): a standard the spec names and does not define. Log entry 6. -/
opaque sha384 : List Byte → BitVec 384

/-- ECDSA P-384 signature by the identity key of the package with this serial (spec/18_attach_boot.md R347). Log entry 6. -/
opaque ecdsaSign : Word → BitVec 384 → BitVec 768

/-- ECDSA P-384 verification: key, digest, signature (spec/21_storage.md R392). Log entry 6. -/
opaque ecdsaVerify : BitVec 768 → BitVec 384 → BitVec 768 → Bool

/-- CRC-4 of a flit header's bits [31:4] (spec/22_pod.md R398): the polynomial is not given. Log entry 6. -/
opaque crc4 : BitVec 28 → BitVec 4

/-- The package serial of rank order n (spec/18_attach_boot.md R347): fixed at manufacture. Log entry 6. -/
opaque serial : Nat → Word

/-- A certificate: the key it names, the bytes it signs, the signature of the key above it. -/
structure Certificate where
  key  : BitVec 768
  body : List Byte
  sig  : BitVec 768
  deriving DecidableEq, Repr, Inhabited

/-- A firmware image (spec/18_attach_boot.md R346): its SHA-384, the security version of its header, the root key and certificate chain it
carries, and the signature over its digest. -/
structure Firmware where
  digest  : BitVec 384
  version : Word
  root    : BitVec 768
  chain   : List Certificate
  sig     : BitVec 768
  deriving DecidableEq, Repr, Inhabited

/-- The firmware image in a flash slot of a package, 0 A and 1 B (spec/18_attach_boot.md R345, R346). Log entry 6. -/
opaque firmware : Nat → Nat → Firmware

/-- The SHA-384 of the Lerloth root public key in the fuses (spec/18_attach_boot.md R346). Log entry 6. -/
opaque rootDigest : BitVec 384

/-- The certificate of a package's identity key, kept in its flash (spec/18_attach_boot.md R347). Log entry 6. -/
opaque certificate : Nat → Certificate

/-- The sizes of the load-store domain's torus less one, each read modulo 4 (spec/22_pod.md R401), and the place in it of the package of a
serial number: fixed where the pod is put together. Log entry 6. -/
opaque torus : Nat × Nat × Nat
/-- The place of a package in the torus, by its serial number, read modulo the sizes (spec/22_pod.md R401). Log entry 6. -/
opaque torusPlace : Word → Nat × Nat × Nat

/-- Which service cores of a package are free for system programs (spec/03_queues.md R73): bit i is core i of service galley 0, bit 32 + i
of service galley 1. The spec does not say which the firmware's own programs use. Log entry 6. -/
opaque serviceFree : Nat → Word

/-- The weight of one issue of an activity in the energy estimate (spec/23_power.md R409): the figures are not given.
The argument is a cycle-class number or an activity number. Log entry 7. -/
opaque energyWeight : Nat → Nat

end Sys2Proof.Config
end

