-- ==== Sys2Proof/Machine/Flags.lean ====
section
/-! DEFINITION. Number formats, rounding and the floating-point flags (spec/06_numbers.md R127 to R148): every result is an
exact rational, or a special value, rounded once by a named rounding that says which flags it raises. -/

namespace Sys2Proof.Machine

/-- The exception flags in the order of FPFLAGS[4:0] (R133): bit 0 invalid, 1 divide-by-zero, 2 overflow, 3 underflow,
4 inexact. -/
abbrev Flags := BitVec 5
/-- Invalid. -/
def flNV : Flags := 1#5
/-- Divide-by-zero. -/
def flDZ : Flags := 2#5
/-- Overflow. -/
def flOF : Flags := 4#5
/-- Underflow. -/
def flUF : Flags := 8#5
/-- Inexact. -/
def flNX : Flags := 16#5

/-- A binary format: precision in bits (the hidden bit counted) and exponent bits (R128). -/
structure Fmt where
  p  : Nat
  eb : Nat
  deriving DecidableEq, Repr

/-- binary32. -/
def fmt32 : Fmt := ⟨24, 8⟩
/-- binary64. -/
def fmt64 : Fmt := ⟨53, 11⟩
/-- BF16 (R128). -/
def fmt16 : Fmt := ⟨8, 8⟩

/-- Exponent bias. -/
def Fmt.bias (f : Fmt) : Nat := 2 ^ (f.eb - 1) - 1
/-- One past the largest exponent field's first pattern: the bits of +∞. -/
def Fmt.inf (f : Fmt) : Nat := (2 ^ f.eb - 1) * 2 ^ (f.p - 1)
/-- The sign bit's value. -/
def Fmt.sign (f : Fmt) : Nat := 2 ^ (f.p - 1 + f.eb)
/-- The canonical quiet NaN (R129). -/
def Fmt.nan (f : Fmt) : Nat := f.inf + 2 ^ (f.p - 2)
/-- The bits of a zero, an infinity or the largest finite magnitude with a sign. -/
def Fmt.signed (f : Fmt) (neg : Bool) (mag : Nat) : Nat := if neg then f.sign + mag else mag

/-- A value: NaN (signalling or quiet), an infinity, or the rational ±n/d with its sign kept for zero. -/
inductive FVal
  | nan (sig : Bool)
  | inf (neg : Bool)
  | fin (neg : Bool) (n d : Nat)
  deriving DecidableEq, Repr

/-- The value of a bit pattern (R128). Bits above the format are ignored. -/
def Fmt.decode (f : Fmt) (x : Nat) : FVal :=
  let fr := x % 2 ^ (f.p - 1)
  let e := x / 2 ^ (f.p - 1) % 2 ^ f.eb
  let neg := x / f.sign % 2 == 1
  if e = 2 ^ f.eb - 1 then
    if fr = 0 then .inf neg else .nan (fr < 2 ^ (f.p - 2))
  else
    let m := if e = 0 then fr else fr + 2 ^ (f.p - 1)
    let e' := if e = 0 then 1 else e
    let z := f.bias + (f.p - 1)
    if z ≤ e' then .fin neg (m * 2 ^ (e' - z)) 1 else .fin neg m (2 ^ (z - e'))

/-- Rounding modes of FPCTL[1:0] (R130). -/
inductive RMode | rne | rz | rup | rdn
  deriving DecidableEq, Repr

/-- The mode of a two-bit field. -/
def RMode.ofField (n : Nat) : RMode := match n % 4 with | 0 => .rne | 1 => .rz | 2 => .rup | _ => .rdn

/-- Whether a magnitude between m and m + 1, past m by r/d, rounds up. -/
def RMode.up (r : RMode) (neg : Bool) (m rem d : Nat) : Bool :=
  match r with
  | .rne => decide (2 * rem > d) || (2 * rem == d && m % 2 == 1)
  | .rz => false
  | .rup => !neg && rem != 0
  | .rdn => neg && rem != 0

/-- The least e with n/d < 2^(e+1), that is Floor(log2 (n/d)), for n, d positive. -/
def floorLog2 (n d : Nat) : Int :=
  let e : Int := (Nat.log2 n : Int) - (Nat.log2 d : Int)
  let ge : Bool := if 0 ≤ e then decide (d * 2 ^ e.toNat ≤ n) else decide (d ≤ n * 2 ^ (-e).toNat)
  if ge then e else e - 1

/-- n/d divided by 2^q, as quotient, remainder and divisor. -/
def scaledDiv (n d : Nat) (q : Int) : Nat × Nat × Nat :=
  if 0 ≤ q then let d' := d * 2 ^ q.toNat; (n / d', n % d', d')
  else let n' := n * 2 ^ (-q).toNat; (n' / d, n' % d, d)

/-- RoundBinary32, RoundBinary64 and RoundBF16 of a value (R130): the bits and the flags. -/
def Fmt.round (f : Fmt) (r : RMode) (v : FVal) : Nat × Flags :=
  match v with
  | .nan _ => (f.nan, 0#5)
  | .inf neg => (f.signed neg f.inf, 0#5)
  | .fin neg n d =>
    if n = 0 then (f.signed neg 0, 0#5)
    else
      let emin : Int := 1 - (f.bias : Int)
      let e := floorLog2 n d
      let eq := if e < emin then emin else e
      let q := eq - ((f.p : Int) - 1)
      let (m, rem, dd) := scaledDiv n d q
      let m' := if r.up neg m rem dd then m + 1 else m
      let bits := (eq - emin).toNat * 2 ^ (f.p - 1) + m'
      if f.inf ≤ bits then
        let big := match r with | .rne => true | .rz => false | .rup => !neg | .rdn => neg
        (f.signed neg (if big then f.inf else f.inf - 1), flOF ||| flNX)
      else
        let (mu, remu, ddu) := scaledDiv n d (e - ((f.p : Int) - 1))
        let toMin : Bool := e == emin - 1 && r.up neg mu remu ddu && mu + 1 == 2 ^ f.p
        let tiny : Bool := decide (e < emin) && !toMin
        (f.signed neg bits, (if rem = 0 then 0#5 else flNX ||| (if tiny then flUF else 0#5)))

/-- Whether a value is a signalling NaN. -/
def FVal.isSig : FVal → Bool | .nan s => s | _ => false
/-- Whether a value is a NaN. -/
def FVal.isNan : FVal → Bool | .nan _ => true | _ => false
/-- The sign of a value; a NaN counts as positive. -/
def FVal.neg? : FVal → Bool | .nan _ => false | .inf s => s | .fin s _ _ => s
/-- Whether a value is a zero. -/
def FVal.isZero : FVal → Bool | .fin _ 0 _ => true | _ => false
/-- The value with its sign changed. -/
def FVal.negate : FVal → FVal | .nan s => .nan s | .inf s => .inf (!s) | .fin s n d => .fin (!s) n d
/-- The signed numerator of a finite value. -/
def FVal.num : FVal → Int | .fin s n _ => if s then -(n : Int) else n | _ => 0
/-- The denominator of a finite value. -/
def FVal.den : FVal → Nat | .fin _ _ d => d | _ => 1

/-- Invalid when an operand is a signalling NaN (R129). -/
def sigFlag (a b : FVal) : Flags := if a.isSig || b.isSig then flNV else 0#5

/-- The exact sum with the sign of an exact zero (R130), and invalid for ∞ − ∞ or a signalling operand. -/
def FVal.add (r : RMode) (a b : FVal) : FVal × Flags :=
  match a, b with
  | .nan s, y => (.nan false, if s || y.isSig then flNV else 0#5)
  | x, .nan s => (.nan false, if s || x.isSig then flNV else 0#5)
  | .inf s, .inf t => if s = t then (.inf s, 0#5) else (.nan false, flNV)
  | .inf s, .fin .. => (.inf s, 0#5)
  | .fin .., .inf t => (.inf t, 0#5)
  | .fin s n d, .fin t m e =>
    let x : Int := (if s then -(n : Int) else n) * e + (if t then -(m : Int) else m) * d
    if x = 0 then (.fin (if n = 0 && m = 0 && s == t then s else r == .rdn) 0 1, 0#5)
    else (.fin (x < 0) x.natAbs (d * e), 0#5)

/-- The exact product; ∞ × 0 is invalid (R179). -/
def FVal.mul (a b : FVal) : FVal × Flags :=
  match a, b with
  | .nan s, y => (.nan false, if s || y.isSig then flNV else 0#5)
  | x, .nan s => (.nan false, if s || x.isSig then flNV else 0#5)
  | .inf s, .inf t => (.inf (s != t), 0#5)
  | .inf s, .fin t m _ => if m = 0 then (.nan false, flNV) else (.inf (s != t), 0#5)
  | .fin s n _, .inf t => if n = 0 then (.nan false, flNV) else (.inf (s != t), 0#5)
  | .fin s n d, .fin t m e => (.fin (s != t) (n * m) (d * e), 0#5)

/-- The exact quotient; 0/0 and ∞/∞ invalid, finite/0 divide-by-zero (R179). -/
def FVal.div (a b : FVal) : FVal × Flags :=
  match a, b with
  | .nan s, y => (.nan false, if s || y.isSig then flNV else 0#5)
  | x, .nan s => (.nan false, if s || x.isSig then flNV else 0#5)
  | .inf _, .inf _ => (.nan false, flNV)
  | .inf s, .fin t _ _ => (.inf (s != t), 0#5)
  | .fin s _ _, .inf t => (.fin (s != t) 0 1, 0#5)
  | .fin s n d, .fin t m e =>
    if m = 0 then (if n = 0 then (.nan false, flNV) else (.inf (s != t), flDZ))
    else (.fin (s != t) (n * e) (d * m), 0#5)

/-- The square root as a value that rounds to f as the exact root does: the exact root when it is rational on the grid
used, else the midpoint of the grid interval of p + 3 bits around it, which no rounding boundary of f divides. -/
def Fmt.sqrtVal (f : Fmt) (a : FVal) : FVal × Flags :=
  match a with
  | .nan s => (.nan false, if s then flNV else 0#5)
  | .inf s => if s then (.nan false, flNV) else (.inf false, 0#5)
  | .fin s n d =>
    if n = 0 then (.fin s 0 1, 0#5)
    else if s then (.nan false, flNV)
    else
      let k := 2 * f.p + Nat.log2 d + 4
      let x := n * 2 ^ (2 * k) / d
      let root := Nat.sqrt x
      if root * root * d = n * 2 ^ (2 * k) then (.fin false root (2 ^ k), 0#5)
      else (.fin false (2 * root + 1) (2 ^ (k + 1)), 0#5)

/-- Round the result of an exact operation, adding the flags the operation raised. -/
def Fmt.fin2 (f : Fmt) (r : RMode) (v : FVal × Flags) : Nat × Flags :=
  let x := f.round r v.1
  (x.1, x.2 ||| v.2)

/-- FADD (R179). -/
def Fmt.add (f : Fmt) (r : RMode) (a b : Nat) : Nat × Flags := f.fin2 r (FVal.add r (f.decode a) (f.decode b))
/-- FSUB (R179): a NaN operand keeps its meaning. -/
def Fmt.sub (f : Fmt) (r : RMode) (a b : Nat) : Nat × Flags := f.fin2 r (FVal.add r (f.decode a) (f.decode b).negate)
/-- FMUL (R179). -/
def Fmt.mul (f : Fmt) (r : RMode) (a b : Nat) : Nat × Flags := f.fin2 r (FVal.mul (f.decode a) (f.decode b))
/-- FDIV (R179). -/
def Fmt.div (f : Fmt) (r : RMode) (a b : Nat) : Nat × Flags := f.fin2 r (FVal.div (f.decode a) (f.decode b))
/-- FSQRT (R179). -/
def Fmt.sqrt (f : Fmt) (r : RMode) (a : Nat) : Nat × Flags := f.fin2 r (f.sqrtVal (f.decode a))

/-- x × y + z, the product exact, rounded once (R183): ∞ × 0 is invalid even beside a quiet NaN addend. -/
def FVal.fma (r : RMode) (x y z : FVal) : FVal × Flags :=
  let p := FVal.mul x y
  let s := FVal.add r p.1 z
  (s.1, s.2 ||| p.2)

/-- FFMA, with the product negated (FNMA) or the addend negated (FFMS) (R183). -/
def Fmt.fma (f : Fmt) (r : RMode) (negP negC : Bool) (a b c : Nat) : Nat × Flags :=
  let x := f.decode a
  let x := if negP then x.negate else x
  let z := f.decode c
  f.fin2 r (FVal.fma r x (f.decode b) (if negC then z.negate else z))

/-- Numeric order of two values that are no NaN, with −0 equal to +0. -/
def FVal.lt (a b : FVal) : Bool :=
  match a, b with
  | .inf s, .inf t => s && !t
  | .inf s, .fin .. => s
  | .fin .., .inf t => !t
  | .fin s n d, .fin t m e => decide ((if s then -(n : Int) else n) * e < (if t then -(m : Int) else m) * d)
  | _, _ => false

/-- Numeric equality of two values that are no NaN, with −0 equal to +0. -/
def FVal.eqv (a b : FVal) : Bool :=
  match a, b with
  | .inf s, .inf t => s == t
  | .fin s n d, .fin t m e => decide ((if s then -(n : Int) else n) * e = (if t then -(m : Int) else m) * d)
  | _, _ => false

/-- FMIN and FMAX (R147): −0 below +0, a NaN gives way, a signalling one raises invalid. -/
def Fmt.minmax (f : Fmt) (isMax : Bool) (a b : Nat) : Nat × Flags :=
  let a := a % (2 * f.sign)
  let b := b % (2 * f.sign)
  let x := f.decode a
  let y := f.decode b
  let fl := sigFlag x y
  if x.isNan && y.isNan then (f.nan, fl)
  else if x.isNan then (b, fl)
  else if y.isNan then (a, fl)
  else
    let less : Bool := FVal.lt x y || (FVal.eqv x y && x.neg? && !y.neg?)
    (if less != isMax then a else b, fl)

/-- FCLASS (R180). -/
def Fmt.classify (f : Fmt) (a : Nat) : Nat :=
  match f.decode a with
  | .nan s => if s then 2 ^ 8 else 2 ^ 9
  | .inf s => if s then 1 else 2 ^ 7
  | .fin s n _ =>
    let e := a / 2 ^ (f.p - 1) % 2 ^ f.eb
    if n = 0 then (if s then 2 ^ 3 else 2 ^ 4)
    else if e = 0 then (if s then 2 ^ 2 else 2 ^ 5)
    else (if s then 2 else 2 ^ 6)

/-- The compares of R181. -/
inductive FCmp | eq | lt | le | un
  deriving DecidableEq, Repr

/-- FEQ, FLT, FLE and FUN (R181): the result and the flags. -/
def Fmt.cmp (f : Fmt) (c : FCmp) (a b : Nat) : Bool × Flags :=
  let x := f.decode a
  let y := f.decode b
  let anyNan := x.isNan || y.isNan
  match c with
  | .eq => (!anyNan && FVal.eqv x y, sigFlag x y)
  | .lt => (!anyNan && FVal.lt x y, if anyNan then flNV else 0#5)
  | .le => (!anyNan && (FVal.lt x y || FVal.eqv x y), if anyNan then flNV else 0#5)
  | .un => (anyNan, sigFlag x y)

/-- FSGNJ and FSGNJN (R182): the bits of a with b's sign, inverted for the second. -/
def Fmt.sgnj (f : Fmt) (inv : Bool) (a b : Nat) : Nat :=
  let s := b / f.sign % 2 == 1
  a % f.sign + (if s != inv then f.sign else 0)

/-- A binary format converted to another (R132). -/
def Fmt.convert (src dst : Fmt) (r : RMode) (a : Nat) : Nat × Flags :=
  let x := src.decode a
  let y := dst.round r x
  (y.1, y.2 ||| (if x.isSig then flNV else 0#5))

/-- An integer rounded to a binary format (R132). -/
def Fmt.ofInt (f : Fmt) (r : RMode) (x : Int) : Nat × Flags := f.round r (.fin (x < 0) x.natAbs 1)

/-- A finite value rounded to an integer, and whether it changed (R132). -/
def roundInt (r : RMode) (neg : Bool) (n d : Nat) : Int × Bool :=
  let m := n / d
  let rem := n % d
  let m' := if r.up neg m rem d then m + 1 else m
  ((if neg then -(m' : Int) else m'), rem != 0)

/-- A binary value converted to an integer in [lo, hi] (R132). -/
def Fmt.toInt (f : Fmt) (r : RMode) (lo hi : Int) (a : Nat) : Int × Flags :=
  match f.decode a with
  | .nan _ => (0, flNV)
  | .inf s => (if s then lo else hi, flNV)
  | .fin s n d =>
    let (x, ch) := roundInt r s n d
    if x < lo then (lo, flNV) else if hi < x then (hi, flNV) else (x, if ch then flNX else 0#5)

/-- A subnormal operand read as zero of its sign (R131, flush inputs). -/
def Fmt.flushIn (f : Fmt) (on : Bool) (a : Nat) : Nat :=
  let e := a / 2 ^ (f.p - 1) % 2 ^ f.eb
  if on && e == 0 then (if a / f.sign % 2 == 1 then f.sign else 0) else a

/-- A non-zero subnormal result made zero of its sign with underflow and inexact (R131, flush outputs). -/
def Fmt.flushOut (f : Fmt) (on : Bool) (x : Nat × Flags) : Nat × Flags :=
  let e := x.1 / 2 ^ (f.p - 1) % 2 ^ f.eb
  let fr := x.1 % 2 ^ (f.p - 1)
  if on && e == 0 && fr != 0 then ((if x.1 / f.sign % 2 == 1 then f.sign else 0), x.2 ||| flUF ||| flNX) else x

/-- The exponent of the M8 codes of two, three, four and six leading zeros (R137). -/
def m8Exp (b : Nat) : Int :=
  if 64 ≤ b then 0
  else if 32 ≤ b then (if b / 16 % 2 = 0 then -1 else 1)
  else if 16 ≤ b then (match b / 4 % 4 with | 0 => -3 | 1 => -2 | 2 => 2 | _ => 3)
  else if 8 ≤ b then (if b % 8 < 4 then (b % 8 : Nat) - 7 else (b % 8 : Nat))
  else if 4 ≤ b then (match b % 4 with | 0 => -9 | 1 => -8 | 2 => 8 | _ => 9)
  else if 2 ≤ b then (if b % 2 = 0 then -10 else 10)
  else -11

/-- The significand of an M8 code in 64ths (R137). -/
def m8Sig64 (b : Nat) : Nat :=
  if 64 ≤ b then 64 + 9 * (b % 64)
  else if 32 ≤ b then 64 + 36 * (b % 16)
  else if 16 ≤ b then 64 + 144 * (b % 4)
  else 64

/-- The magnitude of the M8 body b ≠ 0 as a rational. -/
def m8Mag (b : Nat) : Nat × Nat :=
  let e := m8Exp b
  if 0 ≤ e then (m8Sig64 b * 10 ^ e.toNat, 64) else (m8Sig64 b, 64 * 10 ^ (-e).toNat)

/-- M8Value of a code (R137): NaR reads as a quiet NaN. -/
def m8Value (c : Nat) : FVal :=
  let b := c % 128
  let s := c / 128 % 2 == 1
  if b = 0 then (if s then .nan false else .fin false 0 1)
  else let m := m8Mag b; .fin s m.1 m.2

/-- Whether |x − v| < |x − w| as rationals, where x = n/d. -/
def closer (n d : Nat) (v w : Nat × Nat) : Ordering :=
  let dv : Nat := ((n * v.2 : Nat) - (v.1 * d : Nat) : Int).natAbs * w.2
  let dw : Nat := ((n * w.2 : Nat) - (w.1 * d : Nat) : Int).natAbs * v.2
  compare dv dw

/-- The better of two M8 bodies for the magnitude n/d (R138 step 4). -/
def m8Better (n d a b : Nat) : Nat :=
  let ma := if a = 0 then (0, 1) else m8Mag a
  let mb := if b = 0 then (0, 1) else m8Mag b
  match closer n d ma mb with
  | .lt => a
  | .gt => b
  | .eq =>
    if a % 2 = 0 && b % 2 = 1 then a
    else if b % 2 = 0 && a % 2 = 1 then b
    else if ma.1 * mb.2 ≤ mb.1 * ma.2 then a else b

/-- The nearest M8 body to the magnitude n/d (R138 step 4). -/
def m8Nearest (n d : Nat) : Nat := (List.range 128).foldl (fun best b => m8Better n d best b) 0

/-- RoundM8 (R138). -/
def roundM8 (v : FVal) : Nat × Flags :=
  match v with
  | .nan s => (0x80, if s then flNV else 0#5)
  | .inf s => (if s then 0x83 else 0x03, flOF)
  | .fin s n d =>
    if n = 0 then (0, 0#5)
    else
      let b := m8Nearest n d
      let m := if b = 0 then (0, 1) else m8Mag b
      let nx : Flags := if m.1 * d = n * m.2 then 0#5 else flNX
      let of_ : Flags := if n > 10 ^ 10 * d then flOF else 0#5
      let uf : Flags := if b = 0 then flUF else 0#5
      ((if b = 0 then 0 else if s then 128 + b else b), nx ||| of_ ||| uf)

/-- The exact product of an M8 code and a block scale, by the sign rules of R139: code 0 gives +0 for a finite scale. -/
def m8Scaled (c : Nat) (s : FVal) : FVal × Flags :=
  match m8Value c, s with
  | .nan _, y => (.nan false, if y.isSig then flNV else 0#5)
  | _, .nan sg => (.nan false, if sg then flNV else 0#5)
  | _, .inf _ => (.nan false, 0#5)
  | .fin cs n d, .fin ss m e => if n = 0 then (.fin false 0 1, 0#5) else (.fin (cs != ss) (n * m) (d * e), 0#5)
  | .inf _, _ => (.nan false, 0#5)

/-- ExpandM8 to BF16 (R139). -/
def expandM8 (r : RMode) (c s : Nat) : Nat × Flags := fmt16.fin2 r (m8Scaled c (fmt16.decode s))

/-- The least BF16 pattern, a positive finite one, whose value is at least n/d (R140). -/
def leastBF16 (n d : Nat) : Nat := (fmt16.round .rup (.fin false n d)).1

/-- The scale of a block (R140): the elements' values in order. -/
def blockScale (xs : List FVal) : Nat :=
  let mx := xs.foldl (fun (a : Nat × Nat) x => match x with
    | .fin _ n d => if a.1 * d < n * a.2 then (n, d) else a
    | _ => a) (0, 1)
  if mx.1 = 0 then 0x3F80 else leastBF16 (mx.1 * 64) (mx.2 * 631)

/-- One quantised element: RoundM8(x / s) (R140). -/
def quantM8 (x : FVal) (s : Nat) : Nat × Flags := roundM8 (match x, fmt16.decode s with
  | .fin sg n d, .fin _ m e => .fin sg (n * e) (d * m)
  | y, _ => y)

/-- The tree of R145 over 16 elements: pairs, then pairs of pairs. -/
def treePairs {α : Type} (op : α → α → α) : List α → List α
  | x :: y :: r => op x y :: treePairs op r
  | r => r

/-- The result of the reduction tree of R145 on 16 elements. -/
def reduceTree {α : Type} (op : α → α → α) (d : α) (xs : List α) : α :=
  (treePairs op (treePairs op (treePairs op (treePairs op xs)))).headD d

/-- One step of the scan of R146: y[i − k] is combined into y[i]. -/
def scanStep {α : Type} (op : α → α → α) (k : Nat) (d : α) (ys : List α) : List α :=
  (List.range ys.length).map (fun i => if k ≤ i then op (ys.getD (i - k) d) (ys.getD i d) else ys.getD i d)

/-- The inclusive scan of R146. -/
def scanTree {α : Type} (op : α → α → α) (d : α) (ys : List α) : List α :=
  scanStep op 8 d (scanStep op 4 d (scanStep op 2 d (scanStep op 1 d ys)))

/-- Whether an enabled exception was raised: the enables are FPCTL[8:4] (R133, R136). -/
def enabledFlags (fpctl : Word) (fl : Flags) : Flags := fpctl.extractLsb' 4 5 &&& fl

/-- The sampled rounding mode (R130). -/
def modeOf (fpctl : Word) : RMode := RMode.ofField (fpctl.extractLsb' 0 2).toNat

/-- Addition of a value to an exact accumulator (R142, R143): the 1,024-bit pattern and the flags. -/
def xaccAdd (x : Nat) (v : FVal) (inv : Bool) : Nat × Flags :=
  match v with
  | .nan s => (x ||| 2 ^ 1010, if s || inv then flNV else 0#5)
  | .inf s => (x ||| (if s then 2 ^ 1009 else 2 ^ 1008), 0#5)
  | .fin s n d =>
    let i : Nat := x % 2 ^ 1008
    let iv : Int := if i < 2 ^ 1007 then i else (i : Int) - 2 ^ 1008
    let a : Nat := n * 2 ^ 320 / d
    let t : Int := iv + (if s then -(a : Int) else a)
    let out : Bool := decide (t < -(2 ^ 1007)) || decide (2 ^ 1007 ≤ t)
    let acc := (t % 2 ^ 1008).toNat
    (x / 2 ^ 1008 % 16 * 2 ^ 1008 ||| acc ||| (if out then 2 ^ 1011 else 0), 0#5)

/-- XValue (R144). -/
def xaccRound (f : Fmt) (r : RMode) (x : Nat) : Nat × Flags :=
  let pinf := x / 2 ^ 1008 % 2 == 1
  let ninf := x / 2 ^ 1009 % 2 == 1
  let nan := x / 2 ^ 1010 % 2 == 1
  let ovf := x / 2 ^ 1011 % 2 == 1
  let i : Nat := x % 2 ^ 1008
  let iv : Int := if i < 2 ^ 1007 then i else (i : Int) - 2 ^ 1008
  if nan || (pinf && ninf) then (f.nan, if nan then 0#5 else flNV)
  else if pinf then (f.inf, 0#5)
  else if ninf then (f.signed true f.inf, 0#5)
  else if ovf then (f.nan, flNV)
  else f.round r (.fin (iv < 0) iv.natAbs (2 ^ 320))

end Sys2Proof.Machine
end

