-- ==== Sys2Proof/Machine/Map.lean ====
section
/-! DEFINITION. Sparse tables of plain data: a list of key and value pairs, read with a default. Register files, record
tables and the byte memory of the machine are held this way (spec/01_machine.md R16, R24; spec/04_memory.md R83). -/

namespace Sys2Proof

/-- A table from keys to values; a key that is not listed reads as the reader's default. -/
abbrev Map (α : Type) := List (Nat × α)

/-- The value listed at key k. -/
def Map.find {α : Type} : Map α → Nat → Option α
  | [], _ => none
  | (j, a) :: r, k => if j = k then some a else Map.find r k

/-- The value at key k, or d when k is not listed. -/
def Map.get {α : Type} (m : Map α) (k : Nat) (d : α) : α := (Map.find m k).getD d

/-- The table with key k holding a; keys stay in ascending order. -/
def Map.set {α : Type} : Map α → Nat → α → Map α
  | [], k, a => [(k, a)]
  | (j, b) :: r, k, a =>
    if k < j then (k, a) :: (j, b) :: r else if k = j then (k, a) :: r else (j, b) :: Map.set r k a

/-- The table without key k. -/
def Map.del {α : Type} : Map α → Nat → Map α
  | [], _ => []
  | (j, b) :: r, k => if j = k then Map.del r k else (j, b) :: Map.del r k

/-- The value at key k changed by f, from d when k is not listed. -/
def Map.modify {α : Type} (m : Map α) (k : Nat) (d : α) (f : α → α) : Map α := Map.set m k (f (Map.get m k d))

@[simp] theorem Map.find_nil {α : Type} (k : Nat) : Map.find ([] : Map α) k = none := rfl

theorem Map.find_set {α : Type} (m : Map α) (k j : Nat) (a : α) :
    Map.find (Map.set m k a) j = if k = j then some a else Map.find m j := by
  induction m with
  | nil => simp [Map.set, Map.find]
  | cons p r ih =>
    obtain ⟨i, b⟩ := p
    simp only [Map.set]
    split_ifs with h1 h2 h3 h4 <;> simp_all [Map.find] <;> grind

@[simp] theorem Map.find_set_same {α : Type} (m : Map α) (k : Nat) (a : α) :
    Map.find (Map.set m k a) k = some a := by simp [Map.find_set]

theorem Map.find_set_other {α : Type} (m : Map α) {k j : Nat} (a : α) (h : k ≠ j) :
    Map.find (Map.set m k a) j = Map.find m j := by simp [Map.find_set, h]

@[simp] theorem Map.get_set_same {α : Type} (m : Map α) (k : Nat) (a d : α) : Map.get (Map.set m k a) k d = a := by
  simp [Map.get]

theorem Map.get_set_other {α : Type} (m : Map α) {k j : Nat} (a d : α) (h : k ≠ j) :
    Map.get (Map.set m k a) j d = Map.get m j d := by simp [Map.get, Map.find_set_other m a h]

theorem Map.get_set {α : Type} (m : Map α) (k j : Nat) (a d : α) :
    Map.get (Map.set m k a) j d = if k = j then a else Map.get m j d := by
  by_cases h : k = j <;> simp [h, Map.get_set_other]

theorem Map.find_del {α : Type} (m : Map α) (k j : Nat) :
    Map.find (Map.del m k) j = if k = j then none else Map.find m j := by
  induction m with
  | nil => simp [Map.del]
  | cons p r ih =>
    obtain ⟨i, b⟩ := p
    simp only [Map.del]
    split_ifs <;> simp_all [Map.find] <;> grind

/-- The byte memory: cells at strictly rising addresses, none of them 0, which is what an address that is not listed
reads as (log entry 2). -/
abbrev Memory := List (Nat × Byte)

/-- What an address that no cell lists reads as: 0 (DESIGN CHOICE, log entry 2). -/
def Memory.unlisted : Byte := 0#8

/-- The byte at address a. -/
def Memory.read (m : Memory) (a : Nat) : Byte := Map.get m a Memory.unlisted

/-- The memory with byte b at address a, in canonical form. -/
def Memory.write : Memory → Nat → Byte → Memory
  | [], a, b => if b = Memory.unlisted then [] else [(a, b)]
  | (j, c) :: r, a, b =>
    if a < j then (if b = Memory.unlisted then (j, c) :: r else (a, b) :: (j, c) :: r)
    else if a = j then (if b = Memory.unlisted then r else (a, b) :: r)
    else (j, c) :: Memory.write r a b

/-- Every listed address is at least n, addresses strictly rise, and no listed byte is the unlisted one. -/
def Memory.wfFrom : Nat → Memory → Bool
  | _, [] => true
  | n, (j, c) :: r => decide (n ≤ j) && decide (c ≠ Memory.unlisted) && Memory.wfFrom (j + 1) r

/-- The canonical form of a memory. -/
def Memory.wf (m : Memory) : Bool := Memory.wfFrom 0 m

theorem Memory.wfFrom_mono {n k : Nat} {m : Memory} (h : Memory.wfFrom n m = true) (hk : k ≤ n) :
    Memory.wfFrom k m = true := by
  cases m with
  | nil => rfl
  | cons p r => obtain ⟨j, c⟩ := p; simp [Memory.wfFrom] at h ⊢; exact ⟨⟨by omega, h.1.2⟩, h.2⟩

theorem Memory.wfFrom_write {n a : Nat} {m : Memory} (b : Byte) (h : Memory.wfFrom n m = true) (ha : n ≤ a) :
    Memory.wfFrom n (Memory.write m a b) = true := by
  induction m generalizing n with
  | nil => by_cases hb : b = Memory.unlisted <;> simp [Memory.write, hb, Memory.wfFrom, ha]
  | cons p r ih =>
    obtain ⟨j, c⟩ := p
    simp only [Memory.wfFrom, Bool.and_eq_true, decide_eq_true_eq] at h
    obtain ⟨⟨h1, h2⟩, h3⟩ := h
    simp only [Memory.write]
    split_ifs with c1 c2 c3 c4
    · simp [Memory.wfFrom, h1, h2, h3]
    · simp [Memory.wfFrom, h2, h3, c2, ha]; omega
    · exact Memory.wfFrom_mono h3 (by omega)
    · subst c3; simp [Memory.wfFrom, h3, c4, ha]
    · simp only [Memory.wfFrom, Bool.and_eq_true, decide_eq_true_eq]
      exact ⟨⟨h1, h2⟩, ih h3 (by omega)⟩

theorem Memory.wf_write {m : Memory} (a : Nat) (b : Byte) (h : Memory.wf m = true) :
    Memory.wf (Memory.write m a b) = true := Memory.wfFrom_write b h (Nat.zero_le a)

theorem Memory.read_of_wfFrom_lt {n a : Nat} {m : Memory} (h : Memory.wfFrom n m = true) (ha : a < n) :
    Memory.read m a = Memory.unlisted := by
  induction m generalizing n with
  | nil => rfl
  | cons p r ih =>
    obtain ⟨j, c⟩ := p
    simp only [Memory.wfFrom, Bool.and_eq_true, decide_eq_true_eq] at h
    have : Memory.read r a = Memory.unlisted := ih h.2 (by omega)
    simp only [Memory.read, Map.get, Map.find] at this ⊢
    rw [if_neg (by omega)]; exact this

theorem Memory.read_write_same {n a : Nat} {m : Memory} (b : Byte) (h : Memory.wfFrom n m = true) :
    Memory.read (Memory.write m a b) a = b := by
  induction m generalizing n with
  | nil => by_cases hb : b = Memory.unlisted <;> simp [Memory.write, hb, Memory.read, Map.get, Map.find]
  | cons p r ih =>
    obtain ⟨j, c⟩ := p
    simp only [Memory.wfFrom, Bool.and_eq_true, decide_eq_true_eq] at h
    simp only [Memory.write]
    split_ifs with c1 c2 c3 c4
    · have h' : Memory.wfFrom j ((j, c) :: r) = true := by simp [Memory.wfFrom, h.1.2, h.2]
      rw [Memory.read_of_wfFrom_lt h' c1, c2]
    · simp [Memory.read, Map.get, Map.find]
    · rw [Memory.read_of_wfFrom_lt h.2 (by omega), c4]
    · simp [Memory.read, Map.get, Map.find]
    · have := ih h.2
      simp only [Memory.read, Map.get, Map.find] at this ⊢
      rw [if_neg (by omega)]; exact this

theorem Memory.read_write_other {n a x : Nat} {m : Memory} (b : Byte) (h : Memory.wfFrom n m = true) (hx : x ≠ a) :
    Memory.read (Memory.write m a b) x = Memory.read m x := by
  induction m generalizing n with
  | nil => by_cases hb : b = Memory.unlisted <;> simp [Memory.write, hb, Memory.read, Map.get, Map.find, hx.symm]
  | cons p r ih =>
    obtain ⟨j, c⟩ := p
    simp only [Memory.wfFrom, Bool.and_eq_true, decide_eq_true_eq] at h
    simp only [Memory.write]
    split_ifs with c1 c2 c3 c4
    · rfl
    · simp [Memory.read, Map.get, Map.find, hx.symm]
    · subst c3
      have : Memory.read ((a, c) :: r) x = Memory.read r x := by simp [Memory.read, Map.get, Map.find, hx.symm]
      rw [this]
    · subst c3; simp [Memory.read, Map.get, Map.find, hx.symm]
    · have := ih h.2
      simp only [Memory.read, Map.get, Map.find] at this ⊢
      split <;> simp_all

end Sys2Proof
end

