-- ==== Sys2Proof/Machine/State.lean ====
section
/-! DEFINITION. The state of the machine: one pod of packages as plain data, and the state after reset. Contexts, cores,
galleys and dies are keyed by the fields of CTXID (spec/01_machine.md R12): a context by CTXID, a core by CTXID / 16, a
galley by CTXID / 512, a die by CTXID / 8192, a package by CTXID / 65536. -/

namespace Sys2Proof.Machine

/-- Why the machine stops. No instruction of the spec stops it: traps, holds and waits are next states. The one
constructor is raised by no meaning; safe, since nothing is proved of a run that never is. -/
inductive Fault
  /-- No agent of the machine is left that could ever act. Raised by no meaning. Safe. -/
  | deadMachine
  deriving DecidableEq, Repr

/-- Why the model gives no meaning. -/
inductive Refusal
  /-- The instruction of this mnemonic has no meaning yet. Raised by an arm of exec only. Safe. -/
  | notModelled (mnemonic : String)
  deriving DecidableEq, Repr

/-- A register's presence (R20): pending, a producer is outstanding; armed, for a deposit (R231); absent, cleared by
XPRES (R264). -/
inductive Presence | present | absent | armed | pending
  deriving DecidableEq, Repr

/-- A general register of a core's file (R16, R20, R371). -/
structure GReg where
  val    : Word := 0#64
  st     : Presence := .present
  poison : Bool := false
  deriving DecidableEq, Repr

/-- A vector register of a core's file (R16, R20); poison has one bit a lane (R371). -/
structure VReg where
  val    : VWord := 0#512
  st     : Presence := .present
  poison : BitVec 16 := 0#16
  deriving DecidableEq, Repr

/-- A distribution register: the 768-byte image and the lineage tag (R296); poison has one bit for 8 bytes of the image (R371). -/
structure DReg where
  img    : BitVec 6144 := 0#6144
  tag    : Byte := 0#8
  poison : BitVec 96 := 0#96
  deriving DecidableEq, Repr

/-- Windows into the three shared files, base and size (R17). -/
structure Windows where
  gb : Nat := 0
  gn : Nat := 0
  vb : Nat := 0
  vn : Nat := 0
  db : Nat := 0
  dn : Nat := 0
  deriving DecidableEq, Repr

/-- The register classes a check names (R352). -/
inductive RC | g | v | d
  deriving DecidableEq, Repr

/-- Conditions of a context (R39, R261). -/
inductive Cond | empty | emptyWin | pinned | pooledFree | pooled | finished
  deriving DecidableEq, Repr

/-- Hold causes (R261). -/
inductive Hold
  | none | chold | brkpt (byBrk : Bool) | watch (after : Bool) | step | priv | unhandled
  deriving DecidableEq, Repr

/-- Why a context is out of rotation (R36, R261). Those that name a condition are before issue and are left when it
holds; the others are left when an answer lands. -/
inductive Wait
  | none
  | reg (c : RC) (i : Nat)
  | mapped (i : Nat)
  | flow (q : Nat)
  | slot (i : Nat)
  | pop (q : Nat)
  | miss (q : Nat)
  | reservation
  | load
  | deposit
  | depositRetry
  | save
  | suspend
  | barrier
  | waitv
  | lvlwait
  | fence (sc : Scope) (id : Nat)
  | fault (space granule : Nat)
  | walk (space granule : Nat)
  | posted (n : Nat)
  | reap (c : Nat)
  | migration (g : Nat)
  | dst
  deriving DecidableEq, Repr

/-- A trap to be delivered: cause, the instruction named, address, information (R351, R352). -/
structure PendTrap where
  imp   : Bool
  cause : Byte
  pc    : Word
  addr  : Word
  info  : Word
  deriving DecidableEq, Repr

/-- A slug: eight doublewords (R29). -/
structure Slug where
  dw0 : Word := 0#64
  dw1 : Word := 0#64
  dw2 : Word := 0#64
  dw3 : Word := 0#64
  dw4 : Word := 0#64
  dw5 : Word := 0#64
  dw6 : Word := 0#64
  dw7 : Word := 0#64
  deriving DecidableEq, Repr

/-- A clock of R110: one counter a die, CD0–CD3 and the IOD. -/
structure Clock where
  c0 : Nat := 0
  c1 : Nat := 0
  c2 : Nat := 0
  c3 : Nat := 0
  c4 : Nat := 0
  deriving DecidableEq, Repr

/-- The kind of a queue entry (R58). -/
inductive EKind | data | colophon | mark (k : BitVec 32) (quiesce : Bool)
  deriving DecidableEq, Repr

/-- A queue entry: kind, class, payload (R58), the consumer programs that have popped it (R61), a slug's arrival stamp
(R76), the producing program and context. -/
structure QEntry where
  kind    : EKind := .data
  cls     : BitVec 2 := 0#2
  payload : BitVec 512 := 0#512
  valid   : Half := 0#16
  taken   : List Half := []
  arrival : Nat := 0
  prog    : BitVec 32 := 0#32
  poison  : Bool := false
  stamp   : Clock := {}
  deriving DecidableEq, Repr

/-- A queue: its descriptor's fields (R57) and what its home holds (R59 to R66): the entries, the programs whose
colophon has come, those that have taken it and the cut marks taken, by program (R54, R75), the pushes and pops that wait. -/
structure Queue where
  valid     : Bool := false
  etype     : BitVec 2 := 0#2
  closed    : Bool := false
  ended     : Bool := false
  resident  : Bool := true
  flow      : Nat := 0
  cap       : Nat := 0
  homePkg   : Nat := 0
  homeDie   : Nat := 0
  homeGal   : Nat := 0
  owner     : Half := 0#16
  ring      : Nat := 0
  producers : List Half := []
  consumers : List Half := []
  entries   : List QEntry := []
  coloph    : List Half := []
  endTaken  : List Half := []
  marked    : List (Half × BitVec 32) := []
  waitPush  : List Nat := []
  waitPop   : List Nat := []
  ringBack  : Bool := false
  deriving DecidableEq, Repr

/-- A level record (R46), keyed kind × 2^32 + handle with kind 1 program, 2 forme, 3 run, 4 job; its parent's key and
the waits of LVLWAIT on it. -/
structure Level where
  live      : BitVec 32 := 0#32
  state     : Nat := 0
  cause     : Half := 0#16
  finished  : Word := 0#64
  errors    : BitVec 32 := 0#32
  late      : BitVec 32 := 0#32
  cancelled : BitVec 32 := 0#32
  parent    : Nat := 0
  home      : Nat := 0
  waiters   : List Nat := []
  known     : Bool := false
  stamp     : Clock := {}
  deriving DecidableEq, Repr

/-- Where an access goes once its address is resolved: a cell of the physical space of a package or a byte of local store
(the key of State.mem); a private-region address of another context, checked and translated at its owner (R89), and one its windows have
admitted (R95); an address behind a remote key (R100), and one its key has accepted (R405). -/
inductive Loc
  | cell (k : Nat)
  | local (core off : Nat)
  | priv (ctx off : Nat)
  | owned (ctx off : Nat)
  | remote (key off : Nat)
  | accepted (key off : Nat)
  deriving DecidableEq, Repr

/-- An update of a level record (R46, R48, R251): a strand is to begin, one that was counted does not, a strand has retired, a child level has ended with a state, an error with its cause, a late
record. -/
inductive LevelOp | begun | undone | retired | child (st : Nat) | error (cause : Half) | late
  deriving DecidableEq, Repr

/-- A loaded program: what its record gives (R320), its code's place, its energy account (R410); the cores on which a pinned
instance has still to begin, the contexts whose strand was reaped unfinished, so that the next is no new instance (R48, R259), whether a
binding of it has ended at a colophon (R54), where its pinned suspension slugs lie (R75, R252). -/
structure Program where
  codeAt    : Word := 0#64
  entry     : Nat := 0
  trapVec   : Word := 0#64
  pinned    : Bool := false
  gwin      : Nat := 8
  vwin      : Nat := 0
  dwin      : Nat := 0
  instances : Nat := 0
  inputs    : List Nat := []
  outputs   : List Nat := []
  folios    : List (Nat × Nat × Nat × Option Nat) := []
  energy    : Nat := 0
  quiesced  : Option (BitVec 32) := Option.none
  toStart   : List Nat := []
  restart   : List Nat := []
  fed       : Bool := false
  parked    : List Loc := []
  deriving DecidableEq, Repr

/-- A loaded forme: its job and run, its programs' count, status queue (R78), quiesce word (R75), the packages of its
placement, gang state (R74), imposition number (R385). -/
structure Forme where
  job       : Half := 0#16
  run       : Half := 0#16
  nprog     : Nat := 0
  statusQ   : Nat := 0
  quiesceAt : Word := 0#64
  packages  : List Nat := []
  gang      : Option Word := Option.none
  ready     : List Nat := []
  tardy     : Option Nat := Option.none
  started   : List Nat := []
  pending   : List (Nat × Slug) := []
  loaded    : Bool := false
  number    : Nat := 0
  deriving DecidableEq, Repr

/-- One element access of a message: the generic address it names (R90), where it goes, its bytes, and for a store the
bytes stored; the element it belongs to. -/
structure Part where
  addr : Nat
  loc  : Loc
  size : Nat
  data : List Byte := []
  elem : Nat := 0
  done : Bool := false
  deriving DecidableEq, Repr

/-- The operations of the bank ALU on a doubleword or word (R219, R220). -/
inductive AtomOp
  | add | and | or | xor | min | max | minn | maxn | fadds | fmins | fmaxs | faddd | fmind | fmaxd | swap | cas
  deriving DecidableEq, Repr

/-- Where an answer lands. -/
inductive Dest
  | none
  | g (i size : Nat) (sext : Bool)
  | v (i es : Nat) (mask : Half)
  | ox (i n : Nat)
  | dist (i : Nat) (mask : Half) (tag : Byte)
  | spawn
  | cstart (c : Nat) (win : Word)
  | vals (rs : List (RC × Nat × Nat))
  deriving DecidableEq, Repr

/-- What a message asks for. -/
inductive MsgKind
  | load
  | store
  | atomic (op : AtomOp) (val cmp : Word)
  | lrw
  | sch (val : Word)
  | rsvrel
  | binit (n : Word)
  | barrive
  | bwait (p : Half)
  | bstat (k : Nat)
  | result
  | push (q : Nat) (e : QEntry)
  | pop (q : Nat) (now vec : Bool) (val st : Nat)
  | mappedPop (q slot : Nat)
  | qstat (q k : Nat)
  | deposit (dir target reg : Nat) (val : Word)
  | shadow (base len : Nat)
  | publish (base : Nat)
  | waitv (addr : Nat) (val deadline : Word)
  | wakev (addr : Nat) (n : Word)
  | lvlwait (key : Nat)
  | rpstat (group : Nat)
  | feederPop (q g i : Nat)
  | level (key : Nat) (op : LevelOp)
  deriving DecidableEq, Repr

/-- The debug registers of a context (R374, R376, R378). -/
structure DebugRegs where
  ibrk0 : Word := 0#64
  ibrk1 : Word := 0#64
  ibrk2 : Word := 0#64
  ibrk3 : Word := 0#64
  w0a   : Word := 0#64
  w0c   : Word := 0#64
  w1a   : Word := 0#64
  w1c   : Word := 0#64
  step  : Word := 0#64
  deriving DecidableEq, Repr

/-- A message under way: an access, a queue message, a deposit, a result of a long unit. `ans` holds the answer's bytes,
`refusal` what a refusal will raise, `posted` the posted-request places it holds (R354), `stamp` and `num` its clock
(R110), `seen` the stamps of what it has read, `flags` the FP flags it raises at landing, `trap` an FPX to take then, `time` the TIME of its issue (R386),
`lanes` the lanes of a vector register or pair that its values fill (R191), `watch` the watchpoints its reads meet (R377, R379), `pushes`
the queues onto which general registers were mapped at its issue, by register (R70), `srcs` the registers it read (R70, R232). -/
structure Msg where
  id      : Nat
  src     : Nat
  epoch   : Nat := 0
  pc      : Word := 0#64
  len     : Nat := 4
  job     : Half := 0#16
  prog    : BitVec 32 := 0#32
  kind    : MsgKind
  parts   : List Part := []
  dest    : Dest := .none
  sc      : Scope := .ctx
  ans     : List Byte := []
  refusal : Option PendTrap := Option.none
  posted  : Nat := 0
  waits   : Bool := false
  stamp   : Clock := {}
  num     : Nat := 0
  seen    : Clock := {}
  flags   : BitVec 5 := 0#5
  trap    : Option PendTrap := Option.none
  placed  : Bool := false
  host    : Bool := false
  remote  : Bool := false
  access  : Nat := 0
  drop    : Bool := false
  time    : Nat := 0
  lanes   : BitVec 32 := BitVec.allOnes 32
  watch   : DebugRegs := {}
  pushes  : List (Nat × Nat) := []
  srcs    : List Nat := []
  deriving DecidableEq, Repr

/-- A reservation (R221): its holder and the scope it was won at, and the messages of the waiters in arrival order. -/
structure Reservation where
  holder  : Option (Nat × Scope) := Option.none
  waiters : List Nat := []
  deriving DecidableEq, Repr

/-- The trap registers of a context (R262, R266). -/
structure TrapRegs where
  vec   : Word := 0#64
  cause : Word := 0#64
  pc    : Word := 0#64
  addr  : Word := 0#64
  info  : Word := 0#64
  save  : Word := 0#64
  deriving DecidableEq, Repr

/-- The other control registers a strand carries (R262). -/
structure CtlRegs where
  fpctl    : Word := 0#64
  fpflags  : Word := 0#64
  deadline : Word := 0#64
  prio     : Word := 0#64
  fmtb     : Word := 0#64
  scaleb   : Word := 0#64
  platecfg : Word := 0#64
  fmta     : Word := 0#64
  scalea   : Word := 0#64
  qmap     : Word := 0#64
  deriving DecidableEq, Repr

/-- A context (R16, R17, R36, R39). `refused` is a granule the pager has refused, with its page-table error (R352, R369), `later` a
precise trap that an attributed-imprecise one came before (R96), `notBefore` the cycle in which the unit its next instruction needs is
free again (R191), `late` the cycle in which the flags of its last result land and those flags (R135), `classes` the cycle counts by program × 8 + class, those of class 7 by 7 (R385). -/
structure Ctx where
  cond      : Cond := .empty
  hold      : Hold := .none
  wait      : Wait := .none
  win       : Windows := {}
  sg        : Nat := 0
  sv        : Nat := 0
  sd        : Nat := 0
  pc        : Word := 0#64
  masks     : Map Half := []
  ox        : Map Word := []
  tr        : TrapRegs := {}
  dbg       : DebugRegs := {}
  ctl       : CtlRegs := {}
  issued    : Word := 0#64
  lastIssue : Option Nat := Option.none
  program   : BitVec 32 := 0#32
  job       : Half := 0#16
  run       : Half := 0#16
  squeue    : Half := 0#16
  epoch     : Nat := 0
  posted    : Nat := 0
  imps      : List PendTrap := []
  precise   : Option PendTrap := Option.none
  cancel    : Option (BitVec 3) := Option.none
  skipBrk   : Bool := false
  skipWatch : Bool := false
  stepPend  : Option Word := Option.none
  watchPend : Option PendTrap := Option.none
  held      : List Nat := []
  slotReady : Map Bool := []
  inPool    : Bool := false
  classes   : Map Nat := []
  ptab      : Nat := 0
  refused   : Option (Nat × Nat × Bool) := Option.none
  later     : Option PendTrap := Option.none
  notBefore : Nat := 0
  late      : Nat × BitVec 5 := (0, 0#5)
  deriving DecidableEq, Repr

/-- A save-area slot of a core (R44, R88, R359, R362): whether it is in use or poisoned, the context and strand it holds, the
traps and the step kept with it (R362, R378), and which matches its next issue does not meet (R379). -/
structure SaveSlot where
  used   : Bool := false
  poison : Bool := false
  ctx    : Nat := 0
  epoch  : Nat := 0
  imps   : List PendTrap := []
  held   : List Nat := []
  program : BitVec 32 := 0#32
  job    : Half := 0#16
  run    : Half := 0#16
  squeue : Half := 0#16
  refused : Option (Nat × Nat × Bool) := none
  precise : Option PendTrap := none
  later  : Option PendTrap := none
  stepPend : Option Word := none
  watchPend : Option PendTrap := none
  skipBrk : Bool := false
  skipWatch : Bool := false
  deriving DecidableEq, Repr

/-- What a platen operation does (R281 to R285). -/
inductive PlatenKind
  | mma | mclr (c : Nat) | mdrain (c fmt : Nat) (clr : Bool) (at_ : Nat) | plld (from_ plate n : Nat)
  | msort (src dst n order : Nat)
  deriving DecidableEq, Repr

/-- A platen operation that has issued: who issued it, its token register, what it sampled (R278, R134, R160). -/
structure PlatenOp where
  ctx      : Nat
  epoch    : Nat
  pc       : Word
  tok      : Nat := 0
  kind     : PlatenKind
  fpctl    : Word := 0#64
  ox0      : Word := 0#64
  ox1      : Word := 0#64
  ox2      : Word := 0#64
  fmta     : Word := 0#64
  fmtb     : Word := 0#64
  scalea   : Word := 0#64
  scaleb   : Word := 0#64
  platecfg : Word := 0#64
  started  : Bool := false
  abort    : Bool := false
  code     : Int := 0
  flags    : BitVec 5 := 0#5
  clock    : Clock := {}
  seq      : Nat := 0
  prog     : BitVec 32 := 0#32
  job      : Half := 0#16
  bytes    : List Byte := []
  sums     : List Word := []
  bad      : List Nat := []
  stamp    : Clock := {}
  time     : Nat := 0
  deriving DecidableEq, Repr

/-- What a condenser instruction does (R302 to R312), with the vector operands it read at issue. -/
inductive CondKind
  | bin (fn : Nat) (dd da db : Nat)
  | aff (dd da : Nat) (a b : VWord)
  | map (dd da f : Nat)
  | mix (dd da db : Nat) (p : VWord)
  | tag (dd da : Nat) (tag : Byte) (or_ : Bool)
  | ld (dd : Nat) (tag : Byte)
  | st (da : Nat)
  | fromv (dd : Nat) (vs : List VWord) (tag : Byte)
  | dirac (dd : Nat) (v : VWord) (tag : Byte)
  | mom (vt da k : Nat)
  | qnt (vt da : Nat) (p : VWord)
  | cdf (vt da : Nat) (x : VWord)
  deriving DecidableEq, Repr

/-- A condenser instruction that has issued (R297), with the watchpoints that its load meets (R377). -/
structure CondOp where
  ctx     : Nat
  epoch   : Nat
  pc      : Word
  kind    : CondKind
  mask    : Half
  fpctl   : Word
  job     : Half := 0#16
  prog    : BitVec 32 := 0#32
  parts   : List Part := []
  started : Bool := false
  abort   : Bool := false
  msg     : Nat := 0
  srcA    : DReg := {}
  srcB    : DReg := {}
  watch   : DebugRegs := {}
  deriving DecidableEq, Repr

/-- A core: shared register files (R16), core-wide control registers (R40, R94), save slots, issue state (R14), platen and
plate (R278), condenser (R297). A core that holds `stopped` has a keeper that issues nothing (R357). -/
structure Core where
  g         : Map GReg := []
  v         : Map VReg := []
  d         : Map DReg := []
  wins      : Map Word := []
  poolmask  : Word := 0#64
  savearea  : Word := 0#64
  slots     : Map SaveSlot := []
  last      : Nat := 15
  cycle     : Nat := 0
  vbusy     : Nat := 0
  acc       : Map Word := []
  accPoison : List Nat := []
  plate     : Map Byte := []
  platePoison : List Nat := []
  platenQ   : List PlatenOp := []
  condQ     : List CondOp := []
  stopped   : Bool := true
  energy    : Nat := 0
  idle      : Nat := 0
  deriving DecidableEq, Repr

/-- What a feeder slot holds (R269, R277). -/
inductive FeedKind
  | copy (fn : Nat)
  | bind (inq : Nat) (outq : Option Nat)
  deriving DecidableEq, Repr

/-- A feeder operation: who issued it, its token, what it sampled (R270, R271); the granule it waits for and those refused to it
(R269, R369); of a binding, the entry it has popped (none for a closed queue), the push that waits, whether that is its colophon (R277), and the number
of its issue. -/
structure FeedOp where
  ctx     : Nat
  epoch   : Nat
  pc      : Word
  job     : Half
  prog    : BitVec 32
  tok     : Nat
  kind    : FeedKind
  dst     : Word := 0#64
  src     : Word := 0#64
  x0      : Word := 0#64
  x1      : Word := 0#64
  x2      : Word := 0#64
  x3      : Word := 0#64
  x4      : Word := 0#64
  x7      : Word := 0#64
  fpctl   : Word := 0#64
  clock   : Clock := {}
  abort   : Bool := false
  seq     : Nat := 0
  wait    : Option (Nat × Nat) := Option.none
  refused : List (Nat × Nat) := []
  got     : Option (Option QEntry) := Option.none
  push    : Option Nat := Option.none
  last    : Bool := false
  first   : Nat := 0
  stamp   : Clock := {}
  time    : Nat := 0
  deriving DecidableEq, Repr

/-- A TLB entry: the space (a job's shared virtual space or a context's private one), the page's base and size, the leaf
entry found and, for a shadowed page, its companion (R365, R367, R370). -/
structure TlbEntry where
  space : Nat
  base  : Nat
  size  : Nat
  leaf  : Word
  comp  : Word := 0#64
  deriving DecidableEq, Repr

/-- A galley (R269, R365, R237, R76). -/
structure Galley where
  feeder  : Map FeedOp := []
  feedWait : List (Nat × Nat × Word) := []
  tlb     : List TlbEntry := []
  migr    : List (Slug × Nat × Nat) := []
  arrival : Nat := 0
  placed  : Nat := 0
  deriving DecidableEq, Repr

/-- A fault of a granule outstanding with the pager (R368): the space, the granule, the slugs that wait, whether a table
error was met, the galleys whose TLB it concerns, those of prefetches alone (R217). -/
structure FaultRec where
  space : Nat
  gran  : Nat
  slugs : List (Slug × Nat × Nat) := []
  ptErr : Bool := false
  gals  : List Nat := []
  prefs : List Nat := []
  deriving DecidableEq, Repr

/-- A walk under way (R368): the galleys whose TLB it fills, and those for which only prefetches have asked (R217). -/
structure Walk where
  space : Nat
  gran  : Nat
  gals  : List Nat := []
  prefs : List Nat := []
  deriving DecidableEq, Repr

/-- A trace of the proof buffer (R382 to R384): its request; the cycle at which it began; the TIME of row 0 of the buffer as it now stands;
the buffer's entries by row × 32 + core while it records; the cycle of the first debug hold, which ends it. -/
structure Trace where
  rcd     : List Byte
  running : Bool := false
  start   : Nat := 0
  time    : Nat := 0
  stop    : Option Nat := Option.none
  rows    : Map Word := []
  events  : Nat := 0
  dropped : Nat := 0
  deriving DecidableEq, Repr

/-- A die: its clock and what it knows of the others' applied writes (R110), the walks, the walker's cached entries and the faults (R368), the resident
queues with the least recently used first (R66, R67), traces, the proof buffer while none records (R24), error counts (R371, R417). -/
structure Die where
  clock    : Clock := {}
  known    : Clock := {}
  applied  : List Nat := []
  walks    : List Walk := []
  nonleaf  : List (Nat × Word) := []
  faults   : List FaultRec := []
  resident : List Nat := []
  traces   : List Trace := []
  proof    : Map Word := []
  corrected : Map Nat := []
  uncorrected : Nat := 0
  dropped  : Nat := 0
  fast     : Nat := 0
  deriving DecidableEq, Repr

/-- A waiter of the wait-and-wake table (R234, R342): the job and address, the strand's message or the host's completion
address. -/
structure Waiter where
  job      : Half
  addr     : Nat
  msg      : Nat
  hostAt   : Option Word := Option.none
  deadline : Word := 0#64
  deriving DecidableEq, Repr

/-- An entry of the key table (R404). -/
structure KeyEntry where
  base   : Word := 0#64
  len    : Nat := 0
  job    : Half := 0#16
  flags  : Half := 0#16
  region : Nat := 0
  deriving DecidableEq, Repr

/-- What the key phase of a REPART finds of a record (R150, R289): the key, whether a coordinate is a NaN, the weight in units of
2^−149, whether it is bad. -/
structure RecInfo where
  key : Nat
  nan : Bool
  w   : Nat
  bad : Bool
  deriving DecidableEq, Repr

/-- A REPART that a rank has issued (R287): its descriptor, the cells its ranges name as pinned, for its writes and for
its reads of records (R288, R103), what it found of NaN coordinates and bad weights at issue (R335), for which memory as it stood then is kept
while its descriptor is still to be read, its records' keys and weights, the code it ends with, its status record. -/
structure RepOp where
  ctx     : Nat
  epoch   : Nat
  pc      : Word := 0#64
  job     : Half
  prog    : BitVec 32 := 0#32
  tok     : Nat
  at_     : Word := 0#64
  descr   : List Byte := []
  code    : Int := 0
  statOk  : Bool := false
  cancel  : Bool := false
  seq     : Nat := 0
  clock   : Clock := {}
  wait    : Option (Nat × Nat) := Option.none
  refused : List (Nat × Nat) := []
  cells   : List (Nat × Nat × Nat) := []
  reads   : List (Nat × Nat × Nat) := []
  counts  : List (Option (Bool × Bool)) := []
  snap    : Option (List Host.Cell) := Option.none
  recs    : List RecInfo := []
  status  : List Byte := []
  time    : Nat := 0
  deriving DecidableEq, Repr

/-- A pod group as a package knows it (R406), the REPARTs its contexts have issued in arrival order, and how far the one at
the head is (R287, R292): 0 not begun, 1 past the gathering, 2 moved, 3 aborted before it; the outcome words of the aborts that its contexts
have still to take with a REPART of theirs (R294). -/
structure Group where
  members : List Nat := []
  queue   : List RepOp := []
  phase   : Nat := 0
  owed    : List Nat := []
  deriving DecidableEq, Repr

/-- A step entry of the boot record (R344). -/
structure BootStep where
  outcome  : Nat := 0
  attempts : Nat := 0
  path     : BitVec 32 := 0#32
  round    : Word := 0#64
  digest   : BitVec 384 := 0#384
  deriving DecidableEq, Repr

/-- A copy of the boot record (R344): its sequence number, its step entries, the commands discarded (R349). -/
structure BootCopy where
  seq       : Nat := 0
  steps     : Map BootStep := []
  discarded : Nat := 0
  deriving DecidableEq, Repr

/-- Leadership as a package holds it (R348, R349): among it the last heartbeat it has forwarded, and what a new leader has collected of
each package, its step entries and the digests of its loads (R350). -/
structure Leadership where
  listening : Bool := false
  announced : Bool := false
  withdrawn : Bool := false
  best      : Word × Word := (0#64, 0#64)
  heard     : Bool := false
  highest   : Word := 0#64
  leader    : Option (Word × Word) := Option.none
  leads     : Bool := false
  members   : List Word := []
  epoch     : Word := 0#64
  forwarded : List (Word × Word × Nat) := []
  collected : List (Nat × Map BootStep × List (BitVec 384)) := []
  seen      : List (Nat × Word × Word) := []
  coords    : List (Nat × Nat × Nat) := []
  dims      : Nat × Nat × Nat := (1, 1, 1)
  done      : List (BitVec 384 × Nat × Nat) := []
  deriving DecidableEq, Repr

/-- A storage target (R387): the job its handle is for, the controller it names, with that controller's queue pairs and their depth. -/
structure Target where
  job       : Half := 0#16
  blockSize : Nat := 512
  remote    : Bool := false
  ctrl      : Nat := 0
  pairs     : Nat := 1
  depth     : Nat := 1
  deriving DecidableEq, Repr

/-- A storage request under way, or the fill of a page-cache granule of a space (R388 to R391): the bytes a fill has read; whether it
failed. -/
structure StorageReq where
  job    : Half
  rcd    : List Byte
  fill   : Option (Nat × Nat) := Option.none
  data   : Option (List Byte) := Option.none
  failed : Bool := false
  deriving DecidableEq, Repr

/-- One shard of an edition load in flight (R396): its staging range, the attempt under way, whether it is verified. -/
structure Shard where
  idx      : Nat
  at_      : Nat
  len      : Nat
  attempts : Nat := 1
  fetched  : Bool := false
  deriving DecidableEq, Repr

/-- An edition load (R396): its record, its manifest, the buffer it is given, the slot it loads; the shards in flight, the next
shard. Stage 0 is before the slot is free, 1 the shards, 2 the publish. -/
structure EditionLoad where
  job    : Half
  rcd    : List Byte
  man    : List Byte := []
  bufAt  : Nat := 0
  slot   : Nat := 0
  stage  : Nat := 0
  next   : Nat := 0
  flight : List Shard := []
  deriving DecidableEq, Repr

/-- A buffer of an edition slot that goes back once its holds are gone (R396): the job, the descriptor, the slot. -/
structure OldSlot where
  job  : Half
  desc : Nat
  slot : Nat
  deriving DecidableEq, Repr

/-- A router of the grid (R397 to R400): this cycle's flits by input port; those on their way with the cycles left and the port;
those waiting to inject and how long the first has; the side buffer; the messages sent; the flits of messages that have not all arrived,
by source router × 4,096 + id. -/
structure Router where
  inputs  : List (Nat × BitVec 160) := []
  coming  : List (Nat × Nat × BitVec 160) := []
  inject  : List (BitVec 160) := []
  side    : Option (BitVec 160) := Option.none
  waited  : Nat := 0
  starved : Bool := false
  sent    : Map (List (BitVec 160)) := []
  partly  : Map (List (BitVec 160)) := []
  deriving DecidableEq, Repr

/-- A scale-up link (R401, R402): its egress buffer, the packets not acknowledged at link level, the messages that have taken it, the TIMEs
of the failed tries of the last millisecond. -/
structure Link where
  down    : Bool := false
  egress  : List Packet := []
  unacked : List Packet := []
  carried : List Nat := []
  failed  : List Nat := []
  deriving DecidableEq, Repr

/-- The allotment of a forme on a package (R411, R412): A in µJ and L in ms, the values that come next, the use and the ticks of the
interval. -/
structure Allot where
  limit     : Nat := 0
  len       : Nat := 1
  next      : Option (Nat × Nat) := Option.none
  used      : Nat := 0
  ticks     : Nat := 0
  exhausted : Bool := false
  deriving DecidableEq, Repr

/-- A package (R407, R339, R344, R411, R414, R417). `services` names the request queues of a job that the services of its IOD consume, by
job × 4 with 0 for storage and 1 for editions (R388, R396); `taken` holds requests popped that wait for a page; `cacheUse` the page-cache
granules, the least recently used first (R391). `boot` is the copy of the boot record in use and `bootOther` the other (R344); `orders` holds
the loads performed with what they loaded and `commands` the registrations ordered (R350); `spared` is the failed core of a galley that one has failed in, `mappedOut` the galleys
mapped out, `lostLinks` the links boot step 6 has given up and `fellDown` those marked down since (R345, R397, R401); `spareLanes` the
spare lanes in use by die (R417); `ticked` the cycle of the last accounting tick, with the programs' accounts before it (R410); `raise` a
raise of the clock that is called for (R414). -/
structure Pkg where
  time      : Nat := 0
  acc       : Nat := 0
  cycle     : Nat := 0
  rate      : Int := 0
  timed     : Bool := false
  clkStep   : Nat := 0
  evenOnly  : Bool := false
  calm      : Nat := 0
  synced    : Bool := true
  rank      : Option Nat := Option.none
  hstatus   : Word := 0xFF00000000#64
  hjob      : Half := 0#16
  hwinbase  : Word := 0#64
  waiters   : List Waiter := []
  keys      : Map KeyEntry := []
  groups    : Map Group := []
  repIn     : List RepOp := []
  impose    : List (BitVec 384 × List (Nat × Nat) × List (Nat × Nat × Nat)) := []
  loads     : Nat := 0
  lastImage : BitVec 384 := 0#384
  bootStep  : Nat := 0
  boot      : BootCopy := {}
  bootOther : BootCopy := {}
  orders    : List (BitVec 384 × List Byte × FormePlan) := []
  inputs    : List (BitVec 384) := []
  tries     : Nat := 0
  booting   : Bool := false
  booterr   : Bool := false
  reset     : Bool := true
  minVersion : Word := 0#64
  lead      : Leadership := {}
  targets   : Map Target := []
  storage   : Map StorageReq := []
  nextReq   : Nat := 0
  svcWait   : List (Nat × Nat) := []
  svcRefused : List (Nat × Nat) := []
  pageCache : Map (Nat × Nat × Nat) := []
  cacheUse  : List Nat := []
  services  : Map Nat := []
  taken     : List (Nat × List Byte) := []
  editions  : List EditionLoad := []
  oldSlots  : List OldSlot := []
  signKeys  : Map (BitVec 768) := []
  routers   : Map Router := []
  links     : Map Link := []
  dump      : Option (Word × Bool × Nat) := Option.none
  allots    : Map Allot := []
  charges   : Map Nat := []
  shadowUsed : Map Nat := []
  spared    : Map Nat := []
  mappedOut : List Nat := []
  spareLanes : Map Nat := []
  lostLinks : List Nat := []
  fellDown  : List Nat := []
  commands  : List (BitVec 384 × PodCommand) := []
  ticked    : Nat × Map Nat := (0, [])
  raise     : Bool := false
  deriving DecidableEq, Repr

/-- A shadowed buffer (R103): its package, job, base and length, the code of the first failed write since the last publish; the number
from which an operation is one issued after the SHADOW completed, once it has (R121). -/
structure Shadow where
  pkg   : Nat := 0
  job   : Half
  base  : Nat
  len   : Nat
  fault : Word := 0#64
  since : Option Nat := Option.none
  deriving DecidableEq, Repr

/-- What the machine sends outside itself. -/
inductive Output
  | coreFault (core : Nat) (cause pc info : Word)
  | hostWrite (p : Nat) (addr : Word) (data : List Byte)
  | hostAnswer (p : Nat) (data : List Byte) (poisoned : Bool)
  | preemptAnswer (c : Nat) (done : Bool)
  | keyAnswer (p : Nat) (first count : Nat) (status : Int)
  | message (p : Nat) (kind : Nat) (round serial : Word)
  | lead (p : Nat) (lead : LeadMsg) (cert : Config.Certificate) (sig : BitVec 768)
  | loadDone (p : Nat) (digest : BitVec 384)
  | accounting (p : Nat) (rcd : List Byte)
  | health (d : Nat) (rcd : List Byte)
  | answer (p : Nat) (status : Int)
  | traceResult (d q : Nat) (rcd : List Byte)
  | dump (p : Nat) (rcd : List Byte) (image shadows : List Host.Cell)
  | storageCommand (p i : Nat) (rcd : List Byte)
  | faultRecord (d space gran : Nat) (ptErr : Bool)
  | unsynced (p : Nat) (lost : Bool)
  | yields (p : Nat) (round serial : Word) (sig : BitVec 768)
  | flit (p port : Nat) (f : BitVec 160)
  | packet (p link : Nat) (pkt : Packet)
  deriving DecidableEq, Repr

/-- The machine: one pod. `cur` is the context an instruction issues for, `fetched` the instruction as fetched (R165),
`net` the messages under way, `agenda` the events that are due inside the machine, `inbox` those from outside, `sched` which
move comes next (log entry 4), `freeIdx` the count of free values used (log entry 5). -/
structure State where
  cur      : Nat
  fetched  : BitVec 32
  ctxs     : Map Ctx
  cores    : Map Core
  galleys  : Map Galley
  dies     : Map Die
  pkgs     : Map Pkg
  mem      : List Host.Cell
  poison   : List Nat
  queues   : Map Queue
  levels   : Map Level
  formes   : Map Forme
  programs : Map Program
  resvs    : Map Reservation
  bwaits   : Map (List Nat)
  jobs     : Map Nat
  shadows  : List Shadow
  stamps   : Map Clock
  net      : List Msg
  nextId   : Nat
  agenda   : List Instr
  inbox    : List Instr
  outbox   : List Output
  sched    : List Nat
  freeIdx  : Nat
  deriving DecidableEq, Repr

/-- The context of number c: what the table lists, else a context never started; context 0 of each core is the keeper with
the window core reset fixes (R19, R39). -/
def Ctx.initial (c : Nat) : Ctx :=
  if c % 16 = 0 then
    { cond := .pinned, win := { gb := 0, gn := 128, vb := 0, vn := 32, db := 0, dn := 0 }, sg := 128, sv := 32, sd := 0 }
  else {}

/-- The machine right after reset: every core's keeper has its window and issues nothing until the firmware starts it (R19,
R345, R357; log entry 1); every other context is empty, every queue and engine idle, every register 0 (log entry 3) and
memory lists nothing (log entry 2). -/
def State.reset : State :=
  { cur := 0, fetched := 0#32, ctxs := [], cores := [], galleys := [], dies := [], pkgs := [], mem := [], poison := [],
    queues := [], levels := [], formes := [], programs := [], resvs := [], bwaits := [], jobs := [], shadows := [],
    stamps := [], net := [], nextId := 0, agenda := [], inbox := [], outbox := [], sched := [], freeIdx := 0 }

end Sys2Proof.Machine
end

