-- ==== Sys2Proof/Machine/Ops.lean ====
section
/-! DEFINITION. The named operations over the state: the tables of contexts, cores, galleys, dies and packages; general,
vector, mask and operand-extension registers with presence; bytes of memory; traps, holds and the return from a trap. -/

namespace Sys2Proof.Machine

/-! ## Numbers of CTXID (R12) -/

/-- The package of a context. -/
def pkgOf (c : Nat) : Nat := c / 65536
/-- The die key of a context: package × 8 + die. -/
def dieOf (c : Nat) : Nat := c / 8192
/-- The die number of a context within its package, 0–4. -/
def dieNo (c : Nat) : Nat := c / 8192 % 8
/-- The galley key of a context. -/
def galOf (c : Nat) : Nat := c / 512
/-- The core key of a context. -/
def coreOf (c : Nat) : Nat := c / 16
/-- The galley key of a core. -/
def galOfCore (k : Nat) : Nat := k / 32
/-- The die key of a galley. -/
def dieOfGal (g : Nat) : Nat := g / 16
/-- A core of the I/O die (R23). -/
def isService (c : Nat) : Bool := dieNo c == 4
/-- The keeper: context 0 of its core (R38). -/
def isKeeper (c : Nat) : Bool := c % 16 == 0

/-! ## The tables -/

/-- The context of number c. -/
def State.ctx (s : State) (c : Nat) : Ctx := Map.get s.ctxs c (Ctx.initial c)
/-- The state with context c replaced. -/
def State.setCtx (s : State) (c : Nat) (x : Ctx) : State := { s with ctxs := Map.set s.ctxs c x }
/-- The state with context c changed by f. -/
def State.updCtx (s : State) (c : Nat) (f : Ctx → Ctx) : State := s.setCtx c (f (s.ctx c))
/-- The context an instruction issues for. -/
def State.me (s : State) : Ctx := s.ctx s.cur
/-- The core of key k. -/
def State.core (s : State) (k : Nat) : Core := Map.get s.cores k {}
/-- The state with core k replaced. -/
def State.setCore (s : State) (k : Nat) (x : Core) : State := { s with cores := Map.set s.cores k x }
/-- The state with core k changed by f. -/
def State.updCore (s : State) (k : Nat) (f : Core → Core) : State := s.setCore k (f (s.core k))
/-- The galley of key g. -/
def State.galley (s : State) (g : Nat) : Galley := Map.get s.galleys g {}
/-- The state with galley g changed by f. -/
def State.updGal (s : State) (g : Nat) (f : Galley → Galley) : State :=
  { s with galleys := Map.set s.galleys g (f (s.galley g)) }
/-- The die of key d. -/
def State.die (s : State) (d : Nat) : Die := Map.get s.dies d {}
/-- The state with die d changed by f. -/
def State.updDie (s : State) (d : Nat) (f : Die → Die) : State := { s with dies := Map.set s.dies d (f (s.die d)) }
/-- The package p. -/
def State.pkg (s : State) (p : Nat) : Pkg := Map.get s.pkgs p {}
/-- The state with package p changed by f. -/
def State.updPkg (s : State) (p : Nat) (f : Pkg → Pkg) : State := { s with pkgs := Map.set s.pkgs p (f (s.pkg p)) }
/-- The queue of a key: job × 65536 + handle (R56). -/
def State.queue (s : State) (q : Nat) : Queue := Map.get s.queues q {}
/-- The state with queue q replaced. -/
def State.setQueue (s : State) (q : Nat) (x : Queue) : State := { s with queues := Map.set s.queues q x }
/-- The level record of a key. -/
def State.level (s : State) (l : Nat) : Level := Map.get s.levels l {}
/-- The state with level record l replaced. -/
def State.setLevel (s : State) (l : Nat) (x : Level) : State := { s with levels := Map.set s.levels l x }
/-- The loaded program of a handle. -/
def State.program (s : State) (h : Nat) : Program := Map.get s.programs h {}
/-- The state with program h changed by f. -/
def State.updProgram (s : State) (h : Nat) (f : Program → Program) : State :=
  { s with programs := Map.set s.programs h (f (s.program h)) }
/-- The forme of an index. -/
def State.forme (s : State) (f : Nat) : Forme := Map.get s.formes f {}
/-- The state with forme f changed by g. -/
def State.updForme (s : State) (f : Nat) (g : Forme → Forme) : State :=
  { s with formes := Map.set s.formes f (g (s.forme f)) }

/-- Whether p is a package of the load-store domain: rank 0 and every package the table lists (log entry 9). -/
def State.hasPkg (s : State) (p : Nat) : Bool := p == 0 || (Map.find s.pkgs p).isSome

/-- One more event that is due. -/
def State.due (s : State) (e : Instr) : State := { s with agenda := s.agenda ++ [e] }
/-- One more output to the outside. -/
def State.emit (s : State) (o : Output) : State := { s with outbox := s.outbox ++ [o] }
/-- A free value, and the state that has used it (log entry 5). -/
def State.free (s : State) : Word × State := (Config.freeValue s.freeIdx, { s with freeIdx := s.freeIdx + 1 })

/-! ## Bytes -/

/-- Little-endian bytes as a number (R5). -/
def leNat : List Byte → Nat
  | [] => 0
  | b :: r => b.toNat + 256 * leNat r

/-- The n low bytes of a number, least significant first (R5). -/
def leBytes : Nat → Nat → List Byte
  | 0, _ => []
  | n + 1, x => BitVec.ofNat 8 x :: leBytes n (x / 256)

/-- Field [off, off + n) of a record as a number. -/
def recNat (r : List Byte) (off n : Nat) : Nat := leNat ((r.drop off).take n)

/-- The cell key of package physical address a of package p (R367). -/
def physKey (p a : Nat) : Nat := p * 2 ^ 56 + a
/-- The cell key of byte o of the local store of core k (R91, R330). -/
def lsKey (k o : Nat) : Nat := k / 4096 * 2 ^ 56 + 3 * 2 ^ 54 + k % 4096 * 2 ^ 18 + o
/-- The package physical address at which bank memory begins (R367). -/
def bankBase : Nat := 0x8000000000
/-- Whether a cell key lies in bank memory (R97, R367). -/
def isBank (k : Nat) : Bool :=
  k % 2 ^ 56 < 3 * 2 ^ 54 && bankBase ≤ k % 2 ^ 50 && k % 2 ^ 50 < bankBase + 4 * 0x4000000
/-- Whether a cell key lies in a local store. -/
def isLs (k : Nat) : Bool := 3 * 2 ^ 54 ≤ k % 2 ^ 56
/-- The die number where a cell lives (R108, R367, R91). -/
def homeDieNo (k : Nat) : Nat :=
  let a := k % 2 ^ 50
  if isLs k then k / 2 ^ 27 % 8
  else if bankBase ≤ a then (a - bankBase) / 0x4000000 % 4
  else a / 0x1800000000 % 4
/-- The die key where a cell lives. -/
def homeDie (k : Nat) : Nat := k / 2 ^ 56 * 8 + homeDieNo k
/-- The granule of a cell under its error code (R371). -/
def granule (k : Nat) : Nat := if isLs k || isBank k then k / 8 * 8 else k / 32 * 32

/-- The byte at a cell. -/
def State.byte (s : State) (k : Nat) : Byte := Memory.read s.mem k
/-- n bytes from cell k upward. -/
def State.bytes (s : State) (k : Nat) : Nat → List Byte
  | 0 => []
  | n + 1 => s.byte k :: State.bytes s (k + 1) n
/-- Bytes written from an address upward, in canonical form. -/
def Memory.writes : Memory → Nat → List Byte → Memory
  | m, _, [] => m
  | m, a, b :: r => Memory.writes (Memory.write m a b) (a + 1) r
/-- A granule whose every byte [k, k + n) covers loses its poison (R373). -/
def coveredGranule (k n g : Nat) : Bool :=
  let size := if isLs g || isBank g then 8 else 32
  decide (k ≤ g) && decide (g + size ≤ k + n)
/-- The state with bytes written at cell k upward. -/
def State.setBytes (s : State) (k : Nat) (bs : List Byte) : State :=
  { s with mem := Memory.writes s.mem k bs, poison := s.poison.filter (fun g => !coveredGranule k bs.length g) }
/-- The poison of the granules that some ranges of cells cover together is cleared (R373). -/
def State.clearCovered (s : State) (rs : List (Nat × Nat)) : State :=
  let whole (g : Nat) : Bool := (List.range (if isLs g || isBank g then 8 else 32)).all (fun i =>
    rs.any (fun r => decide (r.1 ≤ g + i) && decide (g + i < r.1 + r.2)))
  { s with poison := s.poison.filter (fun g => !whole g) }
/-- Whether a byte of [k, k + n) lies in a poisoned granule (R371). -/
def State.poisoned (s : State) (k n : Nat) : Bool := s.poison.any (fun g => decide (granule k ≤ g) && decide (g < k + n))
/-- The number in n bytes at cell k. -/
def State.load (s : State) (k n : Nat) : Nat := leNat (s.bytes k n)

/-! ## Registers of a context (R16 to R20) -/

/-- General register i of context c; g0 is 0 and present (R18). -/
def State.gReg (s : State) (c i : Nat) : GReg :=
  if i = 0 then {} else Map.get (s.core (coreOf c)).g ((s.ctx c).win.gb + i) {}
/-- The state with general register i of context c replaced; g0 discards (R18). -/
def State.setGReg (s : State) (c i : Nat) (r : GReg) : State :=
  if i = 0 then s
  else
    let b := (s.ctx c).win.gb + i
    s.updCore (coreOf c) (fun k => { k with g := Map.set k.g b r })
/-- Vector register i of context c. -/
def State.vReg (s : State) (c i : Nat) : VReg := Map.get (s.core (coreOf c)).v ((s.ctx c).win.vb + i) {}
/-- The state with vector register i of context c replaced. -/
def State.setVReg (s : State) (c i : Nat) (r : VReg) : State :=
  let b := (s.ctx c).win.vb + i
  s.updCore (coreOf c) (fun k => { k with v := Map.set k.v b r })
/-- Distribution register i of context c. -/
def State.dReg (s : State) (c i : Nat) : DReg := Map.get (s.core (coreOf c)).d ((s.ctx c).win.db + i) {}
/-- The state with distribution register i of context c replaced. -/
def State.setDReg (s : State) (c i : Nat) (r : DReg) : State :=
  let b := (s.ctx c).win.db + i
  s.updCore (coreOf c) (fun k => { k with d := Map.set k.d b r })
/-- Mask i of a context; m0 reads 0xFFFF (R18). -/
def Ctx.mask (x : Ctx) (i : Nat) : Half := if i = 0 then 0xFFFF#16 else Map.get x.masks i 0#16
/-- The context with mask i replaced; m0 discards (R18). -/
def Ctx.setMask (x : Ctx) (i : Nat) (m : Half) : Ctx := if i = 0 then x else { x with masks := Map.set x.masks i m }
/-- Operand-extension register i of a context (R160). -/
def Ctx.oxr (x : Ctx) (i : Nat) : Word := Map.get x.ox i 0#64
/-- The context with operand-extension register i replaced. -/
def Ctx.setOx (x : Ctx) (i : Nat) (v : Word) : Ctx := { x with ox := Map.set x.ox i v }

/-- A local write of a general register: value, presence, the arm cleared (R20, R231, R373). -/
def State.putG (s : State) (c i : Nat) (v : Word) : State := s.setGReg c i { val := v }
/-- A write of a vector register: present; the lanes w are written, the others only written back, so that their poison stays (R20,
R373). -/
def State.putV (s : State) (c i : Nat) (v : VWord) (w : Half := BitVec.allOnes 16) : State :=
  s.setVReg c i { val := v, poison := (s.vReg c i).poison &&& ~~~w }
/-- A general register with another presence. -/
def State.markG (s : State) (c i : Nat) (p : Presence) : State := s.setGReg c i { s.gReg c i with st := p }
/-- A vector register with another presence. -/
def State.markV (s : State) (c i : Nat) (p : Presence) : State := s.setVReg c i { s.vReg c i with st := p }
/-- A pair of vector registers as one 1,024-bit value (R127). -/
def State.vPair (s : State) (c i : Nat) : BitVec 1024 := (s.vReg c (i + 1)).val ++ (s.vReg c i).val
/-- A write of a pair in the lanes w. -/
def State.putPair (s : State) (c i : Nat) (v : BitVec 1024) (w : BitVec 32 := BitVec.allOnes 32) : State :=
  (s.putV c i (v.extractLsb' 0 512) (w.extractLsb' 0 16)).putV c (i + 1) (v.extractLsb' 512 512) (w.extractLsb' 16 16)

/-- The QMAP slot of a general register, when it is mapped: the queue handle (R69, R70). -/
def Ctx.mapped (x : Ctx) (i : Nat) : Option Nat :=
  if i < 124 then none
  else
    let h := (x.ctl.qmap.extractLsb' (16 * (i - 124)) 16).toNat
    if h = 0 then none else some h

/-- The key of queue h of the context's job. -/
def Ctx.qkey (x : Ctx) (h : Nat) : Nat := x.job.toNat * 65536 + h

/-- The mapped registers with the keys of their queues (R69, R70). -/
def Ctx.mapping (x : Ctx) : List (Nat × Nat) := [124, 125, 126, 127].filterMap (fun i => (x.mapped i).map (fun h => (i, x.qkey h)))

/-- A general register of the current context is the destination of a result to come: pending, unless it is mapped (R20, R70). -/
def State.awaitG (s : State) (i : Nat) : State := if (s.me.mapped i).isSome then s else s.markG s.cur i .pending

/-- The value an instruction of the current context reads from general register i; a mapped register keeps its held value
(R70). -/
def State.g (s : State) (i : Nat) : Word :=
  (s.gReg s.cur i).val

/-- Vector register i of the current context. -/
def State.v (s : State) (i : Nat) : VWord := (s.vReg s.cur i).val

/-! ## Traps (R267, R351 to R357) -/

/-- Codes of R351. -/
def causeILL : Byte := 0x01#8
/-- REGLIM. -/
def causeREGLIM : Byte := 0x02#8
/-- PEND. -/
def causePEND : Byte := 0x03#8
/-- ALIGN. -/
def causeALIGN : Byte := 0x04#8
/-- XLATE. -/
def causeXLATE : Byte := 0x05#8
/-- PROT. -/
def causePROT : Byte := 0x06#8
/-- NACK. -/
def causeNACK : Byte := 0x07#8
/-- RKEY. -/
def causeRKEY : Byte := 0x08#8
/-- FPX. -/
def causeFPX : Byte := 0x0A#8
/-- DIVZ. -/
def causeDIVZ : Byte := 0x0B#8
/-- ECC. -/
def causeECC : Byte := 0x0C#8
/-- CANCEL. -/
def causeCANCEL : Byte := 0x0D#8
/-- BRKPT. -/
def causeBRKPT : Byte := 0x0E#8
/-- WATCH. -/
def causeWATCH : Byte := 0x0F#8
/-- STEP. -/
def causeSTEP : Byte := 0x10#8
/-- TRAPI. -/
def causeTRAPI : Byte := 0x11#8
/-- PRIV. -/
def causePRIV : Byte := 0x12#8

/-- TRAPSAVE.inh: a handler is running (R266). -/
def TrapRegs.inh (t : TrapRegs) : Bool := t.save.getLsbD 48

/-- The four trap registers as a trap writes them (R266, R352). -/
def TrapRegs.record (r : TrapRegs) (t : PendTrap) : TrapRegs :=
  { r with
    cause := (if t.imp then 0x100#64 else 0#64) ||| t.cause.setWidth 64
    pc := (t.pc.setWidth 48).setWidth 64
    addr := t.addr
    info := t.info }

/-- The keeper of core k stops: it issues nothing, and a fault record goes to the firmware (R357). -/
def State.stopKeeper (s : State) (k : Nat) : State :=
  let t := (s.ctx (16 * k)).tr
  (s.updCore k (fun x => { x with stopped := true })).emit (.coreFault k t.cause t.pc t.info)

/-- Entry of a trap into the context's own handler (R267): the trap registers are written; with a handler already
running, but for CANCEL, or without a handler address, the context is held with cause 6, a keeper stopped (R357);
otherwise TRAPSAVE takes the resume address with inh set and the PC takes TRAPVEC. A precise trap that is pending when an
attributed-imprecise one is taken stays for the slot after TRET (R96, R355). Under STEPCTL the delivery ends the step: STEP is taken before
the handler's first instruction issues, with TRAPPC the instruction the trap names (R378; DEDUCED, log entry 76). -/
def State.enterTrap (s : State) (c : Nat) (t : PendTrap) (resume : Word) : State :=
  let x := s.ctx c
  let tr := x.tr.record t
  if (tr.inh && t.cause != causeCANCEL) || tr.vec == 0#64 then
    let s := s.setCtx c { x with
      tr := tr, wait := .none, precise := if t.imp then x.precise else none, hold := if isKeeper c then x.hold else .unhandled }
    if isKeeper c then s.stopKeeper (coreOf c) else s
  else
    s.setCtx c { x with
      tr := { tr with save := 0x1000000000000#64 ||| (resume.setWidth 48).setWidth 64 }
      pc := tr.vec
      wait := .none
      precise := none
      later := if t.imp && x.precise.isSome then x.precise else x.later
      stepPend := if x.dbg.step.getLsbD 0 then some t.pc else x.stepPend }

/-! ## The proof buffer and the energy estimate (R382 to R384, R409) -/

/-- The galley of its die a trace records (R382). -/
def Trace.galley (t : Trace) : Nat := recNat t.rcd 0 1
/-- The trace records continuously (R382). -/
def Trace.continuous (t : Trace) : Bool := recNat t.rcd 1 1 == 1

/-- The trace that records galley g now. -/
def State.tracing (s : State) (g : Nat) : Option Trace :=
  match (s.die (dieOfGal g)).traces with
  | t :: _ => if t.running && t.galley == g % 16 then some t else none
  | [] => none

/-- The running trace of die d as it goes on. -/
def State.setTrace (s : State) (d : Nat) (t : Trace) : State :=
  s.updDie d (fun x => { x with traces := t :: x.traces.drop 1 })

/-- The last cycle a trace records, once it is known: 65,536 cycles from its start, or that of the first debug hold (R382). -/
def Trace.last (t : Trace) : Option Nat :=
  match t.stop with
  | some e => some e
  | none => if t.continuous then none else some (t.start + 65535)

/-- A trace records a cycle. -/
def Trace.covers (t : Trace) (cyc : Nat) : Bool := match t.last with | some e => decide (cyc ≤ e) | none => true

/-- The row of a cycle: the buffer's 65,536 rows are used in turn (R382, R383; DEDUCED, log entry 70). -/
def Trace.row (t : Trace) (cyc : Nat) : Nat := (cyc - t.start) % 65536

/-- The entry of core k in the row of cycle cyc (R383). -/
def State.traceEntry (s : State) (k cyc : Nat) (w : Word) : State :=
  match s.tracing (galOfCore k) with
  | none => s
  | some t => if t.covers cyc then s.setTrace (k / 512) { t with rows := Map.set t.rows (t.row cyc * 32 + k % 32) w } else s

/-- The entry of an issue (R383). -/
def issueEntry (c : Nat) (pc : Word) : Word :=
  BitVec.ofNat 64 (2 ^ 31 + c % 16 * 2 ^ 27 + pc.toNat / 2 % 2 ^ 27)

/-- An event of the trace's log (R384), when its galley is traced: 16 bytes at the next place, or one more dropped. -/
def State.traceEvent (s : State) (c kind : Nat) (prog : BitVec 32) (pc : Word) : State :=
  match s.tracing (galOf c) with
  | none => s
  | some t =>
    let d := dieOf c
    let cyc := (s.pkg (pkgOf c)).cycle
    if !t.covers cyc then s
    else if recNat t.rcd 32 8 < (t.events + 1) * 16 then s.setTrace d { t with dropped := t.dropped + 1 }
    else
      let bs := leBytes 4 (t.row cyc) ++ leBytes 1 (coreOf c % 32) ++ leBytes 1 (c % 16) ++ leBytes 2 kind ++ leBytes 4 prog.toNat ++
        leBytes 4 (pc.toNat / 2 ^ 28 % 2 ^ 20)
      (s.setTrace d { t with events := t.events + 1 }).setBytes (physKey (pkgOf c) (recNat t.rcd 24 8 + 16 * t.events)) bs

/-- The first debug hold in its galley is the last cycle of a trace that records continuously (R382). -/
def State.traceHold (s : State) (c : Nat) (h : Hold) : State :=
  match h with
  | .brkpt _ | .watch _ | .step =>
    (match s.tracing (galOf c) with
      | some t => if t.continuous && t.stop.isNone then s.setTrace (dieOf c) { t with stop := some (s.pkg (pkgOf c)).cycle } else s
      | none => s)
  | _ => s

/-- One more of an activity that a program's energy estimate counts on package p (R409). -/
def State.count (s : State) (p : Nat) (prog : BitVec 32) (activity n : Nat) : State :=
  s.updPkg p (fun x => { x with charges := Map.modify x.charges (prog.toNat * 256 + activity) 0 (· + n) })

/-- The activity an issue counts as: the major of the instruction as fetched, 128 for a compact form (R409). -/
def activityOf (w : BitVec 32) : Nat := if w.getLsbD 31 then w.toNat / 2 ^ 25 else 128

/-- What an issue leaves outside its core: its entry in the proof buffer and its part of the energy estimate (R383, R409). -/
def State.noteIssue (s : State) : State :=
  (s.traceEntry (coreOf s.cur) (s.core (coreOf s.cur)).cycle (issueEntry s.cur s.me.pc)).count (pkgOf s.cur) s.me.program
    (activityOf s.fetched) 1

/-! ## Holds and slots -/

/-- A trap delivered to the keeper (R356): the trap registers are written and the context is held with the cause given; the
keeper's own goes to its own handler (R38). -/
def State.holdTrap (s : State) (c : Nat) (h : Hold) (t : PendTrap) (resume : Word) : State :=
  if isKeeper c then s.enterTrap c t resume
  else (s.traceHold c h).updCtx c (fun x => { x with tr := x.tr.record t, hold := h })

/-- The slot of the current context is used: it issued last, at this cycle of its core (R14). -/
def State.useSlot (s : State) : State :=
  let k := coreOf s.cur
  let cyc := (s.core k).cycle
  ((s.noteIssue).updCtx s.cur (fun x => { x with lastIssue := some cyc, skipBrk := false, skipWatch := false, refused := none })).updCore k
    (fun x => { x with last := s.cur % 16, cycle := cyc + 1 })

/-- The current instruction takes a precise trap to the context's own handler (R353, R267). -/
def State.trap (s : State) (cause : Byte) (addr info : Word) : State :=
  let pc := s.me.pc
  s.useSlot.enterTrap s.cur { imp := false, cause := cause, pc := pc, addr := addr, info := info } pc

/-- ILL with a reason of R165; the instruction as fetched goes to TRAPINFO[31:0]. -/
def State.trapIll (s : State) (reason : Nat) : State :=
  s.trap causeILL 0#64 (BitVec.ofNat 64 (s.fetched.toNat + reason * 2 ^ 32))

/-- PROT with a reason in TRAPINFO[7:0] (R352). -/
def State.trapProt (s : State) (addr : Word) (reason : Nat) : State := s.trap causePROT addr (BitVec.ofNat 64 reason)

/-- PRIV: the context is held for its keeper (R38, R356). -/
def State.trapPriv (s : State) : State :=
  let pc := s.me.pc
  s.useSlot.holdTrap s.cur .priv
    { imp := false, cause := causePRIV, pc := pc, addr := 0#64, info := s.fetched.setWidth 64 } pc

/-- The precise trap that is taken up again at the return from a trap: the one set aside, when the return goes to its
instruction (R96, R267). -/
def Ctx.tret (x : Ctx) : Option PendTrap :=
  match x.later with
  | some t => if t.pc == (x.tr.save.setWidth 48).setWidth 64 then some t else x.precise
  | none => x.precise

/-- The return from a trap (R267), a step under STEPCTL as any other instruction (R378): inh cleared, the PC takes the resume address; outside a handler PROT reason 25. -/
def State.tret (s : State) : State :=
  let x := s.me
  if x.tr.inh then
    let s := s.useSlot
    s.updCtx s.cur (fun x => { x with
      tr := { x.tr with save := (x.tr.save.setWidth 48).setWidth 64 }
      pc := (x.tr.save.setWidth 48).setWidth 64
      wait := .none
      issued := x.issued + 1
      precise := x.tret
      later := none
      stepPend := if x.dbg.step.getLsbD 0 then some x.pc else x.stepPend })
  else s.trapProt 0#64 25

/-! ## Issue -/

/-- What an instruction names: its length in bytes; the register fields checked against the windows in field order with
the place of each field (R155, R352); the general and vector sources and destinations (R20, R166); of vector sources of which a mask
leaves lanes unread, the lanes that are read (R190); the accesses it has made of its core's local store (R409). -/
structure Use where
  len  : Nat := 4
  lim  : List (RC × Nat × Nat) := []
  gsrc : List Nat := []
  vsrc : List Nat := []
  gdst : List Nat := []
  vdst : List Nat := []
  part : List (Nat × Half) := []
  near : Nat := 0
  deriving DecidableEq, Repr

/-- The lanes of vector source i that are read: all, unless the mask leaves some inactive (R190). -/
def Use.reads (u : Use) (i : Nat) : Half := if u.part = [] then BitVec.allOnes 16 else
  match u.part.filter (fun e => e.1 == i) with
  | [] => BitVec.allOnes 16
  | l => l.foldl (fun w e => w ||| e.2) 0#16

/-- Whether a register index lies outside the strand's window (R17, R33). -/
def Ctx.outside (x : Ctx) (c : RC) (i : Nat) : Bool :=
  match c with | .g => decide (x.sg ≤ i) | .v => decide (x.sv ≤ i) | .d => decide (x.sd ≤ i)

/-- The number of a register class in TRAPINFO (R352). -/
def RC.code : RC → Nat | .g => 0 | .v => 1 | .d => 2

/-- Whether a source general register is ready to be read: present, or mapped (its pop is a later matter). -/
def State.gReady (s : State) (c i : Nat) : Bool := ((s.ctx c).mapped i).isSome || (s.gReg c i).st == .present

/-- Whether a vector register is present. -/
def State.vReady (s : State) (c i : Nat) : Bool := (s.vReg c i).st == .present

/-- The unit the current instruction needs is taken until a cycle of its core: nothing has issued, the context stays eligible, and its
core's other contexts may have the slots before that cycle (R191). -/
def State.notUntil (s : State) (n : Nat) : State := s.updCtx s.cur (fun x => { x with notBefore := n })

/-- The current context leaves rotation; nothing has issued. -/
def State.waitFor (s : State) (w : Wait) : State := s.updCtx s.cur (fun x => { x with wait := w })

/-- Whether a queue handle of the context's job is invalid (R56). -/
def State.badHandle (s : State) (h : Nat) (q : Nat) : Bool := h == 0 || !(s.queue q).valid

/-- General registers an answer is to fill. -/
def Dest.gregs : Dest → List Nat
  | .g i _ _ => [i]
  | .vals rs => rs.filterMap (fun r => match r.1 with | .g => some r.2.1 | _ => Option.none)
  | _ => []

/-- The queue to which a message's result for general register i is pushed: the one it was mapped onto at issue (R70). -/
def Msg.pushTo (m : Msg) (i : Nat) : Option Nat := (m.pushes.find? (fun e => e.1 == i)).map (·.2)

/-- The queues to which a message's results are to be pushed; a mapped pop has none (R70). -/
def Msg.owes (m : Msg) : List Nat :=
  match m.kind with
  | .mappedPop .. => []
  | _ => m.dest.gregs.filterMap m.pushTo

/-- Pushes of context c in flight to queue q, and results under way that are to be pushed to it (R64, R70). -/
def State.inFlight (s : State) (c q : Nat) : Nat :=
  (s.net.filter (fun m => m.src == c && !m.host && (match m.kind with
    | .push q' _ => q' == q
    | _ => m.epoch == (s.ctx c).epoch && !m.drop && m.owes.contains q))).length

/-- The flow window of a queue (R64). -/
def Queue.window (q : Queue) : Nat := if q.flow ≠ 0 then q.flow else if q.cap ≠ 0 then q.cap else 1

/-- One more push of context c to queue q would pass the flow window (R64). -/
def State.flowFull (s : State) (c q : Nat) : Bool := !(s.queue q).closed && decide ((s.queue q).window ≤ s.inFlight c q)

/-- A program, by its index, is among a queue's consumers (R57). -/
def Queue.consumedBy (q : Queue) (prog : BitVec 32) : Bool := q.consumers.contains (prog.setWidth 16)

/-- An event that is due once, however often it is asked for. -/
def State.dueOnce (s : State) (e : Instr) : State := if s.agenda.contains e then s else s.due e

/-- An instruction names a queue that is not resident: the queue service is asked, and the context waits (R67). -/
def State.queueMiss (s : State) (q : Nat) : State := (s.dueOnce (.queueMissService q)).waitFor (.miss q)

/-- A message joins the network under a new number, and its event is due. -/
def State.send (s : State) (m : Msg) (ev : Nat → Instr) : State :=
  { s with net := s.net ++ [{ m with id := s.nextId }], nextId := s.nextId + 1, agenda := s.agenda ++ [ev s.nextId] }

/-- The debug registers whose watchpoints an issue meets: none for the issue after a release that suppresses them (R379). -/
def Ctx.watchRegs (x : Ctx) : DebugRegs := if x.skipWatch then {} else x.dbg

/-- A message of the current context. -/
def State.msg (s : State) (k : MsgKind) : Msg :=
  { id := 0, src := s.cur, epoch := s.me.epoch, pc := s.me.pc, job := s.me.job, prog := s.me.program, kind := k,
    seen := (s.die (dieOf s.cur)).clock, time := (s.pkg (pkgOf s.cur)).time, watch := s.me.watchRegs,
    pushes := s.me.mapping }

/-- A place lies in another package than p. -/
def Loc.beyond (l : Loc) (p : Nat) : Bool :=
  match l with
  | .cell k => k / 2 ^ 56 != p
  | .local c _ => c / 4096 != p
  | .priv c _ | .owned c _ => pkgOf c != p
  | .remote key _ | .accepted key _ => key / 2 ^ 26 != p

/-- A strand of a program that f accepts runs, is saved, is suspended at a place or still to begin, or is a slug in a queue, with the
pager, at a galley, on its way or pending a gang tick, outside package p (R117). -/
def State.strandBeyond (s : State) (p : Nat) (f : BitVec 32 → Bool) : Bool :=
  let slug (l : Slug) : Bool := f (l.dw2.extractLsb' 0 32)
  s.ctxs.any (fun e => pkgOf e.1 != p && (e.2.cond == .pinned || e.2.cond == .pooled) && f e.2.program) ||
  s.cores.any (fun k => k.1 / 4096 != p && k.2.slots.any (fun e => e.2.used && f e.2.program)) ||
  s.programs.any (fun e => f (BitVec.ofNat 32 e.1) && (e.2.toStart.any (fun k => k / 4096 != p) || e.2.parked.any (fun l => l.beyond p))) ||
  s.formes.any (fun e => e.2.pending.any (fun l => l.1 != p && slug l.2)) ||
  s.queues.any (fun q => q.2.homePkg != p && q.2.etype == 3#2 && q.2.entries.any (fun e => f (e.payload.extractLsb' 128 32))) ||
  s.dies.any (fun d => d.1 / 8 != p && d.2.faults.any (fun r => r.slugs.any (fun l => slug l.1))) ||
  s.galleys.any (fun g => g.1 / 128 != p && g.2.migr.any (fun l => slug l.1)) ||
  s.net.any (fun m => match m.kind with
    | .push q e => (s.queue q).homePkg != p && (s.queue q).etype == 3#2 && f (e.payload.extractLsb' 128 32)
    | _ => false)

/-- The scope of the release a push of context c to a queue is (R117): the smallest that holds the producer, the home and every
consumer's instances, the package when none lies beyond it. -/
def State.pushScope (s : State) (c q : Nat) : Scope :=
  let x := s.queue q
  if x.homePkg ≠ pkgOf c || x.consumers.contains 0xFFFE#16 ||
      s.strandBeyond (pkgOf c) (fun h => h.toNat / 65536 == x.owner.toNat && x.consumedBy h) then .sys else .pkg

/-- A push of the current context (R244). -/
def State.pushMsg (s : State) (q : Nat) (e : QEntry) : Msg :=
  { s.msg (.push q { e with prog := s.me.program }) with sc := s.pushScope s.cur q }

/-- The message of a number. -/
def State.message (s : State) (id : Nat) : Option Msg := s.net.find? (fun m => m.id == id)
/-- The state with a message replaced. -/
def State.setMsg (s : State) (m : Msg) : State := { s with net := s.net.map (fun x => if x.id = m.id then m else x) }
/-- The state without a message. -/
def State.dropMsg (s : State) (id : Nat) : State := { s with net := s.net.filter (fun m => m.id != id) }

/-- The first mapped source without a held value: what must be done before the instruction may issue (R70). -/
def State.mappedSource (s : State) (i : Nat) (h : Nat) : Option State :=
  let x := s.me
  let q := x.qkey h
  if s.badHandle h q then some (s.trapProt (BitVec.ofNat 64 h) 12)
  else if (s.queue q).etype != 0#2 then some (s.trapProt (BitVec.ofNat 64 h) 11)
  else if x.held.contains (i - 124) then none
  else if (s.gReg s.cur i).st == .pending then some (s.waitFor (.mapped i))
  else if !(s.queue q).consumedBy x.program then some (s.trapProt (BitVec.ofNat 64 h) 14)
  else if !(s.queue q).resident then some (s.queueMiss q)
  else some (((s.markG s.cur i .pending).send (s.msg (.mappedPop q (i - 124))) .queuePopAtHome).waitFor (.mapped i))

/-- What stands in the way of a mapped destination (R70): a bad queue, or the flow window. -/
def State.mappedDest (s : State) (h : Nat) : Option State :=
  let q := s.me.qkey h
  if s.badHandle h q then some (s.trapProt (BitVec.ofNat 64 h) 12)
  else if (s.queue q).etype != 0#2 then some (s.trapProt (BitVec.ofNat 64 h) 11)
  else if !(s.queue q).resident then some (s.queueMiss q)
  else if s.flowFull s.cur q then some (s.waitFor (.flow q))
  else none

/-- The first of a list of sources or destinations that stands in the way. -/
def firstBlock (f : Nat → Nat → Option State) (x : Ctx) : List Nat → Option State
  | [] => none
  | i :: r => match x.mapped i with
    | none => firstBlock f x r
    | some h => match f i h with
      | some s => some s
      | none => firstBlock f x r

/-- The checks of issue (R164, R166, R14, R20), then the instruction: REGLIM of the first field outside its window; a wait
for the first source that is absent; PEND of the first destination whose producer is pending; ECC of a poisoned source
(R372); pops of mapped sources and the flow window of mapped destinations (R70). -/
def State.issue (s : State) (u : Use) (body : State → State) : State :=
  let x := s.me
  match u.lim.find? (fun f => x.outside f.1 f.2.1) with
  | some (c, i, lsb) => s.trap causeREGLIM 0#64 (BitVec.ofNat 64 (i + c.code * 256 + lsb * 1024))
  | none =>
  match u.gsrc.find? (fun i => !s.gReady s.cur i) with
  | some i => s.waitFor (.reg .g i)
  | none =>
  match u.vsrc.find? (fun i => !s.vReady s.cur i) with
  | some i => s.waitFor (.reg .v i)
  | none =>
  match u.gdst.find? (fun i => (x.mapped i).isNone && (s.gReg s.cur i).st == .pending) with
  | some i => s.trap causePEND 0#64 (BitVec.ofNat 64 i)
  | none =>
  match u.vdst.find? (fun i => (s.vReg s.cur i).st == .pending) with
  | some i => s.trap causePEND 0#64 (BitVec.ofNat 64 (i + 256))
  | none =>
  match u.gsrc.find? (fun i => (x.mapped i).isNone && (s.gReg s.cur i).poison) with
  | some i => s.trap causeECC 0#64 (BitVec.ofNat 64 (1 + i * 256))
  | none =>
  match u.vsrc.find? (fun i => (s.vReg s.cur i).poison &&& u.reads i != 0#16) with
  | some i => s.trap causeECC 0#64 (BitVec.ofNat 64 (1 + i * 256 + 65536))
  | none =>
  match firstBlock (fun i h => s.mappedSource i h) x u.gsrc with
  | some s' => s'
  | none =>
  match firstBlock (fun _ h => s.mappedDest h) x u.gdst with
  | some s' => s'
  | none => body s

/-- The accesses of the register files and of the core's local store that an issued instruction adds to its program's energy estimate
(R409; log entry 7): one for each register it names. -/
def State.noteUse (s : State) (u : Use) : State :=
  (s.count (pkgOf s.cur) s.me.program 203 (u.gsrc.length + u.vsrc.length + u.gdst.length + u.vdst.length)).count (pkgOf s.cur)
    s.me.program 204 u.near

/-- The instruction has issued and goes on at npc (R151, R262): its slot is used, ISSUED counts it, held values it read are
consumed (R70), and a step under STEPCTL is noted (R378). -/
def State.finishAt (s : State) (u : Use) (npc : Word) : State :=
  let s := s.useSlot.noteUse u
  s.updCtx s.cur (fun x => { x with
    pc := npc
    wait := .none
    issued := x.issued + 1
    held := x.held.filter (fun j => !u.gsrc.contains (j + 124))
    stepPend := if x.dbg.step.getLsbD 0 then some x.pc else x.stepPend })

/-- The instruction has issued and goes on at the next one. -/
def State.finish (s : State) (u : Use) : State := s.finishAt u (s.me.pc + BitVec.ofNat 64 u.len)

/-- The result of an instruction of 8 cycles or less is written (R15, R166): a mapped register pushes it as a class-0 word
entry (R70), g0 discards it. -/
def State.writeG (s : State) (i : Nat) (v : Word) : State :=
  match s.me.mapped i with
  | some h =>
    s.send (s.pushMsg (s.me.qkey h) { payload := v.setWidth 512 }) .queuePushAtHome
  | none => s.putG s.cur i v

/-- FPFLAGS after a write of v in cycle cyc: flags that land then or later are not lost (R135). -/
def Ctx.flagsAfter (x : Ctx) (v : Word) (cyc : Nat) : Word := if cyc ≤ x.late.1 then v ||| x.late.2.setWidth 64 else v

/-- FPFLAGS of context c with flags ORed in (R135). -/
def State.raise (s : State) (c : Nat) (fl : Flags) : State :=
  s.updCtx c (fun x => { x with ctl := { x.ctl with fpflags := x.ctl.fpflags ||| fl.setWidth 64 } })

/-- The flags of a result of 8 cycles or less of the current context, which land l cycles on: its own next instruction, the first that
can read FPFLAGS, issues 8 cycles on or later, so they are ORed in at once and kept beside for a write of FPFLAGS in the cycle they
land in (R14, R135). -/
def State.raiseLate (s : State) (l : Nat) (fl : Flags) : State :=
  if fl = 0#5 then s
  else (s.raise s.cur fl).updCtx s.cur (fun x => { x with
    late := ((s.core (coreOf s.cur)).cycle + l, fl) })

/-- A result of latency l, at most 8, with flags: precise FPX when an enabled exception was raised (R136), lanes in TRAPINFO[20:5]. -/
def State.fpResult (s : State) (l : Nat) (fl : Flags) (lanes : Half) (k : State → State) : State :=
  let en := enabledFlags s.me.ctl.fpctl fl
  if en != 0#5 then s.trap causeFPX 0#64 (BitVec.ofNat 64 (en.toNat + lanes.toNat * 32))
  else k (s.raiseLate l fl)

/-- The result of a long unit under way: the destinations pending at issue, the values landing later, vectors in the lanes w, with their
flags and, for an enabled exception, the attributed-imprecise FPX (R20, R135, R136, R170). -/
def State.longResult (s : State) (u : Use) (rs : List (RC × Nat × Nat)) (fl : Flags) (lanes : Half)
    (w : BitVec 32 := BitVec.allOnes 32) : State :=
  let en := enabledFlags s.me.ctl.fpctl fl
  let t : Option PendTrap := if en != 0#5 then some
    { imp := true, cause := causeFPX, pc := s.me.pc, addr := 0#64, info := BitVec.ofNat 64 (en.toNat + lanes.toNat * 32) } else none
  let s := rs.foldl (fun s r => match r.1 with
    | .g => s.awaitG r.2.1
    | .v => s.markV s.cur r.2.1 .pending
    | .d => s) s
  let m := { s.msg .result with dest := .vals rs, lanes := w, flags := (if en != 0#5 then 0#5 else fl), trap := t }
  (s.send m .longLatencyResultLands).finish u

/-- Whether the strand a message was sent for still runs in its context. -/
def State.live (s : State) (m : Msg) : Bool := (s.ctx m.src).epoch == m.epoch

/-- The value of an absolute time (R407). -/
def State.time (s : State) (p : Nat) : BitVec 48 := BitVec.ofNat 48 (s.pkg p).time

/-- d less t, wrapped into −2^47 to 2^47 − 1 (R76). -/
def dist (d t : BitVec 48) : Int := (d - t).toInt

end Sys2Proof.Machine
end

