-- ==== Sys2Proof/Machine/Tables.lean ====
section
/-! DEFINITION. Page tables (spec/19_traps.md R366, R367): the fields of an entry, and what a walk of a space finds as the tables stand. -/

namespace Sys2Proof.Machine

/-- Fields of a table entry (R367). -/
def leafValid (e : Word) : Bool := e.getLsbD 63
/-- The entry maps a page. -/
def leafLeaf (e : Word) : Bool := e.getLsbD 62
/-- The read permission. -/
def leafRd (e : Word) : Bool := e.getLsbD 61
/-- The write permission. -/
def leafWr (e : Word) : Bool := e.getLsbD 60
/-- Engine-only. -/
def leafEo (e : Word) : Bool := e.getLsbD 59
/-- Pinned. -/
def leafPin (e : Word) : Bool := e.getLsbD 58
/-- Shadowed (R370). -/
def leafSh (e : Word) : Bool := e.getLsbD 57
/-- The package physical address of the page or the next table. -/
def leafAddr (e : Word) : Nat := (e.extractLsb' 8 40).toNat * 256

/-- Levels of a shared space: the shift and the number of entries (R366). -/
def sharedLevels : List (Nat × Nat) := [(42, 4096), (30, 4096), (21, 512), (16, 32)]
/-- Levels of a private region (R366). -/
def privateLevels : List (Nat × Nat) := [(30, 4), (21, 512), (16, 32)]

/-- Whether a package physical address lies in HBM4 or bank memory (R367). -/
def physOk (a : Nat) : Bool :=
  decide (a < 4 * 0x1800000000) || (decide (bankBase ≤ a) && decide (a < bankBase + 4 * 0x4000000))

/-- What a walk finds: a leaf with its page and the cell of its entry, or a fault with page-table error noted or not (R367, R368). -/
inductive Walked
  | leaf (base size at_ : Nat) (entry : Word)
  | fault (ptErr : Bool)
  deriving DecidableEq, Repr

/-- A space as the tables of package p have it: a job's shared space has tables of its own on each package (R366). -/
def onPkg (p space : Nat) : Nat := p * 2 ^ 40 + space

/-- Whether a valid entry is malformed (R367): a leaf at level 3, none at level 0, a zero field, alignment, range. -/
def malformed (e : Word) (shift : Nat) (below : Nat) : Bool :=
  (leafLeaf e && shift == 42) || (!leafLeaf e && shift == 16) || e.extractLsb' 48 9 != 0#9 ||
  leafAddr e % (if leafLeaf e then 2 ^ shift else 16 * below) != 0 || !physOk (leafAddr e)

/-- A walk from the table at physical address t of package p, by a walker that holds some non-leaf entries with their cells (R366,
R368). -/
def State.walkFrom (s : State) (cache : List (Nat × Word)) (p va : Nat) : Nat → List (Nat × Nat) → Walked
  | _, [] => .fault false
  | t, (sh, n) :: r =>
    let k := physKey p (t + va / 2 ^ sh % n * 8)
    let held := (cache.find? (fun x => x.1 == k)).map (·.2)
    let e := held.getD (BitVec.ofNat 64 (s.load k 8))
    if held.isNone && s.poisoned k 8 then .fault true
    else if !leafValid e then .fault false
    else if malformed e sh (match r with | (_, m) :: _ => m | [] => 1) then .fault true
    else if leafLeaf e then
      (if leafSh e && s.poisoned (k + 8 * n) 8 then .fault true else .leaf (va / 2 ^ sh * 2 ^ sh) (2 ^ sh) k e)
    else s.walkFrom cache p va (leafAddr e) r

/-- The root table of a space on package p, when it has one, and its levels (R366): the job's there, or the owner context's. -/
def State.rootOf (s : State) (p space : Nat) : Option Nat × List (Nat × Nat) :=
  if space < 65536 then (Map.find s.jobs (p * 65536 + space), sharedLevels)
  else ((if (s.ctx (space - 65536)).ptab = 0 then none else some (s.ctx (space - 65536)).ptab), privateLevels)

/-- A walk of a space of package p by a walker that holds some entries (R366, R368). -/
def State.walkBy (s : State) (cache : List (Nat × Word)) (p space va : Nat) : Walked :=
  match s.rootOf p space with
  | (some root, ls) => s.walkFrom cache p va root ls
  | (none, _) => .fault false

/-- What the tables of a space of package p say of an address as they stand (R366). -/
def State.walk (s : State) (p space va : Nat) : Walked := s.walkBy [] p space va

end Sys2Proof.Machine
end

