-- ==== Sys2Proof/Machine/Operands.lean ====
section
/-! DEFINITION. The operand forms of memory accesses: effective addresses under the four addressing modes (spec/04_memory.md
R83 to R91), translation (spec/19_traps.md R365 to R370), watchpoints (spec/20_debug.md R376, R377), the posted limit
(R354), the stamps of writes (spec/05_ordering.md R110), and the access of an instruction from its checks to its message. -/

namespace Sys2Proof.Machine

/-- Kinds of access, numbered as TRAPINFO of XLATE numbers them (R352). -/
inductive Acc | load | store | fetch | atomic | bankRead
  deriving DecidableEq, Repr

/-- The number of an access kind. -/
def Acc.code : Acc → Nat | .load => 0 | .store => 1 | .fetch => 2 | .atomic => 3 | .bankRead => 3
/-- Whether the access needs the read permission (R85, R218). -/
def Acc.reads : Acc → Bool | .store => false | _ => true
/-- Whether the access needs the write permission. -/
def Acc.writes : Acc → Bool | .store => true | .atomic => true | _ => false

/-- One element access of an instruction: its effective address, its size, the bytes a store stores, its element. -/
structure El where
  ea   : Word
  size : Nat
  data : List Byte := []
  elem : Nat := 0
  deriving DecidableEq, Repr

/-- What an address names before translation: a place, a virtual address of a space, or a trap (cause and information). -/
inductive Named
  | place (l : Loc)
  | virt (space va : Nat)
  | bad (cause : Byte) (info : Nat)
  deriving DecidableEq, Repr

/-- The space number of a context's private region; a job's shared space has the job's handle. -/
def privSpace (c : Nat) : Nat := 65536 + c

/-- A generic address used by context c (R83, R86, R89, R91). -/
def State.genericTarget (_s : State) (c : Nat) (job : Half) (acc : Acc) (a : Nat) : Named :=
  if 2 ^ 56 ≤ a then .bad causeXLATE (acc.code + 16)
  else match a / 2 ^ 54 with
    | 0 => .virt job.toNat a
    | 1 =>
      let owner := a / 2 ^ 32 % 2 ^ 22
      if 5 ≤ dieNo owner || (dieNo owner == 4 && 2 ≤ galOf owner % 16) then .bad causePROT 0
      else if owner = c then .virt (privSpace c) (a % 2 ^ 32)
      else .place (.priv owner (a % 2 ^ 32))
    | 2 => .place (.remote (a / 2 ^ 22 % 2 ^ 32) (a % 2 ^ 22))
    | _ =>
      let core := a / 2 ^ 18 % 4096
      if a / 2 ^ 30 % 2 ^ 24 ≠ 0 then .bad causePROT 0
      else if 5 ≤ core / 512 || (core / 512 == 4 && 2 ≤ core / 32 % 16) then .bad causePROT 0
      else .place (.local (pkgOf c * 4096 + core) (a % 2 ^ 18))

/-- An effective address under an addressing mode (R90). -/
def State.target (s : State) (c : Nat) (acc : Acc) (am : AMode) (ea : Word) : Named :=
  let a := ea.toNat
  match am with
  | .generic => s.genericTarget c (s.ctx c).job acc a
  | .ls => if 2 ^ 18 ≤ a then .bad causePROT 0 else .place (.local (coreOf c) a)
  | .gi =>
    if 2 ^ 23 ≤ a then .bad causePROT 0
    else .place (.local (galOf c * 32 + a / 4 % 32) (a / 128 * 4 + a % 4))
  | .gb => if 2 ^ 23 ≤ a then .bad causePROT 0 else .place (.local (galOf c * 32 + a / 2 ^ 18) (a % 2 ^ 18))

/-- The generic address of an element, as a watchpoint sees it (R377). -/
def gaddr (c : Nat) (am : AMode) (ea : Word) : Nat :=
  let a := ea.toNat
  let ls (core off : Nat) : Nat := 3 * 2 ^ 54 + core % 4096 * 2 ^ 18 + off
  match am with
  | .generic => a
  | .ls => ls (coreOf c) a
  | .gi => ls (galOf c * 32 + a / 4 % 32) (a / 128 * 4 + a % 4)
  | .gb => ls (galOf c * 32 + a / 2 ^ 18) (a % 2 ^ 18)

/-! ## Translation (R365 to R370) -/

/-- The entry of a galley's TLB that covers an address. -/
def Galley.lookup (g : Galley) (space va : Nat) : Option TlbEntry :=
  g.tlb.find? (fun e => e.space == space && decide (e.base ≤ va) && decide (va < e.base + e.size))

/-- What a translation gives: a cell, a trap, or a miss. -/
inductive Xlated
  | cell (k : Nat)
  | bad (cause : Byte) (info : Nat)
  | miss
  deriving DecidableEq, Repr

/-- An engine operation numbered seq writes the shadow of a shadowed page at va of package p: the SHADOW of its buffer had completed when
it was issued (R103, R121). -/
def State.afterShadow (s : State) (p space va seq : Nat) : Bool :=
  !s.shadows.any (fun b => b.pkg == p && b.job.toNat == space && decide (b.base ≤ va) && decide (va < b.base + b.len) &&
    (match b.since with | some n => decide (seq < n) | none => true))

/-- The entry an access goes through: program accesses and engine reads the leaf, an engine's write to a shadowed page the companion
(R103, R370). -/
def State.entryFor (s : State) (p space va : Nat) (acc : Acc) (eng : Option Nat) (leaf comp : Word) : Word :=
  match eng with
  | some q => if acc = .store ∧ leafSh leaf ∧ s.afterShadow p space va q then comp else leaf
  | none => leaf

/-- The translation of a virtual address for an access from galley g (R85, R365): of a program, or of an engine operation by its
number. -/
def State.translate (s : State) (g space va : Nat) (acc : Acc) (eng : Option Nat := none) : Xlated :=
  match (s.galley g).lookup space va with
  | none => .miss
  | some e =>
    if leafEo e.leaf || (acc.reads && !leafRd e.leaf) || (acc.writes && !leafWr e.leaf) then .bad causePROT 0
    else .cell (physKey (g / 128) (leafAddr (s.entryFor (g / 128) space va acc eng e.leaf e.comp) + (va - e.base)))

/-- Whether a fault record of the granule is outstanding at the die (R368). -/
def Die.faulted (d : Die) (space gran : Nat) : Bool := d.faults.any (fun f => f.space == space && f.gran == gran)
/-- Whether a walk of the granule is under way. -/
def Die.walking (d : Die) (space gran : Nat) : Bool := d.walks.any (fun w => w.space == space && w.gran == gran)

/-- Galley g among those a walk or a fault is for, and those a prefetch alone asked it for (R217, R368). -/
def joined (g : Nat) (pref : Bool) (gals prefs : List Nat) : List Nat × List Nat :=
  if gals.contains g then (gals, prefs)
  else if pref then (gals, if prefs.contains g then prefs else prefs ++ [g])
  else (gals ++ [g], prefs.filter (· ≠ g))

/-- A galley joins those a fault record concerns (R368, R369). -/
def State.joinFault (s : State) (g space gran : Nat) (pref : Bool := false) : State :=
  s.updDie (dieOfGal g) (fun x => { x with faults := x.faults.map (fun f =>
    if f.space = space ∧ f.gran = gran then
      { f with gals := (joined g pref f.gals f.prefs).1, prefs := (joined g pref f.gals f.prefs).2 } else f) })

/-- A miss of galley g, or a prefetch: it joins the outstanding fault of the granule, or its walk, or starts one (R217, R368). -/
def State.startWalk (s : State) (g space gran : Nat) (pref : Bool := false) : State :=
  let d := dieOfGal g
  if (s.die d).faulted space gran then s.joinFault g space gran pref
  else if (s.die d).walking space gran then
    s.updDie d (fun x => { x with walks := x.walks.map (fun w =>
      if w.space = space ∧ w.gran = gran then
        { w with gals := (joined g pref w.gals w.prefs).1, prefs := (joined g pref w.gals w.prefs).2 } else w) })
  else
    (s.updDie d (fun x => { x with walks := x.walks ++
      [{ space := space, gran := gran, gals := if pref then [] else [g], prefs := if pref then [g] else [] }] })).due
      (.pageWalkComplete d space gran)

/-- Whether context c holds a reservation, or waits in LRW, BWAIT or WAITV (R223, R239). -/
def State.reservationBound (s : State) (c : Nat) : Bool :=
  s.resvs.any (fun r => match r.2.holder with | some (h, _) => h == c | none => false) ||
  (match (s.ctx c).wait with | .reservation => true | .barrier => true | .waitv => true | _ => false)

/-- The lowest save slot of core k that is neither in use nor poisoned (R359). -/
def Core.freeSlot (k : Core) : Option Nat :=
  (List.range (k.savearea.extractLsb' 56 8).toNat).find? (fun i =>
    let x := Map.get k.slots i {}
    !x.used && !x.poison)

/-- A forced save of context c begins: it leaves rotation, and the save slot it will fill is in use from now on (R44, R359). -/
def State.beginSave (s : State) (c : Nat) : State :=
  if s.agenda.contains (.forcedSave c) then s
  else match (s.core (coreOf c)).freeSlot with
    | none => s
    | some i =>
      (s.updCore (coreOf c) (fun k => { k with slots := Map.set k.slots i { used := true, ctx := c, epoch := (s.ctx c).epoch } })).due
        (.forcedSave c)

/-- Whether a faulting strand of context c is saved (R360). -/
def State.savesOnFault (s : State) (c : Nat) : Bool :=
  (s.ctx c).cond == .pooled && (s.core (coreOf c)).freeSlot.isSome && !s.reservationBound c

/-- The context c has met the fault of a granule: it waits, and a pooled strand with a free slot is saved (R360). -/
def State.meetFault (s : State) (c space gran : Nat) : State :=
  let s' := s.updCtx c (fun x => { x with wait := .fault space gran })
  if s.savesOnFault c then s'.beginSave c else s'

/-- The reason of an XLATE that a refusal of the pager causes: 2, or 3 when the walk had noted a page-table error (R352, R368, R369;
log entry 56). -/
def refuseReason (ptErr : Bool) : Nat := if ptErr then 3 else 2

/-- A data access or fetch of the current context missed the TLB: the context waits for the walk or the fault; what the pager has
refused traps XLATE (R369). -/
def State.missAt (s : State) (space va : Nat) (acc : Acc) (ea : Word) : State :=
  let gran := va / 65536
  let g := galOf s.cur
  if s.me.refused.any (fun r => r.1 == space && r.2.1 == gran) then
    (s.updCtx s.cur (fun x => { x with refused := none })).trap causeXLATE ea
      (BitVec.ofNat 64 (acc.code + refuseReason (s.me.refused.any (·.2.2)) * 16))
  else if (s.die (dieOfGal g)).faulted space gran then (s.joinFault g space gran).meetFault s.cur space gran
  else (s.startWalk g space gran).waitFor (.walk space gran)

/-! ## Watchpoints (R376, R377) -/

/-- The match of one watchpoint against one element access: the lowest matching address. -/
def watchOne (addr ctl : Word) (wr : Bool) (ga size : Nat) (val : Option Nat) : Option Nat :=
  let base := addr.toNat
  let len := (ctl.extractLsb' 32 16).toNat
  let on : Bool := ctl.getLsbD 63 && (if wr then ctl.getLsbD 61 else ctl.getLsbD 62)
  let meets : Bool := decide (ga < base + len) && decide (base < ga + size) && len != 0
  let n := if size < 4 then size else 4
  let same : Bool := if ctl.getLsbD 60 then
    (match val with | some v => v % 2 ^ (8 * n) == (ctl.extractLsb' 0 32).toNat % 2 ^ (8 * n) | none => false) else true
  if on && meets && same then some (max ga base) else none

/-- The lowest of some addresses. -/
def lowest : List (Option Nat) → Option Nat
  | [] => none
  | none :: r => lowest r
  | some a :: r => match lowest r with | none => some a | some b => some (min a b)

/-- An element as a watchpoint sees it: whether written, its generic address, its size, its value when known. -/
abbrev Seen := Bool × Nat × Nat × Option Nat

/-- The first watchpoint that matches some elements, as TRAPADDR and TRAPINFO; `after` takes the reads compared by value,
the other the rest (R377). -/
def DebugRegs.watchHit (x : DebugRegs) (after : Bool) (es : List Seen) : Option (Nat × Nat) :=
  let one (i : Nat) (addr ctl : Word) : Option (Nat × Nat) :=
    let fits (e : Seen) : Bool := (ctl.getLsbD 60 && !e.1) == after
    let hits := es.map (fun e => if fits e then (watchOne addr ctl e.1 e.2.1 e.2.2.1 e.2.2.2).map (fun a => (a, e.1)) else none)
    match lowest (hits.map (fun h => h.map (·.1))) with
    | none => none
    | some a =>
      let w := hits.any (fun h => match h with | some (b, w) => b == a && w | none => false)
      some (a, i + (if w then 2 else 0) + (if after then 4 else 0))
  match one 0 x.w0a x.w0c with
  | some h => some h
  | none => one 1 x.w1a x.w1c

/-- Whether any watchpoint is armed. -/
def DebugRegs.watching (x : DebugRegs) : Bool := x.w0c.getLsbD 63 || x.w1c.getLsbD 63

/-- The before form: the current instruction is held before any effect; breakpoint matches that are suppressed for its issue stay so (R377,
R379). -/
def State.watchBefore (s : State) (es : List Seen) : Option State :=
  let x := s.me
  if x.skipWatch || !x.dbg.watching then none
  else match x.dbg.watchHit false es with
    | none => none
    | some (a, info) => some ((s.useSlot.updCtx s.cur (fun y => { y with skipBrk := x.skipBrk })).holdTrap s.cur (.watch false)
        { imp := false, cause := causeWATCH, pc := x.pc, addr := BitVec.ofNat 64 a, info := BitVec.ofNat 64 info } x.pc)

/-- The after form, of the watchpoints as they stood at issue: the hold is due before the next issue (R377, R379). -/
def State.watchAfter (s : State) (c : Nat) (d : DebugRegs) (pc : Word) (es : List Seen) : State :=
  if !d.watching then s
  else match d.watchHit true es with
    | none => s
    | some (a, info) =>
      let t : PendTrap := ⟨false, causeWATCH, pc, BitVec.ofNat 64 a, BitVec.ofNat 64 info⟩
      s.updCtx c (fun x => { x with watchPend := some t })

/-! ## Parts -/

/-- What becomes of an element: a part of the access, a trap at its address, or a miss. -/
inductive Resolved
  | part (p : Part)
  | bad (cause : Byte) (addr : Word) (info : Nat)
  | miss (space va : Nat) (ea : Word)
  deriving DecidableEq, Repr

/-- An element resolved for context c: the address checks and, for the shared and own private spaces, the translation. -/
def State.resolve (s : State) (acc : Acc) (am : AMode) (e : El) : Resolved :=
  match s.target s.cur acc am e.ea with
  | .bad c i => .bad c e.ea i
  | .place l => .part { addr := e.ea.toNat, loc := l, size := e.size, data := e.data, elem := e.elem }
  | .virt sp va =>
    match s.translate (galOf s.cur) sp va acc with
    | .bad c i => .bad c e.ea i
    | .miss => .miss sp va e.ea
    | .cell k => .part { addr := e.ea.toNat, loc := .cell k, size := e.size, data := e.data, elem := e.elem }

/-- Whether an element fails before translation. -/
def State.failsEarly (s : State) (acc : Acc) (am : AMode) (e : El) : Option (Byte × Word × Nat) :=
  match s.target s.cur acc am e.ea with | .bad c i => some (c, e.ea, i) | _ => none

/-- The parts of all elements, or the first that stands in the way. -/
def State.resolveAll (s : State) (acc : Acc) (am : AMode) : List El → Except Resolved (List Part)
  | [] => .ok []
  | e :: r =>
    match s.resolve acc am e with
    | .part p => match s.resolveAll acc am r with | .ok ps => .ok (p :: ps) | .error x => .error x
    | x => .error x

/-- How a watchpoint sees an instruction's elements before they are performed (R377). -/
def seenOf (c : Nat) (acc : Acc) (am : AMode) (es : List El) : List Seen :=
  es.flatMap (fun e =>
    (if acc.reads then [(false, gaddr c am e.ea, e.size, none)] else []) ++
    (if acc.writes then [(true, gaddr c am e.ea, e.size, some (leNat e.data))] else []))

/-- The access of an instruction from its address checks on: unless an element fails before translation, a watchpoint of the
before form strikes on what `seen` lists; then the lowest element that fails traps or waits; else the parts are handed on (R205,
R214, R377). -/
def State.accessSeen (s : State) (acc : Acc) (am : AMode) (es : List El) (seen : List Seen) (k : List Part → State) : State :=
  match (if es.any (fun e => (s.failsEarly acc am e).isSome) then none else s.watchBefore seen) with
  | some s' => s'
  | none =>
  match s.resolveAll acc am es with
  | .ok ps => k ps
  | .error (.bad c a i) => s.trap c a (BitVec.ofNat 64 i)
  | .error (.miss sp va ea) => s.missAt sp va acc ea
  | .error (.part _) => s

/-- The access of an instruction whose elements are watched by their kind (R377). -/
def State.access (s : State) (acc : Acc) (am : AMode) (es : List El) (k : List Part → State) : State :=
  s.accessSeen acc am es (seenOf s.cur acc am es) k

/-- ALIGN of an address on 2^n bytes (R84, R352). -/
def State.trapAlign (s : State) (a : Word) (n : Nat) : State := s.trap causeALIGN a (BitVec.ofNat 64 n)

/-! ## Clocks and stamps (R110) -/

/-- Counter i of a clock. -/
def Clock.get (c : Clock) (i : Nat) : Nat := match i with | 0 => c.c0 | 1 => c.c1 | 2 => c.c2 | 3 => c.c3 | _ => c.c4
/-- The clock with counter i set. -/
def Clock.put (c : Clock) (i n : Nat) : Clock :=
  match i with
  | 0 => { c with c0 := n } | 1 => { c with c1 := n } | 2 => { c with c2 := n } | 3 => { c with c3 := n }
  | _ => { c with c4 := n }
/-- The least clock above both. -/
def Clock.merge (a b : Clock) : Clock :=
  ⟨max a.c0 b.c0, max a.c1 b.c1, max a.c2 b.c2, max a.c3 b.c3, max a.c4 b.c4⟩

/-- Whether a message writes. -/
def MsgKind.isWrite : MsgKind → Bool
  | .store => true | .atomic .. => true | .sch _ => true | .binit _ => true | .barrive => true | _ => false

/-- Whether a message carries its die's clock: a write, and RSVREL, whose hand-over orders as one (R110, R116). -/
def MsgKind.stamps : MsgKind → Bool
  | .rsvrel => true | k => k.isWrite

/-- Whether a message's every part is done. -/
def Msg.complete (m : Msg) : Bool := m.parts.all (·.done)

/-- Whether the place of a part lies in package p. -/
def Loc.inPkg (l : Loc) (p : Nat) : Bool :=
  match l with
  | .cell k => k / 2 ^ 56 == p
  | .local c _ => c / 4096 == p
  | .priv c _ => pkgOf c == p
  | .owned c _ => pkgOf c == p
  | .remote key _ | .accepted key _ => key / 2 ^ 26 == p

/-- A write of context c to its own package takes the next number of its die; a write that leaves the package carries no stamp (R110). -/
def State.stampedFor (s : State) (c : Nat) (m : Msg) : State × Msg :=
  if !m.parts.any (fun p => p.loc.inPkg (pkgOf c)) then (s, m) else
  let d := dieOf c
  let n := ((s.die d).clock.get (dieNo c)) + 1
  let s := s.updDie d (fun x => { x with clock := x.clock.put (dieNo c) n })
  (s, { m with stamp := (s.die d).clock, num := n })

/-- A write of the current context with its stamp (R110). -/
def State.stamped (s : State) (m : Msg) : State × Msg := s.stampedFor s.cur m

/-- The die key of a part's home; a remote place has the I/O die of its package until it is resolved there. -/
def Loc.die (l : Loc) : Nat :=
  match l with
  | .cell k => homeDie k
  | .local c _ => c / 512
  | .priv c _ => dieOf c
  | .owned c _ => dieOf c
  | .remote key _ | .accepted key _ => key / 2 ^ 26 * 8 + 4

/-- Whether a message under way has a write of context c not yet applied, in the package when `inside` (R114). -/
def Msg.unapplied (m : Msg) (c : Nat) (inside : Bool) : Bool :=
  m.src == c && m.kind.isWrite && m.parts.any (fun p => !p.done && (!inside || p.loc.inPkg (pkgOf c)))

/-- The store part of a fence's wait at a scope is over for the writes numbered below `id` (R114, R420). -/
def State.fenceBefore (s : State) (c : Nat) (sc : Scope) (id : Nat) : Bool :=
  match sc with
  | .ctx => true
  | .core => true
  | .sys => !s.net.any (fun m => decide (m.id < id) && m.src == c && m.kind.isWrite)
  | _ => !s.net.any (fun m => decide (m.id < id) && m.unapplied c true)

/-- The store part of a fence's wait at a scope is over (R114, R420): nothing the context has issued stands in its way. -/
def State.fenceMet (s : State) (c : Nat) (sc : Scope) : Bool := s.fenceBefore c sc s.nextId

/-- A posting of n requests keeps the context at 64 or fewer (R354). -/
def State.roomFor (s : State) (n : Nat) : Bool := decide (s.me.posted + n ≤ 64)

/-- The current context has posted n requests. -/
def State.post (s : State) (n : Nat) : State := s.updCtx s.cur (fun x => { x with posted := x.posted + n })

/-- Stores sent and the instruction over (R107, R354): the context waits while the posted limit is in the way. -/
def State.sendStores (s : State) (u : Use) (ps : List Part) : State :=
  let n := ps.length
  if n = 0 then s.finish u
  else if !s.roomFor n then s.waitFor (.posted n)
  else
    let (s, m) := s.stamped { s.msg .store with parts := ps, posted := n, len := u.len }
    ((s.send m .memoryRequestAtHome).post n).finish u

/-- A request that holds its context until the answer lands (R21): the destinations pending, the instruction issued. -/
def State.sendWaiting (s : State) (u : Use) (m : Msg) (w : Wait) (gs vs : List Nat) (ev : Nat → Instr) : State :=
  let s := gs.foldl (fun s i => s.awaitG i) s
  let s := vs.foldl (fun s i => s.markV s.cur i .pending) s
  let s := s.send { m with waits := true, len := u.len } ev
  (s.finish u).updCtx s.cur (fun x => { x with wait := w })

/-- The value of a scalar load's bytes (R214). -/
def extendLoad (size : Nat) (sext : Bool) (x : Nat) : Word :=
  if sext then (match size with
    | 1 => (BitVec.ofNat 8 x).signExtend 64
    | 2 => (BitVec.ofNat 16 x).signExtend 64
    | 4 => (BitVec.ofNat 32 x).signExtend 64
    | _ => BitVec.ofNat 64 x) else BitVec.ofNat 64 x

/-! ## Homes (R89, R92 to R95, R100) -/

/-- The class of a request of context c at core k (R92): 0 galley, 1 die, 2 package, 3 system. -/
def sourceClass (c k : Nat) : Nat :=
  if pkgOf c ≠ k / 4096 then 3 else if dieOf c ≠ k / 512 then 2 else if galOf c ≠ k / 32 then 1 else 0

/-- Whether one window of a core admits an access (R93, R94). -/
def Core.admits (k : Core) (cls : Nat) (acc : Acc) (ga n : Nat) : Bool :=
  (List.range 4).any (fun i =>
    let b := Map.get k.wins (2 * i) 0#64
    let l := Map.get k.wins (2 * i + 1) 0#64
    b.getLsbD 63 && (!acc.reads || b.getLsbD 62) && (!acc.writes || b.getLsbD 61) && b.getLsbD (56 + cls) &&
      decide ((b.extractLsb' 6 50).toNat * 64 ≤ ga) && decide (ga + n ≤ (l.extractLsb' 6 50).toNat * 64))

/-- What becomes of a part at its home: the cell, a refusal (cause and information), or a page to be found first. -/
inductive AtHome
  | cell (k : Nat)
  | bad (cause : Byte) (info : Nat)
  | miss (g space va : Nat)
  deriving DecidableEq, Repr

/-- A translation at the home: in galley g. -/
def State.homeXlate (s : State) (g space va : Nat) (acc : Acc) (eng : Option Nat := none) : AtHome :=
  match s.translate g space va acc eng with
  | .cell k => .cell k
  | .bad c i => .bad c i
  | .miss => .miss g space va

/-- The generic address of byte `off` of a core's local store (R91). -/
def lsAddr (core off : Nat) : Nat := 3 * 2 ^ 54 + core % 4096 * 2 ^ 18 + off

/-- A request of context c at the local store of a core: its own core's is not checked (R93). -/
def State.atLocal (s : State) (cls : Option Nat) (core off n : Nat) (acc : Acc) : AtHome :=
  match cls with
  | none => .cell (lsKey core off)
  | some k => if (s.core core).admits k acc (lsAddr core off) n then .cell (lsKey core off) else .bad causeNACK 0

/-- An address behind an entry of the remote-key table of package p: the region's translation or window there, through the TLB of
service galley 0 (R100; log entry 13). -/
def State.behindKey (s : State) (p : Nat) (job : Half) (e : KeyEntry) (off n : Nat) (acc : Acc) (eng : Option Nat := none) : AtHome :=
  let a := e.base.toNat % 2 ^ 56 + off
  if a / 2 ^ 54 = 0 then s.homeXlate (p * 128 + 64) job.toNat a acc eng
  else s.atLocal (some 3) (p * 4096 + a / 2 ^ 18 % 4096) (a % 2 ^ 18) n acc

/-- A request through a remote key: the checks of R100, then what lies behind it. -/
def State.atKey (s : State) (job : Half) (key off n : Nat) (acc : Acc) (eng : Option Nat := none) : AtHome :=
  let p := key / 2 ^ 26
  match (if 0x10000 ≤ key % 2 ^ 26 then none else Map.find (s.pkg p).keys (key % 2 ^ 26)) with
  | none => .bad causeRKEY 1
  | some e =>
    if !e.flags.getLsbD 0 then .bad causeRKEY 1
    else if e.len < off + n then .bad causeRKEY 2
    else if (acc.reads && !e.flags.getLsbD 1) || (acc.writes && !e.flags.getLsbD 2) then .bad causeRKEY 3
    else if e.job ≠ job then .bad causeRKEY 4
    else s.behindKey p job e off n acc eng

/-- The home of an access of context c, after the checks made there (R89, R93, R100); a request that a window has admitted, or a key has
accepted, is not checked again (R95, R405). -/
def State.homeOf (s : State) (c : Nat) (job : Half) (acc : Acc) (l : Loc) (n : Nat) (eng : Option Nat := none) : AtHome :=
  match l with
  | .cell k => .cell k
  | .local core off => s.atLocal (if core = coreOf c then none else some (sourceClass c core)) core off n acc
  | .priv owner off =>
    if !s.hasPkg (pkgOf owner) then .bad causeRKEY 5
    else if (s.core (coreOf owner)).admits (sourceClass c (coreOf owner)) acc (2 ^ 54 + owner % 2 ^ 22 * 2 ^ 32 + off) n
    then s.homeXlate (galOf owner) (privSpace owner) off acc
    else .bad causeNACK 0
  | .owned owner off => s.homeXlate (galOf owner) (privSpace owner) off acc
  | .remote key off => s.atKey job key off n acc eng
  | .accepted key off => match Map.find (s.pkg (key / 2 ^ 26)).keys (key % 2 ^ 26) with
    | some e => s.behindKey (key / 2 ^ 26) job e off n acc eng
    | none => .bad causeRKEY 1

/-- The access kind of a message. -/
def MsgKind.acc : MsgKind → Acc
  | .load => .load | .store => .store | .bwait _ => .bankRead | .bstat _ => .bankRead | _ => .atomic

/-- The cell of a part of a message, when its home accepts it: of a page no TLB entry there maps yet, what the tables say (R108). -/
def State.cellOf (s : State) (m : Msg) (p : Part) : Option Nat :=
  match s.homeOf m.src m.job m.kind.acc p.loc p.size with
  | .cell k => some k
  | .bad _ _ => none
  | .miss g space va =>
    match s.walk (g / 128) space va with
    | .fault _ => none
    | .leaf base _ _ e =>
      if leafEo e || (m.kind.acc.reads && !leafRd e) || (m.kind.acc.writes && !leafWr e) then none
      else some (physKey (g / 128) (leafAddr e + (va - base)))

/-- The byte at cell k as a reader of `core` sees it: the last store under way by a context of the core that covers it, a release only
once its wait is over (R113), else the byte given (R420). -/
def State.overlay (s : State) (core k : Nat) : List Msg → Byte → Byte
  | [], b => b
  | m :: r, b =>
    let one (b : Byte) (p : Part) : Byte :=
      if p.done then b
      else match s.cellOf m p with
        | some j => if j ≤ k ∧ k < j + p.size then p.data.getD (k - j) b else b
        | none => b
    s.overlay core k r (if m.kind == .store && coreOf m.src == core && !m.drop && s.fenceBefore m.src m.sc m.id then m.parts.foldl one b else b)

/-- The n bytes a context of `core` reads at cell k: the buffered stores of its core over the bytes at the home (R420). -/
def State.readThrough (s : State) (core k n : Nat) : List Byte :=
  (List.range n).map (fun i => s.overlay core (k + i) s.net (s.byte (k + i)))

/-- The stamp of the doublewords a range touches, merged (R110). -/
def State.stampAt (s : State) (k n : Nat) : Clock :=
  (List.range ((k + n - 1) / 8 - k / 8 + 1)).foldl (fun c i => c.merge (Map.get s.stamps (k / 8 + i) {})) {}

/-- A range written takes a stamp. -/
def State.setStamp (s : State) (k n : Nat) (c : Clock) : State :=
  { s with stamps := (List.range ((k + n - 1) / 8 - k / 8 + 1)).foldl (fun m i => Map.set m (k / 8 + i) c) s.stamps }

/-- A read by a context of die d of a value with a stamp (R110). -/
def State.learn (s : State) (d : Nat) (c : Clock) : State := s.updDie d (fun x => { x with clock := x.clock.merge c })

end Sys2Proof.Machine
end

