-- ==== Sys2Proof/Machine/Issue.lean ====
section
/-! DEFINITION. What happens at an issue slot (spec/01_machine.md R14, spec/19_traps.md R355, spec/07_encoding.md R151, R152). -/

namespace Sys2Proof.Machine

/-! ## Readiness (R14, R36, R42) -/

/-- No `MCLR` of context c is queued: it completes before a forced save (R294). -/
def State.clearsDone (s : State) (c : Nat) : Bool :=
  !(s.core (coreOf c)).platenQ.any (fun o => o.ctx == c && (match o.kind with | .mclr _ => true | _ => false))

/-- No condenser instruction, `MMA` or `MDRAIN` of context c is queued (R35, R253, R298). -/
def State.unitsQuiet (s : State) (c : Nat) : Bool :=
  let k := s.core (coreOf c)
  !(k.platenQ.any (fun o => o.ctx == c && (match o.kind with | .mma => true | .mdrain .. => true | _ => false))) &&
  !(k.condQ.any (fun o => o.ctx == c))

/-- Every register of the strand's windows is present or armed (R35, R253). -/
def State.regsQuiet (s : State) (c : Nat) : Bool :=
  let x := s.ctx c
  (List.range x.sg).all (fun i => match (s.gReg c i).st with | .present => true | .armed => true | _ => false) &&
  (List.range x.sv).all (fun i => (s.vReg c i).st == .present)

/-- A result of context c is under way that is to be pushed, which is to happen before its strand leaves (R70, R170). -/
def State.pushOwed (s : State) (c : Nat) : Bool :=
  s.net.any (fun m => m.src == c && m.epoch == (s.ctx c).epoch && !m.drop && m.owes != [])

/-- A suspension point's wait is over (R35, R70, R253). -/
def State.quiet (s : State) (c : Nat) : Bool := s.unitsQuiet c && s.regsQuiet c && !s.pushOwed c

/-- The token registers of the operations of context c that a forced save lets run on: feeder, platen, repartition, and the tokens of
publishes and declarations (R44, R101, R294). -/
def State.tokens (s : State) (c : Nat) : List Nat :=
  let e := (s.ctx c).epoch
  (s.galley (galOf c)).feeder.filterMap (fun o => if o.2.ctx == c && o.2.epoch == e then some o.2.tok else none) ++
  (s.core (coreOf c)).platenQ.filterMap (fun o => if o.ctx == c && o.epoch == e then some o.tok else none) ++
  (s.pkg (pkgOf c)).groups.flatMap (fun g => g.2.queue.filterMap (fun o => if o.ctx == c && o.epoch == e then some o.tok else none)) ++
  (s.pkg (pkgOf c)).repIn.filterMap (fun o => if o.ctx == c && o.epoch == e then some o.tok else none) ++
  s.net.flatMap (fun m => if m.src == c && m.epoch == e then
    (match m.kind with | .publish _ => m.dest.gregs | .shadow .. => m.dest.gregs | _ => []) else [])

/-- An issued instruction of context c has not completed: its answer is still to come (R44). -/
def State.answerOwed (s : State) (c : Nat) : Bool :=
  s.net.any (fun m => m.src == c && m.epoch == (s.ctx c).epoch && m.waits && (match m.kind with | .push .. => false | _ => true))

/-- Steps 2 and 3 of a forced save are over: what was issued has completed, loads, pops and results of long units have landed, no `MMA`, `MCLR`,
`MDRAIN` or condenser instruction is queued; engine operations run on (R44, R170, R360). -/
def State.saveReady (s : State) (c : Nat) : Bool :=
  let x := s.ctx c
  let ts := s.tokens c
  s.unitsQuiet c && s.clearsDone c && !s.pushOwed c && !s.answerOwed c && (match x.wait with | .fence sc id => s.fenceBefore c sc id | _ => true) &&
  (List.range x.sg).all (fun i => (s.gReg c i).st != .pending || ts.contains i) &&
  (List.range x.sv).all (fun i => (s.vReg c i).st != .pending)

/-- A message whose answer lands in registers of its context, when it is not posted (R20, R101, R218, R228, R235). -/
def MsgKind.producesResult : MsgKind → Bool
  | .store => false
  | .push .. => false
  | .deposit .. => false
  | .feederPop .. => false
  | .sch _ => false
  | .rsvrel => false
  | _ => true

/-- Engine and platen operations of context c under way (R259). -/
def State.enginesQuiet (s : State) (c : Nat) : Bool :=
  !((s.core (coreOf c)).platenQ.any (fun o => o.ctx == c)) && !((s.core (coreOf c)).condQ.any (fun o => o.ctx == c)) &&
  !((s.galley (galOf c)).feeder.any (fun o => o.2.ctx == c)) &&
  !((s.pkg (pkgOf c)).groups.any (fun g => g.2.queue.any (fun o => o.ctx == c))) &&
  !((s.pkg (pkgOf c)).repIn.any (fun o => o.ctx == c)) &&
  !(s.net.any (fun m => m.src == c && !m.host && m.posted == 0 && m.kind.producesResult))

/-- A condition a context waits for, before issue, holds; those of an issued instruction are left by its landing. -/
def State.waitOver (s : State) (c : Nat) (w : Wait) : Bool :=
  let x := s.ctx c
  match w with
  | .none => true
  | .reg .g i => s.gReady c i
  | .reg .v i => s.vReady c i
  | .reg .d _ => true
  | .mapped i => x.held.contains (i - 124) || (s.gReg c i).st != .pending
  | .slot i => (s.gReg c i).st == .present
  | .flow q => !s.flowFull c q
  | .miss q => (s.queue q).resident
  | .depositRetry => true
  | .suspend => s.quiet c
  | .fence sc id => s.fenceBefore c sc id
  | .fault sp g => !(s.die (dieOf c)).faulted sp g
  | .walk sp g => !(s.die (dieOf c)).walking sp g
  | .posted n => decide (x.posted + n ≤ 64)
  | .reap t => s.enginesQuiet t
  | .migration g => decide ((s.galley g).migr.length < 256)
  | _ => false

/-- The wait stands before the issue of an instruction (R96). -/
def Wait.beforeIssue : Wait → Bool
  | .none => true | .reg .. => true | .mapped _ => true | .slot _ => true | .flow _ => true | .miss _ => true | .depositRetry => true
  | .suspend => true | .fault .. => true | .walk .. => true | .posted _ => true | .reap _ => true
  | .migration _ => true | _ => false

/-- Context c holds a strand that may issue. -/
def State.running (s : State) (c : Nat) : Bool :=
  let x := s.ctx c
  (x.cond == .pinned || x.cond == .pooled) && x.hold == .none && !(isKeeper c && (s.core (coreOf c)).stopped)

/-- Something is to be taken at the context's next slot whatever it waits for (R50, R96, R355, R378). -/
def Ctx.attention (x : Ctx) : Bool :=
  x.cancel.isSome || x.precise.isSome || x.stepPend.isSome || x.watchPend.isSome ||
  (x.imps != [] && !x.tr.inh && x.wait.beforeIssue)

/-- A forced save of context c is under way: it is out of rotation (R44). -/
def State.saving (s : State) (c : Nat) : Bool := s.agenda.contains (.forcedSave c)

/-- A push of context c has met a full queue and waits at the home (R244). -/
def State.pushBlocked (s : State) (c : Nat) : Bool :=
  s.net.any (fun m => m.src == c && m.waits && s.live m && (match m.kind with | .push .. => true | _ => false))

/-- A context is ready (R14); a pending CANCEL makes a waiting one so (R50). -/
def State.ready (s : State) (c : Nat) : Bool :=
  s.running c && !s.saving c && ((s.ctx c).cancel.isSome ||
    (!s.pushBlocked c && ((s.ctx c).attention || s.waitOver c (s.ctx c).wait)))

/-! ## Cycles and TIME (R14, R407, R414) -/

/-- The class a context is charged in a cycle it does not issue in (R385): ready once what it waited for is there (R14). -/
def State.cycleClass (s : State) (c : Nat) : Nat :=
  let x := s.ctx c
  match x.cond with
  | .empty | .emptyWin | .pooledFree | .finished => 7
  | _ =>
    if x.hold != .none then 6
    else if s.pushBlocked c then 3
    else if s.saving c then 4
    else if s.waitOver c x.wait then (if x.lastIssue.isNone then 5 else 1)
    else match x.wait with
      | .reg .. | .slot _ | .load | .deposit | .depositRetry | .dst => 2
      | .mapped _ | .flow _ | .pop _ | .miss _ => 3
      | _ => 4

/-- The count of a class that a context's cycle adds to: that of its program, but for class 7 (R385). -/
def classKey (prog : BitVec 32) (k : Nat) : Nat := if k = 7 then 7 else prog.toNat * 8 + k

/-- The contexts of package p charged for n cycles from cycle t, to the strand they hold as those cycles end (R385). -/
def State.charge (s : State) (p n : Nat) (t : Nat) : State :=
  let one (c : Nat) (x : Ctx) : Ctx :=
    let k := classKey x.program (s.cycleClass c)
    if x.lastIssue = some t then
      { x with classes := Map.modify (Map.modify x.classes (classKey x.program 0) 0 (· + 1)) k 0 (· + (n - 1)) }
    else { x with classes := Map.modify x.classes k 0 (· + n) }
  { s with ctxs := s.ctxs.map (fun e => if pkgOf e.1 = p then (e.1, one e.1 e.2) else e) }

/-- A trace moves on from a cycle to the next, whose TIME is given: cores whose keepers are stopped and that have not issued have their
entry, and the next row begins empty (R383). -/
def Trace.next (t : Trace) (stopped : List Nat) (cyc time : Nat) : Trace :=
  let put (m : Map Word) (i : Nat) : Map Word := if (Map.find m i).isSome then m else Map.set m i 2#64
  let rows := if t.covers cyc then stopped.foldl (fun m i => put m (t.row cyc * 32 + i)) t.rows else t.rows
  if t.covers (cyc + 1) then
    { t with rows := rows.filter (fun e => e.1 / 32 != t.row (cyc + 1)), time := if t.row (cyc + 1) = 0 then time else t.time }
  else { t with rows := rows }

/-- TIME of a package n cycles on (R407, R414, R415). -/
def Pkg.timeAfter (x : Pkg) (n : Nat) : Nat :=
  x.time + (x.acc + 10 * n * (1000000 + x.rate).toNat) / ((24 - x.clkStep) * 1000000)

/-- The TIMEs at which something on package p comes before any issue: that of a dump asked for, and the start of each die's first trace that
records from a TIME (R382, R386). -/
def State.pauses (s : State) (p : Nat) : List Word :=
  ((s.pkg p).dump.map (·.1)).toList ++ (List.range 4).filterMap (fun i =>
    match (s.die (p * 8 + i)).traces with
    | t :: _ => if t.running || t.continuous then none else some (BitVec.ofNat 64 (recNat t.rcd 8 8))
    | [] => none)

/-- One of those TIMEs has come n cycles on. -/
def State.pausedIn (s : State) (p n : Nat) : Bool :=
  (s.pauses p).any (fun t => decide (dist (t.setWidth 48) (BitVec.ofNat 48 ((s.pkg p).timeAfter n)) ≤ 0))

/-- The traces of package p for n cycles from cycle t; one whose last cycle has passed is due to end (R382, R383). -/
def State.traceCycles (s : State) (p t n : Nat) : State :=
  (List.range 4).foldl (fun s i =>
    let d := p * 8 + i
    match (s.die d).traces with
    | x :: _ =>
      if !x.running then s
      else
        let ks := (List.range 32).filter (fun k => (s.core ((d * 16 + x.galley) * 32 + k)).stopped)
        let s := s.setTrace d ((List.range n).foldl (fun y j => y.next ks (t + j) ((s.pkg p).timeAfter (j + 1))) x)
        if x.covers (t + n) then s else s.dueOnce (.traceEnd d)
    | [] => s) s

/-- Package p moves on to cycle t: TIME advances by its own reference, 24 less the clock step tenths of a nanosecond tick a
cycle (R414, R415), at the rate set against the leader's (R407). -/
def State.advance (s : State) (p t : Nat) : State :=
  let x := s.pkg p
  if t ≤ x.cycle then s
  else
    let n := t - x.cycle
    let acc := x.acc + 10 * n * (1000000 + x.rate).toNat
    let clk := (24 - x.clkStep) * 1000000
    ((s.charge p n x.cycle).traceCycles p x.cycle n).updPkg p (fun x => { x with cycle := t, acc := acc % clk, time := x.timeAfter n })

/-- The first cycle in which context c may issue (R14, R191, R414). -/
def State.slotCycle (s : State) (c : Nat) : Nat :=
  let k := s.core (coreOf c)
  let p := s.pkg (pkgOf c)
  let x := s.ctx c
  let t := max k.cycle (max p.cycle (max (match x.lastIssue with | some l => l + 8 | none => 0) (if x.attention then 0 else x.notBefore)))
  if p.evenOnly && t % 2 == 1 then t + 1 else t

/-- Whether context a comes before context b for its core's next slot: the earlier cycle, then the ascending order of R14
from the context after the last. -/
def State.before (s : State) (a b : Nat) : Bool :=
  let ta := s.slotCycle a
  let tb := s.slotCycle b
  let ra (c : Nat) : Nat := (c % 16 + 31 - (s.core (coreOf c)).last) % 16
  if ta ≠ tb then decide (ta < tb)
  else if coreOf a ≠ coreOf b then decide (coreOf a < coreOf b)
  else decide (ra a < ra b)

/-- The best of some contexts. -/
def State.best (s : State) : List Nat → Option Nat
  | [] => none
  | c :: r => match s.best r with
    | none => some c
    | some b => if s.before c b then some c else some b

/-- The ready contexts; a package at the TIME of a dump or of a trace's start issues nothing before it (R382, R386). -/
def State.readyList (s : State) : List Nat := (s.ctxs.map (·.1)).filter (fun c => s.ready c && !s.pausedIn (pkgOf c) 0)

/-- The contexts that may issue next: the best overall, then the best of each other core. -/
def State.candidates (s : State) : List Nat :=
  let rs := s.readyList
  match s.best rs with
  | none => []
  | some b => b :: rs.filter (fun c => coreOf c ≠ coreOf b && s.best (rs.filter (fun d => coreOf d == coreOf c)) == some c)

/-! ## Fetch (R151, R152) -/

/-- What a fetch gives: the halfwords, or a state in which the instruction's slot has gone to a trap or a wait. -/
inductive Fetched
  | halves (h0 h1 : Half)
  | stop (s : State)

/-- A posted operation of the context's core on the halfword at cell k is still on its way to the bank: its value is not known before, so
that a fetch waits for it as a load does (R107, R153). -/
def State.fetchOpAhead (s : State) (k : Nat) : Bool :=
  s.net.any (fun e => coreOf e.src == coreOf s.cur && e.kind.isWrite && e.kind != .store && !e.drop &&
    e.parts.any (fun q => !q.done && (match s.cellOf e q with
      | some j => decide (j < k + 2) && decide (k < j + q.size)
      | none => false)))

/-- One halfword at a virtual address, read as a load of the context would read it, so that a fetch after a synchronising pair sees the
code that a context of its core has stored (R153, R420); or what stands in the way. -/
def State.fetchHalf (s : State) (a : Word) : Except State Half :=
  if 2 ^ 56 ≤ a.toNat then .error (s.trap causeXLATE a 18#64)
  else if a.toNat / 2 ^ 54 ≠ 0 then .error (s.trapProt a 0)
  else match s.translate (galOf s.cur) s.me.job.toNat a.toNat .fetch with
    | .miss => .error (s.missAt s.me.job.toNat a.toNat .fetch a)
    | .bad c i => .error (s.trap c a (BitVec.ofNat 64 i))
    | .cell k =>
      if s.fetchOpAhead k then .error (s.notUntil ((s.core (coreOf s.cur)).cycle + 1))
      else if s.poisoned k 2 then .error (s.trap causeECC a 7#64)
      else .ok (BitVec.ofNat 16 (leNat (s.readThrough (coreOf s.cur) k 2)))

/-- The halfwords of the instruction at the PC (R151). -/
def State.fetch (s : State) : Fetched :=
  match s.fetchHalf s.me.pc with
  | .error t => .stop t
  | .ok h0 =>
    if h0.getLsbD 15 then
      match s.fetchHalf (s.me.pc + 2) with
      | .error t => .stop t
      | .ok h1 => .halves h0 h1
    else .halves h0 0#16

/-! ## The slot (R355) -/

/-- The armed breakpoint of lowest number that matches the PC (R375). -/
def Ctx.breakpoint (x : Ctx) : Option (BitVec 2) :=
  let hit (r : Word) : Bool := r.getLsbD 63 && (r.extractLsb' 1 47).setWidth 63 == x.pc.extractLsb' 1 63
  if x.skipBrk then none
  else if hit x.dbg.ibrk0 then some 0#2 else if hit x.dbg.ibrk1 then some 1#2
  else if hit x.dbg.ibrk2 then some 2#2 else if hit x.dbg.ibrk3 then some 3#2 else none

/-- Delivery of the pending precise trap of a load, pop or other instruction that was refused: its own slot (R96, R353). -/
def State.takePrecise (s : State) (t : PendTrap) : State := s.useSlot.enterTrap s.cur t s.me.pc

/-- A move: an instruction or event to run, or a state reached without one. -/
inductive Move
  | run (i : Instr) (s : State)
  | done (s : State)

noncomputable section

/-- The slot of context c: the first of R355 that applies; the machine has moved on to the slot's cycle. When a dump or the start of a trace comes
first, only a cycle passes on its package (R382, R386). -/
def State.slot (s : State) (c : Nat) : Move :=
  let t := s.slotCycle c
  let now := (s.pkg (pkgOf c)).cycle
  if s.pausedIn (pkgOf c) (t - now) then .done (s.advance (pkgOf c) (now + 1)) else
  let s := (s.advance (pkgOf c) t).updCore (coreOf c) (fun k => { k with cycle := t })
  let s := ({ s with cur := c }).updCtx c (fun x => { x with wait := if x.wait.beforeIssue then .none else x.wait })
  let x := s.me
  match x.watchPend with
  | some w => .run (.watchpointMatch w.addr (w.info.setWidth 3) w.pc) s
  | none =>
  match x.stepPend with
  | some pc => .run (.stepHold pc) s
  | none =>
  if x.cancel.isSome then .run .cancelTrap s
  else if x.imps != [] && !x.tr.inh then .run .attributedImpreciseTrap s
  else match x.precise with
  | some t => .done (s.takePrecise t)
  | none =>
  match x.breakpoint with
  | some i => .run (.ibrkMatch i) s
  | none =>
  match s.fetch with
  | .stop s' => .done s'
  | .halves h0 h1 =>
    let w : BitVec 32 := if h0.getLsbD 15 then h0 ++ h1 else h0.setWidth 32
    let s := { s with fetched := w }
    match decodeHalves h0 h1 with
    | .ok i => .run i s
    | .error r => .run (.encodingNotAnInstruction w r) s

end

/-! ## Which event may happen (R110, R420, R278) -/

/-- Whether a write's predecessors are known to be applied at a die (R110). -/
def Msg.causal (m : Msg) (d : Nat) (k : Clock) : Bool :=
  if pkgOf m.src ≠ d / 8 then true
  else
    let own := dieNo m.src
    (List.range 5).all (fun i => decide (m.stamp.get i ≤ k.get i) || (i == own && decide (m.num ≤ k.get i + 1)))

/-- An earlier write of the same core, of a kind that f accepts, to bytes of the part is still under way. -/
def State.ahead (s : State) (m : Msg) (p : Part) (f : MsgKind → Bool) : Bool :=
  match s.cellOf m p with
  | none => false
  | some k => s.net.any (fun e => decide (e.id < m.id) && coreOf e.src == coreOf m.src && f e.kind && !e.drop &&
      e.parts.any (fun q => !q.done && (match s.cellOf e q with
        | some j => decide (j < k + p.size) && decide (k < j + q.size)
        | none => false)))

/-- An earlier posted store of the same core to bytes of the part is still under way (R420). -/
def State.storeAhead (s : State) (m : Msg) (p : Part) : Bool := s.ahead m p MsgKind.isWrite

/-- An earlier posted operation of the same core to bytes of the part is still on its way to the bank: its value is not known before, so
that a load waits for it where it would return a buffered store (R107 item 3, R110, R115). -/
def State.opAhead (s : State) (m : Msg) (p : Part) : Bool := s.ahead m p (fun k => k.isWrite && k != .store)

/-- A message reads through its core's posted-store buffer (R420). -/
def MsgKind.readsThrough : MsgKind → Bool
  | .load => true | .waitv .. => true | _ => false

/-- The 64-byte line a part of a message names: of the memory behind it, whatever key leads there, else of the place as it stands. -/
def State.lineOf (s : State) (m : Msg) (p : Part) : Option (Nat × Nat × Nat) :=
  match s.cellOf m p with
  | some k => some (0, k / 64, 0)
  | none => match p.loc with
    | .remote a x | .accepted a x => some (1, a, x / 64)
    | .priv a x | .owned a x => some (2, a, x / 64)
    | _ => none

/-- An earlier write of the same context to the same 64-byte line of another package is still under way (R107 item 5). -/
def State.lineAhead (s : State) (m : Msg) (p : Part) : Bool :=
  !p.loc.inPkg (pkgOf m.src) &&
    s.net.any (fun e => decide (e.id < m.id) && e.src == m.src && e.parts.any (fun q => !q.done && !q.loc.inPkg (pkgOf m.src) &&
      (s.lineOf e q).isSome && s.lineOf e q == s.lineOf m p))

/-- Whether a message orders as a release (R113, R115, R116). -/
def MsgKind.isRelease : MsgKind → Bool
  | .store => true | .atomic .. => true | .sch _ => true | .rsvrel => true | .binit _ => true | .barrive => true
  | _ => false

/-- The page a part needs is not there yet: a fault of it is with the pager (R368). -/
def State.pageAwaited (s : State) (m : Msg) (p : Part) : Bool :=
  match s.homeOf m.src m.job m.kind.acc p.loc p.size with
  | .miss g space va => (s.die (dieOfGal g)).faulted space (va / 65536) || (s.die (dieOfGal g)).walking space (va / 65536)
  | _ => false

/-- A message holds, or asks for, an entry of a waiter store (R222). -/
def MsgKind.isWaiter : MsgKind → Bool
  | .lrw => true | .bwait _ => true | _ => false

/-- The waiters of reservations and barriers in the store of die d that are of other packages (R222). -/
def State.foreignWaiters (s : State) (d : Nat) : Nat :=
  let foreign (w : Nat) : Bool := match s.message w with | some m => pkgOf m.src != d / 8 | none => false
  let held (l : List Nat) : Nat := (l.filter foreign).length
  ((s.resvs.filter (fun e => homeDie e.1 == d)).map (fun e => held e.2.waiters)).sum +
    ((s.bwaits.filter (fun e => homeDie e.1 == d)).map (fun e => held e.2)).sum

/-- A barrier's fields (R227). -/
structure Bar where
  poison   : Bool
  phase    : Nat
  arrived  : Nat
  expected : Nat
  dw1      : Nat
  deriving DecidableEq, Repr

/-- The barrier at cell k. -/
def State.barAt (s : State) (k : Nat) : Bar :=
  let a := s.load k 8
  ⟨a / 2 ^ 63 == 1, a / 2 ^ 40 % 2 ^ 16, a / 2 ^ 20 % 2 ^ 20, a % 2 ^ 20, s.load (k + 8) 8⟩

/-- The rule that judges the waiters of a barrier in the state as written (R227). -/
def Bar.judge (b : Bar) (p : Nat) : Option Nat := if p ≠ b.phase then some 0 else if b.poison then some 1 else none

/-- A waiter is to hold an entry of the waiter store: a BWAIT whose status is not due at once, an LRW behind another holder (R222, R228). -/
def State.needsEntry (s : State) (m : Msg) (k : Nat) : Bool :=
  match m.kind with
  | .bwait p => !s.poisoned k 16 && ((s.barAt k).judge p.toNat).isNone
  | .lrw => (match (Map.get s.resvs k {}).holder with | some (h, _) => h != m.src | none => false)
  | _ => false

/-- A waiter finds an entry of the waiter store of its doubleword's die: one of another package among 4,096 (R222). -/
def State.entryFree (s : State) (m : Msg) (p : Part) : Bool :=
  !m.kind.isWaiter || (match s.cellOf m p with
    | some k => !s.needsEntry m k || k / 2 ^ 56 == pkgOf m.src || decide (s.foreignWaiters (homeDie k) < 4096)
    | none => true)

/-- An access may be performed at its home: its page is not awaited; a stamped one when its predecessors have been applied, a release when
the wait of its scope is over; none while an earlier write of its core to the bytes is under way, but that a load returns a buffered store
(R107, R110, R113, R420). -/
def State.mayPerform (s : State) (m : Msg) : Bool :=
  match m.parts.find? (fun p => !p.done) with
  | none => true
  | some p =>
    !s.pageAwaited m p && !s.lineAhead m p && s.entryFree m p &&
    (!m.kind.isRelease || s.fenceBefore m.src m.sc m.id) &&
    (!m.kind.stamps || m.causal p.loc.die (s.die p.loc.die).known) &&
    (if m.kind.readsThrough then !s.opAhead m p else !s.storeAhead m p)

/-- A message is a push. -/
def MsgKind.isPush : MsgKind → Bool
  | .push .. => true
  | _ => false

/-- Every release at system scope that context c issued before number id, a push across packages among them (R117), has made its wait
(R124): a wake, a push or an engine's access after it is ordered after the stores before it. -/
def State.sysReleased (s : State) (c id : Nat) : Bool :=
  !s.net.any (fun e => decide (e.id < id) && e.src == c && !e.host && (e.kind.isRelease || e.kind.isPush) && e.sc == .sys &&
    !s.fenceBefore c .sys e.id)

/-- The base of the buffer that a publish, a declaration or a withdrawal is for (R225, R226). -/
def MsgKind.publishes : MsgKind → Option Nat
  | .publish b => some b
  | .shadow b _ => some b
  | _ => none

end Sys2Proof.Machine
end

