-- ==== Sys2Proof/Machine/Memory.lean ====
section
/-! DEFINITION. Loads, stores, atomics, reservations, fences, barriers, deposits, waits and reductions at their issue
(spec/10_isa_memory.md R213 to R238). What they do at a home is in Home.lean. -/

namespace Sys2Proof.Machine

/-- The generic address of a part (R90, R91). -/
def Part.generic (p : Part) : Nat := match p.loc with | .local c o => lsAddr c o | _ => p.addr

/-- The location number of an uncorrectable error at a cell (R352). -/
def eccWhere (k : Nat) : Nat := if isLs k then 2 else if isBank k then 4 else 5

/-- Fields of an M instruction: t, a (R154). -/
def useM (t a : GIdx) (load : Bool) : Use :=
  { lim := [(.g, t.toNat, 18), (.g, a.toNat, 11)],
    gsrc := if load then [a.toNat] else [a.toNat, t.toNat],
    gdst := if load then [t.toNat] else [] }
/-- Fields of MEMX: d, a, b. -/
def useMX (d a b : GIdx) (load : Bool) : Use :=
  { lim := [(.g, d.toNat, 18), (.g, a.toNat, 11), (.g, b.toNat, 4)],
    gsrc := if load then [a.toNat, b.toNat] else [a.toNat, b.toNat, d.toNat],
    gdst := if load then [d.toNat] else [] }
/-- Fields of an A instruction: d, a, b5. -/
def useA (d a : GIdx) (b : G5Idx) : Use :=
  { lim := [(.g, d.toNat, 18), (.g, a.toNat, 11), (.g, b.toNat, 6)], gsrc := [a.toNat, b.toNat], gdst := [d.toNat] }
/-- Fields of an A instruction without b5. -/
def useAD (d a : GIdx) : Use :=
  { lim := [(.g, d.toNat, 18), (.g, a.toNat, 11)], gsrc := [a.toNat], gdst := [d.toNat] }
/-- Fields of an A instruction without d. -/
def useAB (a : GIdx) (b : G5Idx) : Use :=
  { lim := [(.g, a.toNat, 11), (.g, b.toNat, 6)], gsrc := [a.toNat, b.toNat] }
/-- Fields of an X instruction: a, b. -/
def useXAB (a b : GIdx) : Use :=
  { lim := [(.g, a.toNat, 11), (.g, b.toNat, 4)], gsrc := [a.toNat, b.toNat] }
/-- Fields of an X instruction: t as destination, a, b. -/
def useX (t a b : GIdx) : Use :=
  { lim := [(.g, t.toNat, 18), (.g, a.toNat, 11), (.g, b.toNat, 4)], gsrc := [a.toNat, b.toNat], gdst := [t.toNat] }

/-- Bytes of an access size (R157). -/
def Size.bytes : Size → Nat | .b => 1 | .h => 2 | .w => 4 | .d => 8

/-- The effective address of an M instruction (R214). -/
def eaOf (base : Word) (o : BitVec 7) (size : Nat) : Word := base + o.signExtend 64 * BitVec.ofNat 64 size

/-- Whether an address is off its alignment, or a doubleword in the interleaved form (R84, R90). -/
def misaligned (am : AMode) (size : Nat) (a : Word) : Bool := a.toNat % size != 0 || (am == .gi && size == 8)

/-- A load of the core's own local store, done within 8 cycles (R21, R214). -/
def State.localLoad (s : State) (u : Use) (t size : Nat) (sext : Bool) (ps : List Part) : State :=
  match ps with
  | [] => s
  | p :: _ =>
    match s.cellOf (s.msg .load) p with
    | none => s
    | some k =>
      if s.poisoned k size then s.trap causeECC (BitVec.ofNat 64 p.addr) 2#64
      else
        let x := leNat (s.readThrough (coreOf s.cur) k size)
        let pc := s.me.pc
        ((((s.writeG t (extendLoad size sext x)).finish { u with near := 1 }).learn (dieOf s.cur) (s.stampAt k size)).watchAfter s.cur s.me.watchRegs pc
          [(false, p.generic, size, some x)])

/-- A scalar load (R214, R215): a result within 8 cycles under amode 1, else the context's one outstanding load. -/
def State.scalarLoad (s : State) (u : Use) (t : Nat) (am : AMode) (size : Nat) (sext : Bool) (ea : State → Word) : State :=
  s.issue u (fun s =>
    let a := ea s
    if misaligned am size a then s.trapAlign a (Nat.log2 size)
    else s.access .load am [{ ea := a, size := size }] (fun ps =>
      match am with
      | .ls => s.localLoad u t size sext ps
      | _ => s.sendWaiting u { s.msg .load with parts := ps, dest := .g t size sext } .load [t] [] .memoryRequestAtHome))

/-- A scalar store: posted (R214). -/
def State.scalarStore (s : State) (u : Use) (am : AMode) (size : Nat) (ea : State → Word) (data : State → Word) : State :=
  s.issue u (fun s =>
    let a := ea s
    if misaligned am size a then s.trapAlign a (Nat.log2 size)
    else s.access .store am [{ ea := a, size := size, data := leBytes size (data s).toNat }] (fun ps => s.sendStores u ps))

/-- LDS (R214). -/
def execLds (t a : GIdx) (z : Size) (m : AMode) (o : BitVec 7) (s : State) : Host.Outcome State Fault Refusal :=
  .next (s.scalarLoad (useM t a true) t.toNat m z.bytes true (fun s => eaOf (s.g a.toNat) o z.bytes))

/-- LDN (R214). -/
def execLdn (t a : GIdx) (z : Size) (m : AMode) (o : BitVec 7) (s : State) : Host.Outcome State Fault Refusal :=
  .next (s.scalarLoad (useM t a true) t.toNat m z.bytes false (fun s => eaOf (s.g a.toNat) o z.bytes))

/-- ST (R214). -/
def execSt (t a : GIdx) (z : Size) (m : AMode) (o : BitVec 7) (s : State) : Host.Outcome State Fault Refusal :=
  .next (s.scalarStore (useM t a false) m z.bytes (fun s => eaOf (s.g a.toNat) o z.bytes) (fun s => s.g t.toNat))

/-- The indexed loads of MEMX (R216). -/
def State.indexedLoad (s : State) (d a b : GIdx) (size : Nat) (sext : Bool) : State :=
  s.scalarLoad (useMX d a b true) d.toNat .generic size sext
    (fun s => s.g a.toNat + s.g b.toNat * BitVec.ofNat 64 size)
/-- The indexed stores of MEMX (R216). -/
def State.indexedStore (s : State) (d a b : GIdx) (size : Nat) : State :=
  s.scalarStore (useMX d a b false) .generic size (fun s => s.g a.toNat + s.g b.toNat * BitVec.ofNat 64 size)
    (fun s => s.g d.toNat)

/-- LDXS.b (R216). -/
def execLdxsB (d a b : GIdx) (s : State) : Host.Outcome State Fault Refusal := .next (s.indexedLoad d a b 1 true)
/-- LDXS.h (R216). -/
def execLdxsH (d a b : GIdx) (s : State) : Host.Outcome State Fault Refusal := .next (s.indexedLoad d a b 2 true)
/-- LDXS.w (R216). -/
def execLdxsW (d a b : GIdx) (s : State) : Host.Outcome State Fault Refusal := .next (s.indexedLoad d a b 4 true)
/-- LDXS.d (R216). -/
def execLdxsD (d a b : GIdx) (s : State) : Host.Outcome State Fault Refusal := .next (s.indexedLoad d a b 8 true)
/-- LDXN.b (R216). -/
def execLdxnB (d a b : GIdx) (s : State) : Host.Outcome State Fault Refusal := .next (s.indexedLoad d a b 1 false)
/-- LDXN.h (R216). -/
def execLdxnH (d a b : GIdx) (s : State) : Host.Outcome State Fault Refusal := .next (s.indexedLoad d a b 2 false)
/-- LDXN.w (R216). -/
def execLdxnW (d a b : GIdx) (s : State) : Host.Outcome State Fault Refusal := .next (s.indexedLoad d a b 4 false)
/-- STX.b (R216). -/
def execStxB (d a b : GIdx) (s : State) : Host.Outcome State Fault Refusal := .next (s.indexedStore d a b 1)
/-- STX.h (R216). -/
def execStxH (d a b : GIdx) (s : State) : Host.Outcome State Fault Refusal := .next (s.indexedStore d a b 2)
/-- STX.w (R216). -/
def execStxW (d a b : GIdx) (s : State) : Host.Outcome State Fault Refusal := .next (s.indexedStore d a b 4)
/-- STX.d (R216). -/
def execStxD (d a b : GIdx) (s : State) : Host.Outcome State Fault Refusal := .next (s.indexedStore d a b 8)

/-- PREF (R217): a walk of the page when the TLB misses, and no other effect. -/
def State.prefetch (s : State) (u : Use) (ea : Word) : State :=
  let a := ea.toNat
  if 2 ^ 54 ≤ a then s.finish u
  else match s.translate (galOf s.cur) s.me.job.toNat a .load with
    | .miss => (s.startWalk (galOf s.cur) s.me.job.toNat (a / 65536) true).finish u
    | _ => s.finish u

/-- PREF (R217): d unused, no trap after the checks of R164. -/
def execPref (a b : GIdx) (s : State) : Host.Outcome State Fault Refusal :=
  .next (s.issue (useXAB a b) (fun s => s.prefetch (useXAB a b) (s.g a.toNat + s.g b.toNat)))

/-- Compact `ldw.ls` (R159): LDN, 4 bytes, amode 1. -/
def execLdwLs (a b : G5Idx) (s : State) : Host.Outcome State Fault Refusal :=
  .next (s.scalarLoad { len := 2, lim := [(.g, a.toNat, 18), (.g, b.toNat, 11)], gsrc := [b.toNat], gdst := [a.toNat] }
    a.toNat .ls 4 false (fun s => s.g b.toNat))
/-- Compact `stw.ls` (R159): ST, 4 bytes, amode 1. -/
def execStwLs (a b : G5Idx) (s : State) : Host.Outcome State Fault Refusal :=
  .next (s.scalarStore { len := 2, lim := [(.g, a.toNat, 18), (.g, b.toNat, 11)], gsrc := [b.toNat, a.toNat] }
    .ls 4 (fun s => s.g b.toNat) (fun s => s.g a.toNat))
/-- Compact `ldd.ls` (R159): LDS, 8 bytes, amode 1. -/
def execLddLs (a b : G5Idx) (s : State) : Host.Outcome State Fault Refusal :=
  .next (s.scalarLoad { len := 2, lim := [(.g, a.toNat, 18), (.g, b.toNat, 11)], gsrc := [b.toNat], gdst := [a.toNat] }
    a.toNat .ls 8 true (fun s => s.g b.toNat))
/-- Compact `std.ls` (R159): ST, 8 bytes, amode 1. -/
def execStdLs (a b : G5Idx) (s : State) : Host.Outcome State Fault Refusal :=
  .next (s.scalarStore { len := 2, lim := [(.g, a.toNat, 18), (.g, b.toNat, 11)], gsrc := [b.toNat, a.toNat] }
    .ls 8 (fun s => s.g b.toNat) (fun s => s.g a.toNat))

/-! ## Operations at the bank (R98, R218 to R230) -/

/-- Whether a part's place is known before its home not to be bank memory (R98). -/
def Part.notBank (p : Part) : Bool :=
  match p.loc with | .cell k => !isBank k | .local .. => true | .priv .. => true | .owned .. => true | .remote .. | .accepted .. => false

/-- A request to a bank ALU, posted or returning (R98, R218, R354): stamped when it writes. -/
def State.bankRequest (s : State) (u : Use) (ea : Word) (k : MsgKind) (sc : Scope) (ps : List Part) (dst : Option Nat)
    (size : Nat) (w : Wait) : State :=
  if ps.any (·.notBank) then s.trapProt ea 0
  else
    let m := { s.msg k with parts := ps, sc := sc, len := u.len }
    match dst with
    | none =>
      if !s.roomFor 1 then s.waitFor (.posted 1)
      else
        let r := if k.stamps then s.stamped { m with posted := 1 } else (s, { m with posted := 1 })
        ((r.1.send r.2 .bankAluOperation).post 1).finish u
    | some d =>
      let r := if k.stamps then s.stamped { m with dest := .g d size false } else (s, { m with dest := .g d size false })
      r.1.sendWaiting u r.2 w [d] [] .bankAluOperation

/-- The destination of a returning form; g0 makes the request posted (R218, R228). -/
def dstOf (d : GIdx) : Option Nat := if d = 0#7 then none else some d.toNat

/-- Bytes of an operand of the bank ALU (R218). -/
def AtomOp.size : AtomOp → Nat | .fadds => 4 | .fmins => 4 | .fmaxs => 4 | _ => 8

/-- AMOI, AMOF and RED from their alignment check on (R218, R238). -/
def State.atomicAt (s : State) (u : Use) (d : GIdx) (sc : Scope) (op : AtomOp) (ea val cmp : Word) : State :=
  if misaligned .generic op.size ea then s.trapAlign ea (Nat.log2 op.size)
  else s.access .atomic .generic [{ ea := ea, size := op.size, data := leBytes op.size val.toNat }] (fun ps =>
    s.bankRequest u ea (.atomic op val cmp) sc ps (dstOf d) op.size .load)

/-- AMOI and AMOF (R218). -/
def State.amo (s : State) (d a : GIdx) (b : G5Idx) (sc : Scope) (op : AtomOp) : State :=
  let u := useA d a b
  s.issue u (fun s => s.atomicAt u d sc op (s.g a.toNat) (s.g b.toNat) 0#64)

/-- AMOADD (R219). -/
def execAmoadd (d a : GIdx) (b : G5Idx) (c : Scope) (s : State) : Host.Outcome State Fault Refusal := .next (s.amo d a b c .add)
/-- AMOAND (R219). -/
def execAmoand (d a : GIdx) (b : G5Idx) (c : Scope) (s : State) : Host.Outcome State Fault Refusal := .next (s.amo d a b c .and)
/-- AMOOR (R219). -/
def execAmoor (d a : GIdx) (b : G5Idx) (c : Scope) (s : State) : Host.Outcome State Fault Refusal := .next (s.amo d a b c .or)
/-- AMOXOR (R219). -/
def execAmoxor (d a : GIdx) (b : G5Idx) (c : Scope) (s : State) : Host.Outcome State Fault Refusal := .next (s.amo d a b c .xor)
/-- AMOMIN (R219). -/
def execAmomin (d a : GIdx) (b : G5Idx) (c : Scope) (s : State) : Host.Outcome State Fault Refusal := .next (s.amo d a b c .min)
/-- AMOMAX (R219). -/
def execAmomax (d a : GIdx) (b : G5Idx) (c : Scope) (s : State) : Host.Outcome State Fault Refusal := .next (s.amo d a b c .max)
/-- AMOMINN (R219). -/
def execAmominn (d a : GIdx) (b : G5Idx) (c : Scope) (s : State) : Host.Outcome State Fault Refusal := .next (s.amo d a b c .minn)
/-- AMOMAXN (R219). -/
def execAmomaxn (d a : GIdx) (b : G5Idx) (c : Scope) (s : State) : Host.Outcome State Fault Refusal := .next (s.amo d a b c .maxn)
/-- AMOFADD.s (R220). -/
def execAmofaddS (d a : GIdx) (b : G5Idx) (c : Scope) (s : State) : Host.Outcome State Fault Refusal := .next (s.amo d a b c .fadds)
/-- AMOFMIN.s (R220). -/
def execAmofminS (d a : GIdx) (b : G5Idx) (c : Scope) (s : State) : Host.Outcome State Fault Refusal := .next (s.amo d a b c .fmins)
/-- AMOFMAX.s (R220). -/
def execAmofmaxS (d a : GIdx) (b : G5Idx) (c : Scope) (s : State) : Host.Outcome State Fault Refusal := .next (s.amo d a b c .fmaxs)
/-- AMOFADD.d (R220). -/
def execAmofaddD (d a : GIdx) (b : G5Idx) (c : Scope) (s : State) : Host.Outcome State Fault Refusal := .next (s.amo d a b c .faddd)
/-- AMOFMIN.d (R220). -/
def execAmofminD (d a : GIdx) (b : G5Idx) (c : Scope) (s : State) : Host.Outcome State Fault Refusal := .next (s.amo d a b c .fmind)
/-- AMOFMAX.d (R220). -/
def execAmofmaxD (d a : GIdx) (b : G5Idx) (c : Scope) (s : State) : Host.Outcome State Fault Refusal := .next (s.amo d a b c .fmaxd)
/-- AMOSWAP (R220). -/
def execAmoswap (d a : GIdx) (b : G5Idx) (c : Scope) (s : State) : Host.Outcome State Fault Refusal := .next (s.amo d a b c .swap)
/-- AMOCAS (R218, R220): g[d] is a source too. -/
def execAmocas (d a : GIdx) (b : G5Idx) (c : Scope) (s : State) : Host.Outcome State Fault Refusal :=
  let u := { useA d a b with gsrc := [d.toNat, a.toNat, b.toNat] }
  .next (s.issue u (fun s => s.atomicAt u d c .cas (s.g a.toNat) (s.g b.toNat) (s.g d.toNat)))

/-- RED (R238): posted and relaxed. -/
def State.reduction (s : State) (a b : GIdx) (op : AtomOp) : State :=
  let u := useXAB a b
  s.issue u (fun s => s.atomicAt u 0#7 .ctx op (s.g a.toNat) (s.g b.toNat) 0#64)

/-- RED.ADD (R238). -/
def execRedAdd (a b : GIdx) (s : State) : Host.Outcome State Fault Refusal := .next (s.reduction a b .add)
/-- RED.AND (R238). -/
def execRedAnd (a b : GIdx) (s : State) : Host.Outcome State Fault Refusal := .next (s.reduction a b .and)
/-- RED.OR (R238). -/
def execRedOr (a b : GIdx) (s : State) : Host.Outcome State Fault Refusal := .next (s.reduction a b .or)
/-- RED.XOR (R238). -/
def execRedXor (a b : GIdx) (s : State) : Host.Outcome State Fault Refusal := .next (s.reduction a b .xor)
/-- RED.MIN (R238). -/
def execRedMin (a b : GIdx) (s : State) : Host.Outcome State Fault Refusal := .next (s.reduction a b .min)
/-- RED.MAX (R238). -/
def execRedMax (a b : GIdx) (s : State) : Host.Outcome State Fault Refusal := .next (s.reduction a b .max)
/-- RED.FADD.s (R238). -/
def execRedFaddS (a b : GIdx) (s : State) : Host.Outcome State Fault Refusal := .next (s.reduction a b .fadds)
/-- RED.FADD.d (R238). -/
def execRedFaddD (a b : GIdx) (s : State) : Host.Outcome State Fault Refusal := .next (s.reduction a b .faddd)

/-- What a watchpoint sees of an operation of RSV or BAR at an address (R377). -/
def MsgKind.seenAt (k : MsgKind) (ga n : Nat) : List Seen :=
  let r : Seen := (false, ga, n, none)
  match k with
  | .lrw => [r]
  | .sch v => [(true, ga, n, some v.toNat)]
  | .binit v => [r, (true, ga, n, some v.toNat)]
  | .barrive => [r, (true, ga, n, none)]
  | .bwait _ => [r]
  | .bstat _ => [r]
  | _ => []

/-- An operation of RSV or BAR from its alignment check on. -/
def State.bankAt (s : State) (u : Use) (ea : Word) (acc : Acc) (align : Nat) (k : MsgKind) (sc : Scope) (dst : Option Nat)
    (w : Wait) : State :=
  if misaligned .generic align ea then s.trapAlign ea (Nat.log2 align)
  else s.accessSeen acc .generic [{ ea := ea, size := align }] (k.seenAt ea.toNat align) (fun ps =>
    s.bankRequest u ea k sc ps dst 8 w)

/-- LRW (R221): the context waits until it heads the queue. -/
def execLrw (d a : GIdx) (c : Scope) (s : State) : Host.Outcome State Fault Refusal :=
  .next (s.issue (useAD d a) (fun s =>
    s.bankAt (useAD d a) (s.g a.toNat) .atomic 8 .lrw c (some d.toNat) .reservation))

/-- SCH (R221): posted. -/
def execSch (a : GIdx) (b : G5Idx) (c : Scope) (s : State) : Host.Outcome State Fault Refusal :=
  .next (s.issue (useAB a b) (fun s =>
    s.bankAt (useAB a b) (s.g a.toNat) .atomic 8 (.sch (s.g b.toNat)) c none .none))

/-- RSVREL (R221): posted. -/
def execRsvrel (a : GIdx) (c : Scope) (s : State) : Host.Outcome State Fault Refusal :=
  let u : Use := { lim := [(.g, a.toNat, 11)], gsrc := [a.toNat] }
  .next (s.issue u (fun s => s.bankAt u (s.g a.toNat) .atomic 8 .rsvrel c none .none))

/-- BINIT (R228): the count is checked at issue; reason 7. -/
def execBinit (d a : GIdx) (b : G5Idx) (c : Scope) (s : State) : Host.Outcome State Fault Refusal :=
  let u := useA d a b
  .next (s.issue u (fun s =>
    let n := s.g b.toNat
    if n = 0#64 ∨ 1048575 < n.toNat then s.trapProt (s.g a.toNat) 7
    else s.bankAt u (s.g a.toNat) .atomic 16 (.binit n) c (dstOf d) .load))

/-- BARRIVE (R228). -/
def execBarrive (d a : GIdx) (c : Scope) (s : State) : Host.Outcome State Fault Refusal :=
  .next (s.issue (useAD d a) (fun s =>
    s.bankAt (useAD d a) (s.g a.toNat) .atomic 16 .barrive c (dstOf d) .load))

/-- BWAIT (R228): always returning; it reads only. -/
def execBwait (d a : GIdx) (b : G5Idx) (c : Scope) (s : State) : Host.Outcome State Fault Refusal :=
  let u := useA d a b
  .next (s.issue u (fun s =>
    s.bankAt u (s.g a.toNat) .bankRead 16 (.bwait ((s.g b.toNat).setWidth 16)) c (some d.toNat) .barrier))

/-- BSTAT (R230): k of 3 or more is ILL reason 2. -/
def execBstat (d a : GIdx) (k : BitVec 5) (s : State) : Host.Outcome State Fault Refusal :=
  .next (if 3 ≤ k.toNat then s.trapIll 2
    else s.issue (useAD d a) (fun s =>
      s.bankAt (useAD d a) (s.g a.toNat) .bankRead (if k = 2#5 then 8 else 16) (.bstat k.toNat) .ctx (some d.toNat) .load))

/-! ## Fences, acquire and release (R224) -/

/-- FENCE (R114): one issue slot; the context issues nothing later until the wait of the scope is over. -/
def execFence (c : Scope) (s : State) : Host.Outcome State Fault Refusal :=
  .next (s.issue {} (fun s =>
    if s.fenceMet s.cur c then s.finish {}
    else (s.finish {}).updCtx s.cur (fun x => { x with wait := .fence c s.nextId })))

/-- LDA (R224): always the one outstanding load. -/
def execLda (d a : GIdx) (c : Scope) (s : State) : Host.Outcome State Fault Refusal :=
  let u := useAD d a
  .next (s.issue u (fun s =>
    let ea := s.g a.toNat
    if misaligned .generic 8 ea then s.trapAlign ea 3
    else s.access .load .generic [{ ea := ea, size := 8 }] (fun ps =>
      s.sendWaiting u { s.msg .load with parts := ps, dest := .g d.toNat 8 false, sc := c } .load [d.toNat] []
        .memoryRequestAtHome)))

/-- STL (R224): the release is issued, and its store leaves once the wait of its scope is over, for which the context leaves rotation; a
refusal that comes meanwhile is held (R96, R113). -/
def execStl (a : GIdx) (b : G5Idx) (c : Scope) (s : State) : Host.Outcome State Fault Refusal :=
  let u := useAB a b
  .next (s.issue u (fun s =>
    let ea := s.g a.toNat
    if misaligned .generic 8 ea then s.trapAlign ea 3
    else s.access .store .generic [{ ea := ea, size := 8, data := leBytes 8 (s.g b.toNat).toNat }] (fun ps =>
      if !s.roomFor 1 then s.waitFor (.posted 1)
      else
        let r := s.stamped { s.msg .store with parts := ps, posted := 1, sc := c, len := u.len }
        let t := ((r.1.send r.2 .memoryRequestAtHome).post 1).finish u
        if s.fenceMet s.cur c then t else t.updCtx s.cur (fun x => { x with wait := .fence c s.nextId }))))

/-! ## Tokens, shadow and publish (R101, R225, R226) -/

/-- Whether a register may be a token: not g0 and not mapped (R101, R165). -/
def State.tokenOk (s : State) (t : Nat) : Bool := t != 0 && (s.me.mapped t).isNone

/-- An instruction with a token register t: ILL reason 10, the checks of issue, and PEND when the token's presence is clear. -/
def State.withToken (s : State) (u : Use) (t : Nat) (body : State → State) : State :=
  if !s.tokenOk t then s.trapIll 10
  else s.issue u (fun s =>
    if (s.gReg s.cur t).st != .present then s.trap causePEND 0#64 (BitVec.ofNat 64 t) else body s)

/-- A token's value. -/
def codeWord (c : Int) : Word := BitVec.ofInt 64 c

/-- PUBLISH (R226): a release at package or system scope whose token receives the result of R104; at system scope the context issues nothing
later until the wait of FENCE.sys is over (R114). -/
def execPublish (d a : GIdx) (c : PubScope) (s : State) : Host.Outcome State Fault Refusal :=
  let u := useAD d a
  .next (s.withToken u d.toNat (fun s =>
    let sc := match c with | .pkg => Scope.pkg | .sys => Scope.sys
    let m := { s.msg (.publish (s.g a.toNat).toNat) with dest := .g d.toNat 8 false, sc := sc }
    let t := ((s.markG s.cur d.toNat .pending).send m .publishExchange).finish u
    if c = .pkg ∨ s.fenceMet s.cur .sys then t else t.updCtx s.cur (fun x => { x with wait := .fence .sys s.nextId })))

/-! ## Deposits (R231, R232) -/

/-- The neighbour of core k in a direction (R12, R23, R232): the core key. -/
def neighbour (k dir : Nat) : Option Nat :=
  let die := k / 512 % 8
  let gal := k / 32 % 16
  let c := k % 32
  let (bc, br) := if die = 4 then (0, 0) else (gal % 4 * 8, gal / 4 * 4)
  let (w, h) := if die = 4 then (8, 4) else (32, 16)
  let col := bc + c % 8
  let row := br + c / 8
  let at_ (col row : Nat) : Nat :=
    if die = 4 then k / 32 * 32 + row * 8 + col
    else k / 512 * 512 + (row / 4 * 4 + col / 8) * 32 + row % 4 * 8 + col % 8
  match dir with
  | 0 => if col + 1 < w then some (at_ (col + 1) row) else none
  | 1 => if 0 < col then some (at_ (col - 1) row) else none
  | 2 => if row + 1 < h then some (at_ col (row + 1)) else none
  | _ => if 0 < row then some (at_ col (row - 1)) else none

/-- NPUT (R232): the deposit leaves and the context waits for its answer; the instruction completes on acceptance. -/
def execNput (e : BitVec 2) (a b : GIdx) (s : State) : Host.Outcome State Fault Refusal :=
  let u := useXAB a b
  .next (s.issue u (fun s =>
    match neighbour (coreOf s.cur) e.toNat with
    | none => s.trapProt 0#64 8
    | some k =>
      let g := s.g a.toNat
      if g.toNat / 2048 ≠ 0 then s.trapProt 0#64 9
      else
        let target := k * 16 + g.toNat % 16
        let m := { s.msg (.deposit e.toNat target (g.toNat / 16 % 128) (s.g b.toNat)) with waits := true, seen := (s.die (dieOf s.cur)).clock, srcs := u.gsrc }
        (((s.send m .depositArrival).useSlot).noteUse u).updCtx s.cur (fun x => { x with wait := .deposit })))

/-- PARM (R231). -/
def State.arm (s : State) (u : Use) (i : Nat) : State :=
  if (s.me.mapped i).isSome then s.trapProt 0#64 33
  else match (s.gReg s.cur i).st with
    | .present => (s.markG s.cur i .armed).finish u
    | .pending => s.trap causePEND 0#64 (BitVec.ofNat 64 i)
    | _ => s.finish u

/-- PARM (R231): t = 0 is ILL reason 4. -/
def execParm (t : GIdx) (s : State) : Host.Outcome State Fault Refusal :=
  let u : Use := { lim := [(.g, t.toNat, 18)] }
  .next (if t = 0#7 then s.trapIll 4 else s.issue u (fun s => s.arm u t.toNat))

/-! ## Wait and wake (R234, R235) -/

/-- The address checks of WAITV and WAKEV (R234): shared virtual, aligned on 8. -/
def State.wakeAddr (s : State) (ea : Word) (acc : Acc) (k : List Part → State) : State :=
  if ea.toNat / 2 ^ 54 ≠ 0 ∧ ea.toNat < 2 ^ 56 then s.trapProt ea 0
  else if misaligned .generic 8 ea then s.trapAlign ea 3
  else s.accessSeen acc .generic [{ ea := ea, size := 8 }] [] k

/-- WAITV (R234): the deadline is ox0 as it stands at issue. -/
def execWaitv (t a b : GIdx) (s : State) : Host.Outcome State Fault Refusal :=
  let u := useX t a b
  .next (s.issue u (fun s => s.wakeAddr (s.g a.toNat) .load (fun ps =>
    let m := { s.msg (.waitv (s.g a.toNat).toNat (s.g b.toNat) (s.me.oxr 0)) with parts := ps, dest := .g t.toNat 8 false }
    s.sendWaiting u m .waitv [t.toNat] [] .waitTableEnter)))

/-- WAKEV (R235): posted when t is g0. -/
def execWakev (t a b : GIdx) (s : State) : Host.Outcome State Fault Refusal :=
  let u := useX t a b
  .next (s.issue u (fun s =>
    let ea := s.g a.toNat
    if ea.toNat / 2 ^ 54 ≠ 0 ∧ ea.toNat < 2 ^ 56 then s.trapProt ea 0
    else if misaligned .generic 8 ea then s.trapAlign ea 3
    else if 2 ^ 56 ≤ ea.toNat then s.trap causeXLATE ea 19#64
    else
      let m := { s.msg (.wakev ea.toNat (s.g b.toNat)) with dest := .g t.toNat 8 false }
      if t = 0#7 then
        if !s.roomFor 1 then s.waitFor (.posted 1)
        else ((s.send { m with posted := 1, dest := .none } .waitTableWake).post 1).finish u
      else ((s.awaitG t.toNat).send m .waitTableWake).finish u))

end Sys2Proof.Machine
end

