-- ==== Sys2Proof/Machine/Walker.lean ====
section
/-! DEFINITION. Page tables as the walker reads them (spec/19_traps.md R366 to R368), and what lies behind a virtual address. -/

namespace Sys2Proof.Machine

/-- The non-leaf entries such a walk goes through, the last first, with their cells (R368). -/
def State.pathFrom (s : State) (cache : List (Nat × Word)) (p va : Nat) : Nat → List (Nat × Nat) → List (Nat × Word)
  | _, [] => []
  | t, (sh, n) :: r =>
    let k := physKey p (t + va / 2 ^ sh % n * 8)
    let held := (cache.find? (fun x => x.1 == k)).map (·.2)
    let e := held.getD (BitVec.ofNat 64 (s.load k 8))
    if (held.isNone && s.poisoned k 8) || !leafValid e || leafLeaf e || malformed e sh (match r with | (_, m) :: _ => m | [] => 1) then []
    else s.pathFrom cache p va (leafAddr e) r ++ [(k, e)]

/-- The non-leaf entries of such a walk. -/
def State.walkPath (s : State) (cache : List (Nat × Word)) (p space va : Nat) : List (Nat × Word) :=
  match s.rootOf p space with
  | (some root, ls) => s.pathFrom cache p va root ls
  | (none, _) => []

/-- Where the companion of the leaf of a page stands: at the same index of the upper half of its table (R366, R370). -/
def companionAt (at_ size : Nat) : Nat := at_ + 8 * (if size = 65536 then 32 else if size = 2097152 then 512 else 4096)

/-- The companion entry of a shadowed page's leaf (R370). -/
def State.companion (s : State) (at_ size : Nat) (e : Word) : Word :=
  if leafSh e then BitVec.ofNat 64 (s.load (companionAt at_ size) 8) else 0#64

/-- The cell behind a virtual address as the tables stand, with its leaf. -/
def State.walkCell (s : State) (p space va : Nat) : Option (Nat × Word) :=
  match s.walk p space va with
  | .leaf base _ _ e => some (physKey p (leafAddr e + (va - base)), e)
  | .fault _ => none

/-- The cell at which save slot i of core k begins (R40, R45). -/
def State.slotKey (s : State) (k i : Nat) : Option Nat :=
  let a := (s.core k).savearea.toNat % 2 ^ 56 + i * 9728
  if a / 2 ^ 54 = 3 then some (lsKey (k / 4096 * 4096 + a / 2 ^ 18 % 4096) (a % 2 ^ 18))
  else (s.walkCell (k / 4096) (s.ctx (16 * k)).job.toNat a).map (·.1)

/-- The save slot of core of c that holds the strand of an epoch (R88, R362). -/
def State.savedSlot (s : State) (c epoch : Nat) : Option Nat :=
  ((s.core (coreOf c)).slots.find? (fun e => e.2.used && e.2.ctx == c && e.2.epoch == epoch)).map (·.1)

/-- The generic address of a save slot (R40). -/
def Core.slotAddr (k : Core) (i : Nat) : Word := BitVec.ofNat 64 (k.savearea.toNat % 2 ^ 56 + i * 9728)

/-- The save slot of a core of galley g that a slug names, and is in use (R31, R88). -/
def State.slotOfSlug (s : State) (g : Nat) (l : Slug) : Option (Nat × Nat) :=
  (List.range 32).findSome? (fun i =>
    let k := g * 32 + i
    ((s.core k).slots.find? (fun e => e.2.used && (s.core k).slotAddr e.1 == l.dw3)).map (fun e => (k, e.1)))

/-- A save slot is free again (R359). -/
def State.freeSlot (s : State) (k i : Nat) : State :=
  s.updCore k (fun x => { x with slots := Map.set x.slots i { poison := (Map.get x.slots i {}).poison } })

end Sys2Proof.Machine
end

