-- ==== Sys2Proof/Machine/Levels.lean ====
section
/-! DEFINITION. Slugs (spec/02_strands.md R29, R31), level records and the retirement of strands (R46 to R54), and traps that
reach a strand wherever it is (spec/19_traps.md R354, R362). -/

namespace Sys2Proof.Machine

/-! ## Slugs (R29) -/

/-- A slug's eight doublewords as one value. -/
def Slug.bits (g : Slug) : BitVec 512 := g.dw7 ++ g.dw6 ++ g.dw5 ++ g.dw4 ++ g.dw3 ++ g.dw2 ++ g.dw1 ++ g.dw0

/-- The slug a 64-byte value lays out. -/
def slugOf (v : BitVec 512) : Slug :=
  { dw0 := v.extractLsb' 0 64, dw1 := v.extractLsb' 64 64, dw2 := v.extractLsb' 128 64, dw3 := v.extractLsb' 192 64,
    dw4 := v.extractLsb' 256 64, dw5 := v.extractLsb' 320 64, dw6 := v.extractLsb' 384 64, dw7 := v.extractLsb' 448 64 }

/-- The pc field. -/
def Slug.pc (g : Slug) : Word := (g.dw0.extractLsb' 0 48).setWidth 64
/-- The general window. -/
def Slug.gwin (g : Slug) : Nat := (g.dw0.extractLsb' 48 8).toNat
/-- The vector window in registers: twice the field. -/
def Slug.vwin (g : Slug) : Nat := 2 * (g.dw0.extractLsb' 56 4).toNat
/-- The distribution window. -/
def Slug.dwin (g : Slug) : Nat := (g.dw0.extractLsb' 60 3).toNat
/-- The slug of a pinned strand. -/
def Slug.pinned (g : Slug) : Bool := g.dw0.getLsbD 63
/-- The deadline. -/
def Slug.deadline (g : Slug) : BitVec 48 := g.dw1.extractLsb' 0 48
/-- The class. -/
def Slug.prio (g : Slug) : BitVec 2 := g.dw1.extractLsb' 48 2
/-- The program handle. -/
def Slug.program (g : Slug) : BitVec 32 := g.dw2.extractLsb' 0 32
/-- The strand queue the slug returns to. -/
def Slug.squeue (g : Slug) : Half := g.dw2.extractLsb' 32 16
/-- Migrated, or resume. -/
def Slug.migrated (g : Slug) : Bool := g.dw2.getLsbD 48
/-- A forced-save slug. -/
def Slug.fsave (g : Slug) : Bool := g.dw2.getLsbD 49

/-- A zero field of dw1 or dw2 is not zero (R29). -/
def Slug.badZeros (g : Slug) : Bool := g.dw1.extractLsb' 50 14 != 0#14 || g.dw2.extractLsb' 50 14 != 0#14

/-- The general window is a multiple of 8 in 8–128 (R29). -/
def Slug.gwinOk (g : Slug) : Bool := g.gwin % 8 == 0 && decide (8 ≤ g.gwin) && decide (g.gwin ≤ 128)

/-! ## Level records (R46 to R48) -/

/-- The key of a level record (R46): kind 1 program, 2 forme, 3 run, 4 job. -/
def levelKey (kind h : Nat) : Nat := kind * 2 ^ 32 + h

/-- The record of a program. -/
def progKey (p : BitVec 32) : Nat := levelKey 1 p.toNat

/-- The state is final (R46). -/
def Level.final (l : Level) : Bool := l.state == 1 || l.state == 2 || l.state == 3

/-- A level record with one more error, its cause kept when it is the first (R46, R47). -/
def Level.error (l : Level) (cause : Half) : Level :=
  { l with errors := l.errors + 1, cause := if l.cause = 0#16 then cause else l.cause }

/-- What LVLWAIT returns of a level (R255). -/
def Level.word (l : Level) : Word := l.errors ++ l.cause ++ BitVec.ofNat 16 (l.state % 256)

/-- The stamp a level brings to a package: it counts in the clocks of its home package (R110, R111, R419). -/
def Level.stampIn (r : Level) (p : Nat) : Clock := if r.home = p then r.stamp else {}

/-- The answer to a wait on a level that is final (R255). -/
def State.answerLevel (s : State) (r : Level) (w : Nat) : State :=
  match s.message w with
  | some m => (s.setMsg { m with ans := leBytes 8 r.word.toNat, seen := r.stampIn (pkgOf m.src) }).due (.loadValueLands w)
  | none => s

/-- The regions a job has registered on a package, with keys in force (R405). -/
def Pkg.regionsOf (x : Pkg) (job : Nat) : List Nat :=
  ((x.keys.filter (fun e => e.2.flags.getLsbD 0 && e.2.job.toNat == job)).map (fun e => e.2.region)).eraseDups

/-- The leader revokes all keys of a job on every package (R405). -/
def State.revokeKeys (s : State) (job : Nat) : State :=
  s.pkgs.foldl (fun s e => (e.2.regionsOf job).foldl (fun s r => s.due (.keyRevoke e.1 r)) s) s

/-- The level takes a final state, and its waiters are answered (R48, R255); when a job ends, its keys are revoked (R405). -/
def State.endLevel (s : State) (l st : Nat) : State :=
  let r := { s.level l with state := st }
  let s := if l / 2 ^ 32 = 4 then s.revokeKeys (l % 2 ^ 32) else s
  r.waiters.foldl (fun s w => s.answerLevel r w) (s.setLevel l { r with waiters := [] })

/-- How a parent counts a child level that has ended with a state (R48, R50). -/
def Level.countChild (p : Level) (st : Nat) (c : Clock) : Level :=
  let p := { p with live := p.live - 1, finished := p.finished + 1, stamp := p.stamp.merge c }
  match st with
  | 3 => p.error 0x0303#16
  | 2 => { p.error 0x0302#16 with cancelled := p.cancelled + 1 }
  | _ => p

/-- A level record with one update; c is the clock it carries (R46, R48, R110). -/
def Level.apply (r : Level) (op : LevelOp) (c : Clock) : Level :=
  match op with
  | .begun => { r with live := r.live + 1 }
  | .undone => { r with live := r.live - 1 }
  | .retired => { r with live := r.live - 1, finished := r.finished + 1, stamp := r.stamp.merge c }
  | .child st => r.countChild st c
  | .error k => r.error k
  | .late => { r with late := r.late + 1 }

/-- An update of level record l that package p makes from afar: a bank operation of its own through the fabric (R419). -/
def State.sendLevel (s : State) (p l : Nat) (op : LevelOp) : State :=
  s.send { id := 0, src := p * 65536, kind := .level l op, host := true } .bankAluOperation

/-- Every input queue of a program has carried its colophon, or is closed (R48). -/
def State.inputsCarried (s : State) (prog : Nat) : Bool :=
  s.queues.all (fun e =>
    let q := e.2
    !(q.valid && q.etype != 3#2 && q.owner.toNat == prog / 65536 && q.consumers.contains (BitVec.ofNat 16 prog)) ||
      q.ended || q.closed)

/-- A program's instances have all begun and its input queues have carried their colophons: its forme holds it no more once none of its
strands is live (R48). -/
def State.released (s : State) (prog : Nat) : Bool := (s.program prog).toStart == [] && s.inputsCarried prog

/-- The final state a level takes once its live count is 0 (R48), if it takes one. -/
def State.finalState (s : State) (l : Nat) : Option Nat :=
  let r := s.level l
  if r.live ≠ 0 then none
  else if r.state = 4 then some 2
  else if r.state = 0 ∧ (l / 2 ^ 32 ≠ 1 ∨ s.released (l % 2 ^ 32) = true) then some (if r.errors ≠ 0 then 3 else 1)
  else none

/-- A level ends when it may, and its parents after it, up to n levels: in the same step while the parent's record lies on the same package,
else by an operation of its own (R48, R419). -/
def State.settleLevel (s : State) : Nat → Nat → State
  | 0, _ => s
  | n + 1, l =>
    match s.finalState l with
    | none => s
    | some st =>
      let r := s.level l
      let s := s.endLevel l st
      if r.parent = 0 then s
      else if (s.level r.parent).home = r.home then
        (s.setLevel r.parent ((s.level r.parent).apply (.child st) r.stamp)).settleLevel n r.parent
      else s.sendLevel r.home r.parent (.child st)

/-- An update at its record, with what it makes end (R46, R48). -/
def State.applyLevel (s : State) (l : Nat) (op : LevelOp) (c : Clock) : State :=
  let s := s.setLevel l ((s.level l).apply op c)
  match op with
  | .undone | .retired | .child _ => s.settleLevel 4 l
  | _ => s

/-- Package p updates a level record: at once at its own bank, else by an operation through the fabric (R46, R419). -/
def State.updateLevel (s : State) (p l : Nat) (op : LevelOp) (c : Clock) : State :=
  if (s.level l).home = p then s.applyLevel l op c else s.sendLevel p l op

/-- A level record counts an error that package p finds (R46, R47). -/
def State.countError (s : State) (p l : Nat) (cause : Half) : State := s.updateLevel p l (.error cause) {}

/-! ## The completion of a run (R54) -/

/-- The input queues of a program. -/
def State.inputsOf (s : State) (prog : Nat) : Map Queue :=
  s.queues.filter (fun e => e.2.valid && e.2.etype != 3#2 && e.2.owner.toNat == prog / 65536 &&
    e.2.consumers.contains (BitVec.ofNat 16 prog))

/-- A sink program has taken the colophon of every input, and no store of it is unacknowledged (R54). -/
def State.sinkDone (s : State) (prog : Nat) : Bool :=
  (s.inputsOf prog).all (fun e => e.2.endTaken.contains (BitVec.ofNat 16 prog)) &&
    !s.net.any (fun m => m.prog.toNat == prog && m.posted != 0)

/-- Some sink of a run takes colophons: a program with an input, or a feeder. A run of none ends as its levels do (DESIGN CHOICE, log entry
71: by R54's words it would be complete before it begins). -/
def State.hasInput (s : State) (ps : List Nat) : Bool := ps.any (fun p => !(s.inputsOf p).isEmpty)

/-- A program of the run has ended a binding of a feeder at a colophon (R54). -/
def State.fedRun (s : State) (run : Nat) : Bool :=
  s.programs.any (fun e => e.2.fed && (s.forme (e.1 / 65536)).run.toNat == run)

/-- The sink programs of a run: those of its formes without outputs (R54). -/
def State.sinks (s : State) (run : Nat) : List Nat :=
  (s.programs.filter (fun e => e.2.outputs == [] && (s.forme (e.1 / 65536)).run.toNat == run)).map (·.1)

/-- A feeder of the run's formes is still bound (R54). -/
def State.bound (s : State) (run : Nat) : Bool :=
  s.galleys.any (fun g => g.2.feeder.any (fun o =>
    (match o.2.kind with | .bind .. => true | .copy _ => false) && (s.forme (o.2.prog.toNat / 65536)).run.toNat == run))

/-- A run whose every sink, a program or a feeder bound as consumer, is done is complete (R54). -/
def State.checkRun (s : State) (run : Nat) : State :=
  let l := levelKey 3 run
  let r := s.level l
  if r.known && r.state == 0 && (s.hasInput (s.sinks run) || s.fedRun run) && (s.sinks run).all (fun p => s.sinkDone p) && !s.bound run then
    let st := if r.errors ≠ 0 then 3 else 1
    let s := s.endLevel l st
    if r.parent = 0 then s else s.updateLevel r.home r.parent (.child st) r.stamp
  else s

/-- The run of a program is looked at again (R54). -/
def State.checkRunOf (s : State) (prog : Nat) : State := s.checkRun (s.forme (prog / 65536)).run.toNat

/-- A loaded program changed; of one that is not loaded there is nothing to change. -/
def State.updLoaded (s : State) (prog : BitVec 32) (f : Program → Program) : State :=
  { s with programs := s.programs.map (fun e => if e.1 = prog.toNat then (e.1, f e.2) else e) }

/-- A pinned strand's suspension slug lies at some places (R75, R252). -/
def State.park (s : State) (prog : BitVec 32) (ls : List Loc) : State :=
  s.updLoaded prog (fun x => { x with parked := x.parked.filter (fun l => !ls.contains l) ++ ls })

/-- The strand of the suspension slug at some places has resumed (R258). -/
def State.unpark (s : State) (prog : BitVec 32) (ls : List Loc) : State :=
  s.updLoaded prog (fun x => { x with parked := x.parked.filter (fun l => !ls.contains l) })

/-- Package p counts one more live strand of a program (R48): at once at its own bank, else by an operation of its own, which the strand's
start waits for (R419). -/
def State.addLive (s : State) (p : Nat) (prog : BitVec 32) : State := s.updateLevel p (progKey prog) .begun {}

/-- A live count that a SPAWN on package p has raised is taken back (R251). -/
def State.undoLive (s : State) (p : Nat) (prog : BitVec 32) : State := s.updateLevel p (progKey prog) .undone {}

/-- An operation on the level record of a program, sent from package p, has not reached it yet (R419). -/
def State.countOwed (s : State) (p : Nat) (prog : BitVec 32) : Bool :=
  s.net.any (fun m => m.src == p * 65536 && (match m.kind with | .level l .begun => l == progKey prog | _ => false))

/-- A pinned instance of a program begins on context c: one more of those its placement names, unless the context's earlier strand of it
was reaped unfinished (R48, R259; DESIGN CHOICE, log entry 71). -/
def State.beginInstance (s : State) (c : Nat) (prog : BitVec 32) : State :=
  s.updLoaded prog (fun x =>
    if x.restart.contains c then { x with restart := x.restart.erase c } else { x with toStart := x.toStart.erase (coreOf c) })

/-- The strand of context c, an instance of a program, is reaped unfinished (R259). -/
def State.reapInstance (s : State) (c : Nat) (prog : BitVec 32) : State := s.updLoaded prog (fun x => { x with restart := c :: x.restart })

/-- A strand of a program has finished on package p (R31, R48, R253); c is the clock of the die it ran on. -/
def State.retireChild (s : State) (p : Nat) (prog : BitVec 32) (c : Clock) : State := s.updateLevel p (progKey prog) .retired c

/-- A slug of galley g is discarded: its strand retires as a finished child, and a save slot it held is free (R31, R50, R359). -/
def State.retireSlug (s : State) (g : Nat) (l : Slug) (c : Clock) : State :=
  let s := if l.fsave then (match s.slotOfSlug g l with | some (k, i) => s.freeSlot k i | none => s) else s
  s.retireChild (g / 128) l.program c

/-- The programs that consume a queue are looked at again once it has carried its colophon (R48). -/
def State.settleConsumers (s : State) (q : Queue) : State :=
  q.consumers.foldl (fun s p =>
    let l := levelKey 1 (q.owner.toNat * 65536 + p.toNat)
    if (s.level l).finished ≠ 0 then s.settleLevel 4 l else s) s

/-- Whether level l is level t or lies under it, looking up n levels (R50). -/
def State.under (s : State) (t : Nat) : Nat → Nat → Bool
  | 0, _ => false
  | n + 1, l => l == t || (l != 0 && s.under t n (s.level l).parent)

/-! ## Traps that reach a strand (R354, R362) -/

/-- A trap that no slot can deliver any more is counted as an error of its program (R47, R354). -/
def State.countTrap (s : State) (p : Nat) (prog : BitVec 32) (t : PendTrap) : State :=
  s.countError p (levelKey 1 prog.toNat) (0x0200#16 ||| t.cause.setWidth 16)

/-- The traps pending for the strand of context c when it suspends, migrates or retires with a handler running are counted so: a slug has
no place for them (R35, R354; DESIGN CHOICE, log entry 57). -/
def State.countTraps (s : State) (c : Nat) : State :=
  (s.ctx c).imps.foldl (fun s t => s.countTrap (pkgOf c) (s.ctx c).program t) s

/-- A trap that arrived for the strand of a message: kept with its context or its save slot; for a strand that has retired, or gone on as
a slug, it is counted as an error of its program (R354, R362; log entry 57). -/
def State.pendTrap (s : State) (m : Msg) (t : PendTrap) : State :=
  if s.live m then s.updCtx m.src (fun x => { x with imps := x.imps ++ [t] })
  else match s.savedSlot m.src m.epoch with
    | some j => s.updCore (coreOf m.src) (fun k => { k with slots := Map.modify k.slots j {} (fun x => { x with imps := x.imps ++ [t] }) })
    | none => s.countTrap (pkgOf m.src) m.prog t

end Sys2Proof.Machine
end

