-- ==== Sys2Proof/Machine/Queues.lean ====
section
/-! DEFINITION. Queues at their homes (spec/03_queues.md R56 to R71, R78 to R80): the order of entries, capacity, colophons, pops
and their status words, closing, residency, spill rings and status records; the events of a queue's home. -/

namespace Sys2Proof.Machine

/-! ## The order of entries (R60, R61) -/

/-- The entry a pop of program P takes: the earliest of the highest class before the first marker, else that marker (R60, R61);
entries P has taken are passed over. -/
def pickFrom (P : Half) : Nat → List QEntry → Option (Nat × BitVec 2) → Option Nat
  | _, [], b => b.map (·.1)
  | n, e :: r, b =>
    if e.taken.contains P then pickFrom P (n + 1) r b
    else match e.kind with
      | .data => pickFrom P (n + 1) r (match b with
          | some (i, c) => if c.ult e.cls then some (n, e.cls) else some (i, c)
          | none => some (n, e.cls))
      | _ => match b with | some (i, _) => some i | none => some n

/-- What a pop meets at the home (R245). -/
inductive Meet
  | closed
  | ended
  | entry (i : Nat) (e : QEntry)
  | waiting (id : Nat) (e : QEntry)
  | nothing
  deriving DecidableEq, Repr

/-- The push that waits first at a queue (R63). -/
def State.firstPush (s : State) (x : Queue) : Option (Nat × QEntry) :=
  match x.waitPush with
  | [] => none
  | w :: _ => match s.message w with
    | some m => (match m.kind with | .push _ e => some (w, e) | _ => none)
    | none => none

/-- The push a rendezvous queue hands over: the one that waits first, while no entry is held (R63). -/
def State.rendezvous (s : State) (x : Queue) : Option (Nat × QEntry) := if x.cap = 0 ∧ x.entries = [] then s.firstPush x else none

/-- What a pop of program P meets at queue q (R63, R245): a rendezvous queue hands over a push that waits when no entry is
held. -/
def State.meet (s : State) (q : Nat) (P : Half) : Meet :=
  let x := s.queue q
  if x.closed then .closed
  else match pickFrom P 0 x.entries none with
    | some i => (match x.entries[i]? with | some e => .entry i e | none => .nothing)
    | none =>
      if x.ended then .ended
      else match s.rendezvous x with | some (w, e) => .waiting w e | none => .nothing

/-- What a queue remembers of a marker that program P has taken (R54, R75). -/
def Queue.noteTaken (x : Queue) (P : Half) : EKind → Queue
  | .data => x
  | .colophon => { x with endTaken := x.endTaken ++ [P] }
  | .mark k _ => { x with marked := x.marked ++ [(P, k)] }

/-- A queue after program P has taken the entry at place i: an entry leaves when every consumer program has popped it (R61). -/
def Queue.take (x : Queue) (P : Half) (i : Nat) : Queue :=
  let es := x.entries.modify i (fun e => { e with taken := e.taken ++ [P] })
  let x := match x.entries[i]? with | some e => x.noteTaken P e.kind | none => x
  { x with
    entries := es.filter (fun e => !(e.taken != [] && x.consumers.all (fun c => e.taken.contains c))) }

/-! ## Residency (R66, R67) -/

/-- The home die of a queue. -/
def Queue.die (x : Queue) : Nat := x.homePkg * 8 + x.homeDie
/-- The galley of a slug queue. -/
def Queue.gal (x : Queue) : Nat := x.homePkg * 128 + x.homeDie * 16 + x.homeGal

/-- Queue q has been used: it is the last to be evicted (R67). -/
def State.touch (s : State) (q : Nat) : State :=
  s.updDie (s.queue q).die (fun d => if d.resident.contains q then { d with resident := d.resident.filter (· ≠ q) ++ [q] } else d)

/-- A message is a push to queue q or a pop of it. -/
def MsgKind.onQueue (k : MsgKind) (q : Nat) : Bool :=
  match k with | .push r _ => r == q | .pop r _ _ _ _ => r == q | .mappedPop r _ => r == q | .feederPop r _ _ => r == q | _ => false

/-- A resident queue may be evicted (R67). A slug queue stays while it holds any slug, each being one the dispatcher holds for placement
(DEDUCED, log entry 62: R67 does not say more). -/
def State.evictable (s : State) (q : Nat) : Bool :=
  !s.net.any (fun m => m.kind.onQueue q) &&
  !s.ctxs.any (fun e => e.2.wait == .flow q || e.2.wait == .miss q) &&
  !s.galleys.any (fun g => g.2.feeder.any (fun o => match o.2.kind with | .bind i j => i == q || j == some q | _ => false)) &&
  !((s.queue q).etype == 3#2 && (s.queue q).entries != [])

/-- The queues a die's queue SRAM holds (R66). -/
def residentMax : Nat := 4096

/-- The queue service can bring queue q in now (R67). -/
def State.canBringIn (s : State) (q : Nat) : Bool :=
  let d := s.die (s.queue q).die
  (s.queue q).resident || decide (d.resident.length < residentMax) || d.resident.any (fun r => s.evictable r)

/-- The queue service brings queue q into its home's queue SRAM; it evicts the least recently used that may go (R67). -/
def State.bringIn (s : State) (q : Nat) : State :=
  let x := s.queue q
  if x.resident then s
  else
    let into (s : State) : State :=
      (s.updDie x.die (fun d => { d with resident := d.resident ++ [q] })).setQueue q { x with resident := true }
    let d := s.die x.die
    if d.resident.length < residentMax then into s
    else match d.resident.find? (fun r => s.evictable r) with
      | none => s.dueOnce (.queueMissService q)
      | some r => into ((s.setQueue r { s.queue r with resident := false }).updDie x.die
          (fun d => { d with resident := d.resident.filter (· ≠ r) }))

/-- QUEUE_MISS_SERVICE (R67). -/
def execQueueMissService (q : Nat) (s : State) : Host.Outcome State Fault Refusal := .next (s.bringIn q)

/-! ## What a change at the home brings about -/

/-- A mapped slot's queue is ready (R186): the context's program may pop it, and a pop would not wait. -/
def State.slotIsReady (s : State) (c q : Nat) : Bool :=
  (s.queue q).consumedBy (s.ctx c).program && s.meet q ((s.ctx c).program.setWidth 16) != .nothing

/-- QUEUE_STATE_REPORT (R186): the core of context c learns the readiness of a mapped slot. -/
def execQueueStateReport (c : Nat) (slot : BitVec 2) (s : State) : Host.Outcome State Fault Refusal :=
  .next (match (s.ctx c).mapped (124 + slot.toNat) with
    | none => s
    | some h =>
      let r := s.slotIsReady c ((s.ctx c).qkey h)
      s.updCtx c (fun x => { x with slotReady := Map.set x.slotReady slot.toNat r }))

/-- The reports a change of queue q makes due (R186). -/
def State.reports (s : State) (q : Nat) : State :=
  s.ctxs.foldl (fun s e => (List.range 4).foldl (fun s i =>
    match e.2.mapped (124 + i) with
    | none => s
    | some h =>
      if e.2.qkey h = q ∧ s.slotIsReady e.1 q ≠ Map.get e.2.slotReady i false then
        s.dueOnce (.queueStateReport e.1 (BitVec.ofNat 2 i)) else s) s) s

/-- A doubleword at cell k with a free value (R68; log entry 5). -/
def State.freeCell (s : State) (k : Nat) : State :=
  let r := s.free
  r.2.setBytes k (leBytes 8 r.1.toNat)

/-- n doublewords from cell k upward with free values. -/
def State.freeCells (s : State) (k : Nat) : Nat → State
  | 0 => s
  | n + 1 => (s.freeCell k).freeCells (k + 8) n

/-- Every TLB of package p drops its entry of the page at a base (R370). -/
def State.dropPage (s : State) (p job base : Nat) : State :=
  { s with galleys := s.galleys.map (fun g =>
      if g.1 / 128 = p then (g.1, { g.2 with tlb := g.2.tlb.filter (fun t => !(t.space == job && t.base == base)) }) else g) }

/-- One 64 KiB page of a spill ring returns to its owner: its leaf loses the engine-only attribute and every TLB its entry, and
its contents are not defined until the owner writes them (R68, Engine-only paths). -/
def State.returnPage (s : State) (p job va : Nat) : State :=
  match s.walk p job va with
  | .fault _ => s
  | .leaf base _ k e =>
    let s := s.setBytes k (leBytes 8 (e &&& ~~~0x0800000000000000#64).toNat)
    (s.dropPage p job base).freeCells (physKey p (leafAddr e + (va - base))) 8192

/-- Pages of a spill ring (R68). -/
def Queue.ringPages (x : Queue) : Nat := (x.cap * (if x.etype = 0#2 then 16 else 80) + 65535) / 65536

/-- n pages of a ring returned. -/
def State.returnPages (s : State) (p job va : Nat) : Nat → State
  | 0 => s
  | n + 1 => (s.returnPage p job va).returnPages p job (va + 65536) n

/-- The spill ring of a queue that has closed, or ended and been popped empty, returns (R68). -/
def State.returnRing (s : State) (q : Nat) : State :=
  let x := s.queue q
  if x.ring ≠ 0 ∧ !x.ringBack ∧ (x.closed ∨ (x.ended ∧ x.entries = [])) then
    (s.setQueue q { x with ringBack := true }).returnPages x.homePkg (q / 65536) x.ring x.ringPages
  else s

/-- A dispatcher has something to look at. -/
def State.callDispatcher (s : State) (g : Nat) : State := s.dueOnce (.dispatchStep g)

/-- Queue q is the request queue of its job for the service of a kind on its home's package: 0 storage, 1 editions (R388, R396). -/
def State.serves (s : State) (kind q : Nat) : Bool :=
  Map.find (s.pkg (s.queue q).homePkg).services (q / 65536 * 4 + kind) == some (q % 65536)

/-- The record of an entry as a service reads it; nothing of a marker. -/
def QEntry.bytes (e : QEntry) : List Byte := if e.kind = .data then leBytes 64 e.payload.toNat else []

/-- The event at which the storage service takes a record (R388): by its op. -/
def storageEvent (p job : Nat) (r : List Byte) : Instr :=
  match recNat r 0 1 with
  | 1 => .storageWrite p job r | 2 => .storageFlush p job r | 3 => .mapRange p job r | 4 => .unmapRange p job r
  | _ => .storageRead p job r

/-- The record that a due event of the storage service, or of the edition service, is to take for a job of package p. -/
def serviceRecord (p job : Nat) (edition : Bool) (e : Instr) : Option (List Byte) :=
  if edition then (match e with
    | .editionLoad a b r _ => if a = p ∧ b = job then some r else none
    | _ => none)
  else match e with
  | .storageRead a b r => if a = p ∧ b = job then some r else none
  | .storageWrite a b r => if a = p ∧ b = job then some r else none
  | .storageFlush a b r => if a = p ∧ b = job then some r else none
  | .mapRange a b r => if a = p ∧ b = job then some r else none
  | .unmapRange a b r => if a = p ∧ b = job then some r else none
  | _ => none

/-- The address at which a free value puts the buffer of an edition: shared virtual, 64 KiB aligned (R396; log entry 48). -/
def bufferAddr (v : Word) : Word := v &&& 0x003FFFFFFFFF0000#64

/-- A service of package p is to take record r for a job (R388, R396). -/
def State.serviceTakes (s : State) (p job : Nat) (edition : Bool) (r : List Byte) : State :=
  if edition then s.free.2.due (.editionLoad p job r (bufferAddr s.free.1)) else s.due (storageEvent p job r)

/-- The service whose request queue is q is to take the next record, when there is one and it does not take one already (R388, R396). -/
def State.serviceDue (s : State) (q : Nat) : State :=
  let p := (s.queue q).homePkg
  let job := q / 65536
  let edition := s.serves 1 q
  if !(s.serves 0 q || edition) then s
  else if s.agenda.any (fun e => match serviceRecord p job edition e with | some r => !(s.pkg p).taken.contains (job, r) | none => false) then s
  else match s.meet q 0xFFFF#16 with
    | .entry _ e => s.serviceTakes p job edition e.bytes
    | .waiting _ e => s.serviceTakes p job edition e.bytes
    | _ => s

/-- What follows any change of queue q. -/
def State.changed (s : State) (q : Nat) : State :=
  let s := ((s.reports q).returnRing q).serviceDue q
  if (s.queue q).etype = 3#2 ∧ ((s.queue q).entries ≠ [] ∨ (s.queue q).waitPush ≠ []) then s.callDispatcher (s.queue q).gal else s

/-! ## Pops answered (R245) -/

/-- The status word of a pop (R245). -/
def popStatus (etype : BitVec 2) (kind : Nat) (e : QEntry) : Word :=
  let valid : Half := match etype with | 0#2 => 0#16 | 1#2 => e.valid | _ => 0xFFFF#16
  match kind, e.kind with
  | 0, _ => BitVec.ofNat 64 (valid.toNat * 65536 + e.cls.toNat * 8)
  | 2, .mark k quiesce => BitVec.ofNat 64 (k.toNat * 2 ^ 32 + valid.toNat * 65536 + (if quiesce then 32 else 0) + 2)
  | n, _ => BitVec.ofNat 64 (valid.toNat * 65536 + n)

/-- Lanes without a valid bit are 0 (R245). -/
def validLanes (v : BitVec 512) (m : Half) : BitVec 512 :=
  v &&& BitVec.ofNat 512 ((List.range 16).foldl (fun a i => if m.getLsbD i then a + (2 ^ 32 - 1) * 2 ^ (32 * i) else a) 0)

/-- The value a pop of a data entry lands (R245). -/
def popValue (etype : BitVec 2) (e : QEntry) : Nat :=
  match etype with
  | 0#2 => (e.payload.extractLsb' 0 64).toNat
  | 1#2 => (validLanes e.payload e.valid).toNat
  | _ => e.payload.toNat

/-- The kind number of an entry (R245). -/
def EKind.code : EKind → Nat | .data => 0 | .colophon => 1 | .mark _ _ => 2

/-- The registers a pop fills, and the handle it names. -/
def MsgKind.popDest : MsgKind → List (RC × Nat × Nat)
  | .pop _ _ vec t b => (if vec then RC.v else RC.g, t, 0) :: (if b = 0 then [] else [(.g, b, 0)])
  | .mappedPop _ i => [(.g, 124 + i, 0)]
  | _ => []

/-- A pop without a status register: its markers and a closed queue trap (R71, R245). -/
def MsgKind.noStatus : MsgKind → Bool
  | .pop _ _ _ _ b => b == 0
  | _ => true

/-- The answer of a pop goes on its way. -/
def State.popAnswer (s : State) (m : Msg) (val : Nat) (st : Word) (c : Clock) : State :=
  let ds := match m.kind.popDest with
    | [(c, t, _), (_, b, _)] => [(c, t, val), (.g, b, st.toNat)]
    | [(c, t, _)] => [(c, t, val)]
    | l => l
  (s.setMsg { m with dest := .vals ds, seen := m.seen.merge c, placed := true }).due (.loadValueLands m.id)

/-- The trap of a pop goes on its way (R245, R353): precise, an uncorrectable error of one with a status register too (R351, R372). -/
def State.popRefuse (s : State) (m : Msg) (q : Nat) (cause : Byte) (info : Nat) : State :=
  (s.setMsg { m with
    refusal := some ⟨false, cause, m.pc, BitVec.ofNat 64 (q % 65536), BitVec.ofNat 64 info⟩, placed := true }).due (.refusalArrives m.id)

/-- The stamp an entry brings to a popping die: none across packages (R110, R111). -/
def QEntry.brings (e : QEntry) (home src : Nat) : Clock := if home = src then e.stamp else {}

/-- A colophon or an entry has been taken: what the levels see (R48, R54). -/
def State.tookEntry (s : State) (q : Nat) (e : QEntry) (prog : Nat) : State :=
  let s := s.touch q
  if e.kind = .colophon then s.checkRunOf prog else s

/-- The entry a pop meets is taken and the answer sent, or the pop refused (R245, R372). -/
def State.popEntry (s : State) (m : Msg) (q : Nat) (e : QEntry) (taken : State) : State :=
  let x := s.queue q
  if e.poison then (taken.tookEntry q e m.prog.toNat).popRefuse m q causeECC 6
  else if e.kind ≠ .data ∧ m.kind.noStatus then s.popRefuse m q causePROT e.kind.code
  else (taken.tookEntry q e m.prog.toNat).popAnswer m (if e.kind = .data then popValue x.etype e else 0)
    (popStatus x.etype e.kind.code e) (e.brings x.homePkg (pkgOf m.src))

/-- The push that waits first in a rendezvous queue is taken by program P: it completes, and the home holds the entry for the
other consumers (R63). -/
def State.takeWaiting (s : State) (q id : Nat) (e : QEntry) (P : Half) : State :=
  let x := s.queue q
  let fin := e.kind == .colophon
  let x := { x.noteTaken P e.kind with
    waitPush := x.waitPush.filter (· ≠ id)
    entries := if x.consumers.all (· == P) then [] else [{ e with taken := [P] }]
    ended := x.ended || fin }
  let s := (s.setQueue q x).dropMsg id
  if fin then s.settleConsumers x else s

/-- What a feeder binding's pop meets is kept in its slot, none for a closed queue, and its FEEDQ_ENTRY is due (R277). -/
def State.bindGot (s : State) (m : Msg) (g i : Nat) (e : Option QEntry) : State :=
  let s := s.dropMsg m.id
  match Map.find (s.galley g).feeder i with
  | none => s
  | some o => (s.updGal g (fun x => { x with feeder := Map.set x.feeder i { o with got := some e } })).due (.feedqEntry g i)

/-- The colophon a binding meets in a queue that has ended and been popped empty (R277). -/
def endEntry : QEntry := { kind := .colophon }

/-- A binding's pop at the home: what it meets goes to its slot, or it is to wait (none) (R277). -/
def State.tryBind (s : State) (m : Msg) (q g i : Nat) : Option State :=
  let P : Half := m.prog.setWidth 16
  match s.meet q P with
  | .closed => some (s.bindGot m g i none)
  | .ended => some (s.bindGot m g i (some endEntry))
  | .entry j e => some (((s.setQueue q ((s.queue q).take P j)).tookEntry q e m.prog.toNat).bindGot m g i (some e))
  | .waiting w e => some (((s.takeWaiting q w e P).tookEntry q e m.prog.toNat).bindGot m g i (some e))
  | .nothing => none

/-- A pop at the home: answered, refused, or to wait (none) (R245, R246). -/
def State.tryPop (s : State) (m : Msg) (q : Nat) : Option State :=
  let P : Half := m.prog.setWidth 16
  match m.kind with
  | .feederPop _ g i => s.tryBind m q g i
  | _ =>
  match s.meet q P with
  | .closed => some (if m.kind.noStatus then s.popRefuse m q causePROT 10 else s.popAnswer m 0 3#64 {})
  | .ended => some (if m.kind.noStatus then s.popRefuse m q causePROT 1 else s.popAnswer m 0 1#64 {})
  | .entry i e => some (s.popEntry m q e (s.setQueue q ((s.queue q).take P i)))
  | .waiting w e => some (s.popEntry m q e (s.takeWaiting q w e P))
  | .nothing =>
    match m.kind with
    | .pop _ true _ _ _ => some (s.popAnswer m 0 4#64 {})
    | _ => none

/-! ## Entries enter (R59, R62, R63) -/

/-- A discarded slug retires as a finished child (R31, R50, R252). -/
def State.discardEntry (s : State) (q : Nat) (e : QEntry) : State :=
  if (s.queue q).etype = 3#2 then s.retireSlug (s.queue q).gal (slugOf e.payload) e.stamp else s

/-- An entry takes a slot: a slug is stamped with its galley's count (R76), the last colophon ends the queue (R62). -/
def State.enterQueue (s : State) (q : Nat) (e : QEntry) : State :=
  let x := s.queue q
  let fin := e.kind == .colophon
  let n := (s.galley x.gal).arrival
  let e := if x.etype = 3#2 then { e with arrival := n } else e
  let s := if x.etype = 3#2 then s.updGal x.gal (fun g => { g with arrival := n + 1 }) else s
  let x := { x with entries := x.entries ++ [e], ended := x.ended || fin }
  let s := (s.setQueue q x).touch q
  if fin then s.settleConsumers x else s

/-- Pushes that wait enter while there is room, at most n of them (R63). -/
def State.letIn (s : State) (q : Nat) : Nat → State
  | 0 => s
  | n + 1 =>
    let x := s.queue q
    if x.entries.length < x.cap then
      match s.firstPush x with
      | none => s
      | some (w, e) => (((s.setQueue q { x with waitPush := x.waitPush.filter (· ≠ w) }).dropMsg w).enterQueue q e).letIn q n
    else s

/-- Pops that wait are answered in the order in which they came (DESIGN CHOICE, log entry 61: R63 orders pushes only). -/
def State.servePops (s : State) (q : Nat) : List Nat → State
  | [] => s
  | w :: r =>
    let gone (s : State) : State := let x := s.queue q; s.setQueue q { x with waitPop := x.waitPop.filter (· ≠ w) }
    match s.message w with
    | none => (gone s).servePops q r
    | some m =>
      match s.tryPop m q with
      | some s' => (gone s').servePops q r
      | none => s.servePops q r

/-- Waiting pushes and pops are served, up to n rounds. -/
def State.serve (s : State) (q : Nat) : Nat → State
  | 0 => s
  | n + 1 =>
    let s := s.letIn q (s.queue q).waitPush.length
    (s.servePops q (s.queue q).waitPop).serve q n

/-- Queue q comes to rest after a change: pushes first, then pops (R59). -/
def State.settleQueue (s : State) (q : Nat) : State :=
  (s.serve q ((s.queue q).waitPush.length + (s.queue q).waitPop.length + 1)).changed q

/-- A push with nothing in its way takes a slot, or waits at the home (R63, R244); its flit is counted (R409). -/
def State.placePush (s : State) (m : Msg) (q : Nat) (e : QEntry) : State :=
  let x := s.queue q
  let s := s.count (pkgOf m.src) m.prog 205 (if m.host then 0 else 1)
  if x.waitPush = [] ∧ x.entries.length < x.cap then ((s.dropMsg m.id).enterQueue q e).settleQueue q
  else ((s.setQueue q { x with waitPush := x.waitPush ++ [m.id] }).setMsg { m with waits := !m.host, placed := false, kind := .push q e }).settleQueue q

/-- A push after the pushing program's colophon (R244). -/
def State.afterColophon (s : State) (m : Msg) (q : Nat) : State :=
  (s.dropMsg m.id).pendTrap m ⟨true, causePROT, m.pc, BitVec.ofNat 64 (q % 65536), 13#64⟩

/-- A level is being cancelled (R50). -/
def Level.cancelling (l : Level) : Bool := l.state == 4

/-- A push at its queue's home (R59, R62, R65, R244); the slug of a strand that is being cancelled is discarded (R50). -/
def State.pushAtHome (s : State) (m : Msg) (q : Nat) (e : QEntry) : State :=
  let x := s.queue q
  let P : Half := m.prog.setWidth 16
  let e := { e with stamp := if x.homePkg = pkgOf m.src then m.seen else {} }
  if !x.valid || x.closed || (x.etype == 3#2 && (s.level (progKey (slugOf e.payload).program)).cancelling) then
    (s.dropMsg m.id).discardEntry q e
  else if x.coloph.contains P then s.afterColophon m q
  else match e.kind with
    | .colophon =>
      let x := { x with coloph := x.coloph ++ [P] }
      let s := s.setQueue q x
      if (x.producers.filter (· ≠ 0xFFFE#16)).all (fun p => x.coloph.contains p) then s.placePush m q e
      else s.dropMsg m.id
    | _ => s.placePush m q e

/-- QUEUE_PUSH_AT_HOME (R59): the push in message `id` reaches its queue's home. -/
def execQueuePushAtHome (id : Nat) (s : State) : Host.Outcome State Fault Refusal :=
  .next (match s.message id with
    | some m => (match m.kind with | .push q e => s.pushAtHome m q e | _ => s)
    | none => s)

/-- A push by the machine itself, for program P of a context: the message waits at the home when the queue is full. -/
def State.machinePush (s : State) (src : Nat) (prog : BitVec 32) (q : Nat) (e : QEntry) : State :=
  let m : Msg := { id := s.nextId, src := src, prog := prog, kind := .push q { e with prog := prog }, host := true,
                   seen := e.stamp }
  ({ s with net := s.net ++ [m], nextId := s.nextId + 1 }).pushAtHome m q { e with prog := prog }

/-- A push of which nobody waits for the outcome: an entry that finds no room is discarded (R80). -/
def State.pushOrDrop (s : State) (src : Nat) (prog : BitVec 32) (q : Nat) (e : QEntry) : State :=
  let id := s.nextId
  let s := s.machinePush src prog q e
  let x := s.queue q
  if x.waitPush.contains id then (s.setQueue q { x with waitPush := x.waitPush.filter (· ≠ id) }).dropMsg id else s

/-! ## Status records (R78 to R80) -/

/-- A status record (R78). -/
def statusRecord (cause : Nat) (prog : BitVec 32) (time : Nat) (a0 a1 : Word) : BitVec 512 :=
  BitVec.ofNat 512 (cause % 65536 + prog.toNat * 2 ^ 32 + time % 2 ^ 64 * 2 ^ 64 + a0.toNat * 2 ^ 128 + a1.toNat * 2 ^ 192)

/-- A status record of package p for forme f: discarded when the status queue is full or closed (R80). -/
def State.pushStatus (s : State) (p f cause : Nat) (prog : BitVec 32) (a0 a1 : Word) : State :=
  let x := s.forme f
  if x.statusQ = 0 then s
  else s.pushOrDrop (p * 65536) 0xFFFF#32 (x.job.toNat * 65536 + x.statusQ)
    { payload := statusRecord cause prog (s.time p).toNat a0 a1, valid := 0xFFFF#16 }

/-! ## The close (R65) -/

/-- The pushes that wait at a closed queue complete and are discarded (R65). -/
def State.discardPushes (s : State) (q : Nat) : List Nat → State
  | [] => s
  | w :: r =>
    match s.message w with
    | some m => (match m.kind with
        | .push _ e => ((s.dropMsg w).discardEntry q e).discardPushes q r
        | _ => s.discardPushes q r)
    | none => s.discardPushes q r

/-- Queue q closes: its entries and waiting pushes are discarded, waiting pops answered (R65). -/
def State.closeQueue (s : State) (q : Nat) : State :=
  let x := s.queue q
  if !x.valid || x.closed then s
  else
    let s := s.setQueue q { x with closed := true, entries := [], waitPush := [] }
    let s := x.entries.foldl (fun s e => s.discardEntry q e) s
    let s := (s.discardPushes q x.waitPush).settleConsumers x
    s.settleQueue q

/-! ## Pops and queue state at the home -/

/-- The number of entries a program has not popped (R249). -/
def Queue.left (x : Queue) (P : Half) : Nat := (x.entries.filter (fun e => !e.taken.contains P)).length

/-- Descriptor doubleword 0 (R57); the home galley of a queue that is not of slugs is 0. -/
def Queue.dw0 (x : Queue) : Word :=
  BitVec.ofNat 64 (x.etype.toNat * 2 ^ 62 + (x.consumers.length - 1) * 2 ^ 59 + (if x.valid then 2 ^ 58 else 0) +
    (if x.closed then 2 ^ 57 else 0) + (if x.ended then 2 ^ 56 else 0) + x.producers.length * 2 ^ 52 + x.flow * 2 ^ 44 +
    x.cap * 2 ^ 20 + x.homePkg * 2 ^ 14 + x.homeDie * 2 ^ 11 + (if x.resident then 2 ^ 10 else 0) +
    (if x.etype = 3#2 then x.homeGal else 0) * 2 ^ 6)

/-- What QSTAT reads (R249). -/
def State.qstatWord (s : State) (m : Msg) (q k : Nat) : Word :=
  let x := s.queue q
  let P : Half := m.prog.setWidth 16
  if k = 1 then x.dw0
  else BitVec.ofNat 64 (min (s.inFlight m.src q) 255 * 2 ^ 52 + (if x.coloph.contains P then 2 ^ 51 else 0) +
    (if x.resident then 2 ^ 50 else 0) + (if x.closed then 2 ^ 49 else 0) + (if x.ended then 2 ^ 48 else 0) +
    x.cap * 2 ^ 24 + x.left P % 2 ^ 24)

/-- A pop or a look at its queue's home (R245, R249). -/
def State.popAtHome (s : State) (m : Msg) : State :=
  match m.kind with
  | .qstat q k => (s.setMsg { m with ans := leBytes 8 (s.qstatWord m q k).toNat, placed := true }).due (.loadValueLands m.id)
  | .pop q _ _ _ _ =>
    (match s.tryPop m q with
      | some s' => s'.settleQueue q
      | none => let x := s.queue q; s.setQueue q { x with waitPop := x.waitPop ++ [m.id] })
  | .mappedPop q _ =>
    (match s.tryPop m q with
      | some s' => s'.settleQueue q
      | none => let x := s.queue q; s.setQueue q { x with waitPop := x.waitPop ++ [m.id] })
  | _ => s

/-- QUEUE_POP_AT_HOME (R245): the pop in message `id` is answered at its queue's home. -/
def execQueuePopAtHome (id : Nat) (s : State) : Host.Outcome State Fault Refusal :=
  .next (match s.message id with | some m => s.popAtHome m | none => s)

end Sys2Proof.Machine
end

