-- ==== Sys2Proof/Machine/Strand.lean ====
section
/-! DEFINITION. Strands entering and leaving contexts (spec/02_strands.md R29 to R45, R50, R51; spec/19_traps.md R359 to R364):
the start of a strand, the suspension slug, retirement, the release of reservations, forced save and restore, and the waits a
cancel or a save withdraws. -/

namespace Sys2Proof.Machine

/-- A number no strand has had yet names the next one. -/
def State.freshEpoch (s : State) (c : Nat) : State :=
  { (s.updCtx c (fun x => { x with epoch := s.nextId + 1 })) with nextId := s.nextId + 1 }

/-! ## Windows (R17, R41, R258) -/

/-- Two ranges of a file meet. -/
def meets (a n b m : Nat) : Bool := decide (n ≠ 0) && decide (m ≠ 0) && decide (a < b + m) && decide (b < a + n)

/-- Two contexts' windows overlap in some file (R17). -/
def Windows.overlap (a b : Windows) : Bool :=
  meets a.gb a.gn b.gb b.gn || meets a.vb a.vn b.vb b.vn || meets a.db a.dn b.db b.dn

/-- Windows stay in their files (R16, R17). -/
def Windows.inFile (w : Windows) : Bool :=
  decide (w.gb + w.gn ≤ 2048) && decide (w.vb + w.vn ≤ 512) && decide (w.db + w.dn ≤ 64)

/-- The windows a CSTART window word names (R258). -/
def windowsOf (v : Word) : Windows :=
  { gb := (v.extractLsb' 20 11).toNat, gn := (v.extractLsb' 46 8).toNat, vb := (v.extractLsb' 31 9).toNat,
    vn := (v.extractLsb' 54 6).toNat, db := (v.extractLsb' 40 6).toNat, dn := (v.extractLsb' 60 4).toNat }

/-- The limits of a window word (R258). -/
def windowWordOk (v : Word) : Bool :=
  let w := windowsOf v
  v.extractLsb' 0 20 == 0#20 && w.gb % 8 == 0 && w.vb % 2 == 0 && w.gn % 8 == 0 && decide (8 ≤ w.gn) && decide (w.gn ≤ 128) &&
    w.vn % 2 == 0 && decide (w.vn ≤ 32) && decide (w.dn ≤ 8)

/-- The windows may be given to context c: no other context of its core, started and not reaped, overlaps them (R17, R258). -/
def State.windowsFree (s : State) (c : Nat) (w : Windows) : Bool :=
  w.inFile && (List.range 16).all (fun i =>
    let d := coreOf c * 16 + i
    d == c || (s.ctx d).cond == .empty || !w.overlap (s.ctx d).win)

/-- The POOLMASK bit of a context (R40). -/
def State.inMask (s : State) (c : Nat) : Bool := (s.core (coreOf c)).poolmask.getLsbD (c % 16)

/-- Context c has windows and no strand: in the pool when its POOLMASK bit is set (R41). -/
def State.unoccupied (s : State) (c : Nat) : State :=
  if s.inMask c then (s.updCtx c (fun x => { x with cond := .pooledFree })).callDispatcher (galOf c)
  else s.updCtx c (fun x => { x with cond := .emptyWin })

/-! ## The start of a strand (R34) -/

/-- PrivateTop of a context (R86). -/
def privateTop (c : Nat) : Word := BitVec.ofNat 64 (2 ^ 54 + c % 2 ^ 22 * 2 ^ 32 + 0xFFFFFFF0)

/-- Every register of a context's windows is 0, present and not armed (R34). -/
def State.clearWindow (s : State) (c n v d : Nat) : State :=
  let s := (List.range n).foldl (fun s i => s.setGReg c i {}) s
  let s := (List.range v).foldl (fun s i => s.setVReg c i {}) s
  (List.range d).foldl (fun s i => s.setDReg c i {}) s

/-- A strand begins in context c from a slug, with windows of n, v and d registers (R34). -/
def State.beginStrand (s : State) (c : Nat) (g : Slug) (n v d : Nat) (cond : Cond) : State :=
  let f := s.forme (g.program.toNat / 65536)
  let s := (s.freshEpoch c).updCtx c (fun x => { x with
    cond := cond, hold := .none, wait := .none, sg := n, sv := v, sd := d, pc := g.pc, masks := [], ox := []
    tr := { vec := (s.program g.program.toNat).trapVec }
    ctl := { deadline := g.deadline.setWidth 64, prio := g.prio.setWidth 64 }
    issued := 0#64, lastIssue := none, program := g.program, job := f.job, run := f.run, squeue := g.squeue
    imps := [], precise := none, later := none, cancel := none, skipBrk := false, skipWatch := false, stepPend := none, watchPend := none
    held := [], slotReady := [], refused := none })
  let s := s.clearWindow c n v d
  let s := (s.putG c 2 (privateTop c)).putG c 3 g.dw2
  ((((s.putG c 4 g.dw4).putG c 5 g.dw5).putG c 6 g.dw6).putG c 7 g.dw7).traceEvent c 1 g.program g.pc

/-- The windows of a context, its strand's windows with them (R17, R258). -/
def State.giveWindows (s : State) (c : Nat) (w : Windows) : State :=
  s.updCtx c (fun x => { x with win := w, sg := w.gn, sv := w.vn, sd := w.dn })

/-! ## Leaving a context (R35, R41, R253) -/

/-- The arms of a context's registers are cleared (R35, R239). -/
def State.clearArms (s : State) (c : Nat) : State :=
  (List.range (s.ctx c).sg).foldl (fun s i => if (s.gReg c i).st == .armed then s.markG c i .absent else s) s

/-- Whether a context holds a strand (R39, R253). -/
def Ctx.occupied (x : Ctx) : Bool := x.cond == .pinned || x.cond == .pooled

/-- The trace logs that a strand, if there is one, leaves context c (R384). -/
def State.traceLeave (s : State) (c : Nat) : State :=
  if (s.ctx c).occupied then s.traceEvent c 3 (s.ctx c).program (s.ctx c).pc else s

/-- The strand leaves context c, whose condition becomes `cond` (R39): its holds, waits and traps end with it. -/
def State.leave (s : State) (c : Nat) (cond : Cond) : State :=
  (((s.traceLeave c).clearArms c).freshEpoch c).updCtx c (fun x => { x with
    cond := cond, hold := .none, wait := .none, precise := none, later := none, cancel := none, imps := [], stepPend := none
    watchPend := none, held := [], slotReady := [], refused := none })

/-- A pooled strand leaves its context, which is free again, or empty with windows (R41, R253). -/
def State.leavePooled (s : State) (c : Nat) : State := (s.leave c .emptyWin).unoccupied c

/-- A context is empty and its windows are released (R252, R259). -/
def State.releaseWindows (s : State) (c : Nat) : State :=
  s.updCtx c (fun x => { x with cond := .empty, win := {}, sg := 0, sv := 0, sd := 0 })

/-- The clock of a context's die (R110). -/
def State.clockOf (s : State) (c : Nat) : Clock := (s.die (dieOf c)).clock

/-- The slug of the strand of context c at a suspension point (R35). The fields of dw0 hold a vector window below 32 and a distribution
window below 8 (R30): of a pinned strand with 32 or 8 they take the number modulo 16 pairs and 8, that is 0 (DESIGN CHOICE, log entry
58); its CSTART gives the windows by its own word (R258). -/
def State.slugAt (s : State) (c : Nat) (pc : Word) (pinned bit48 : Bool) : Slug :=
  let x := s.ctx c
  { dw0 := (if pinned then 0x8000000000000000#64 else 0#64) |||
      BitVec.ofNat 64 (x.sd % 8 * 2 ^ 60 + x.sv / 2 % 16 * 2 ^ 56 + x.sg * 2 ^ 48 + pc.toNat % 2 ^ 48)
    dw1 := BitVec.ofNat 64 (x.ctl.prio.toNat % 4 * 2 ^ 48 + x.ctl.deadline.toNat % 2 ^ 48)
    dw2 := BitVec.ofNat 64 ((if bit48 then 2 ^ 48 else 0) + x.squeue.toNat * 2 ^ 32 + x.program.toNat)
    dw4 := (s.gReg c 4).val, dw5 := (s.gReg c 5).val, dw6 := (s.gReg c 6).val, dw7 := (s.gReg c 7).val }

/-- The first poisoned register of those whose values a context's slug carries (R35, R372). -/
def State.slugPoison (s : State) (c : Nat) : Option Nat := [4, 5, 6, 7].find? (fun i => decide (i < (s.ctx c).sg) && (s.gReg c i).poison)

/-- What follows once the current context may leave with its slug, unless a register the slug carries is poisoned: precise ECC (R372). -/
def State.slugRead (s : State) (k : State) : State :=
  match s.slugPoison s.cur with
  | some i => s.trap causeECC 0#64 (BitVec.ofNat 64 (1 + i * 256))
  | none => k

/-- The key of a context's strand queue. -/
def Ctx.squeueKey (x : Ctx) : Nat := x.qkey x.squeue.toNat

/-! ## Reservations and waits (R51, R223, R239) -/

/-- DONE releases what the context holds, each as RSVREL at the scope it was won at (R223, R253). -/
def State.doneReservations (s : State) (c : Nat) : State :=
  s.resvs.foldl (fun s e =>
    match e.2.holder with
    | some (h, sc) =>
      if h = c then
        let r := s.stampedFor c { id := 0, src := c, epoch := (s.ctx c).epoch, job := (s.ctx c).job, prog := (s.ctx c).program,
                                  kind := .rsvrel, sc := sc, parts := [{ addr := e.1, loc := .cell e.1, size := 8 }],
                                  seen := s.clockOf c }
        r.1.send r.2 .bankAluOperation
      else s
    | none => s) s

/-- An LRW that waits has left its reservation queue, a BWAIT its barrier, a WAITV its table, an LVLWAIT its level, a pop or
push its queue, a colophon with its producer's bit (R62): message `m` is withdrawn, its destination restored (R50, R51, R239). -/
def State.withdrawMsg (s : State) (m : Msg) : State :=
  let s := s.dropMsg m.id
  let restore (s : State) (l : List Nat) : State :=
    l.foldl (fun s i => if (s.gReg m.src i).st == .pending then s.markG m.src i .present else s) s
  match m.kind with
  | .pop q _ vec t _ =>
    let x := s.queue q
    let s := (s.setQueue q { x with waitPop := x.waitPop.filter (· ≠ m.id) })
    let s := if vec then (if (s.vReg m.src t).st == .pending then s.markV m.src t .present else s) else s
    restore s m.dest.gregs
  | .mappedPop q i =>
    let x := s.queue q
    restore (s.setQueue q { x with waitPop := x.waitPop.filter (· ≠ m.id) }) [124 + i]
  | .push q e =>
    let x := s.queue q
    (s.setQueue q { x with
      waitPush := x.waitPush.filter (· ≠ m.id)
      coloph := if e.kind = .colophon then x.coloph.filter (· ≠ m.prog.setWidth 16) else x.coloph }).reports q
  | .waitv .. =>
    restore (s.updPkg (pkgOf m.src) (fun p => { p with waiters := p.waiters.filter (fun w => w.msg != m.id || w.hostAt.isSome) }))
      m.dest.gregs
  | _ => restore s m.dest.gregs

/-- A pop not yet answered at its home. -/
def Msg.openPop (m : Msg) : Bool := match m.kind with | .pop .. => !m.placed | .mappedPop .. => !m.placed | _ => false

/-- What becomes of a message of a cancelled strand (R50, R239): waits at a home are withdrawn; what is on its way lands and is
discarded, the results of long units with it (R212), and an STL whose wait is not over stores nothing; posted requests, engine operations and pops already accepted go on. -/
def State.cancelMsg (s : State) (m : Msg) : State :=
  match m.kind with
  | .lrw => if m.complete then s.setMsg { m with drop := true } else s.withdrawMsg m
  | .bwait _ => if m.complete then s.setMsg { m with drop := true } else s.withdrawMsg m
  | .waitv .. => if m.ans = [] then s.withdrawMsg m else s.setMsg { m with drop := true }
  | .lvlwait _ => if m.ans = [] then s.withdrawMsg m else s.setMsg { m with drop := true }
  | .pop .. => if m.openPop then s.withdrawMsg m else s.setMsg { m with drop := true }
  | .mappedPop .. => if m.openPop then s.withdrawMsg m else s.setMsg { m with drop := true }
  | .push .. => if m.waits then s.withdrawMsg m else s
  | .deposit .. => s.setMsg { m with drop := true }
  | .store => (match (s.ctx m.src).wait with | .fence _ id => if id = m.id then s.setMsg { m with drop := true } else s | _ => s)
  | .publish _ | .shadow .. | .feederPop .. | .level .. => s
  | _ => if m.posted = 0 then s.setMsg { m with drop := true } else s

/-- The save slot that a forced save of context c under way is to fill: the one in use since it began, else the lowest that is free
(R359). -/
def State.slotFor (s : State) (c : Nat) : Option Nat :=
  match s.savedSlot c (s.ctx c).epoch with
  | some i => some i
  | none => (s.core (coreOf c)).freeSlot

/-- A forced save of context c that is under way ends with nothing saved: its slot is free again (R359). -/
def State.abandonSave (s : State) (c : Nat) : State :=
  let t := match s.savedSlot c (s.ctx c).epoch with
    | some i => s.freeSlot (coreOf c) i
    | none => s
  { t with agenda := t.agenda.filter (· ≠ .forcedSave c) }

/-- The waits of context c end without completing (R50, R51, R239). -/
def State.withdraw (s : State) (c : Nat) : State :=
  let s := s.net.foldl (fun s m => if m.src = c ∧ s.live m then s.cancelMsg m else s) s
  (s.abandonSave c).updCtx c (fun x => { x with wait := .none })

/-! ## Save slots (R44, R359) -/

/-- A number from one bit for each of n places. -/
def bitsNat (f : Nat → Bool) (n : Nat) : Nat := (List.range n).foldl (fun a i => if f i then a + 2 ^ i else a) 0

/-- The control doublewords of a save slot in their order (R44). -/
def Ctx.savedCtl (x : Ctx) : List Word :=
  [x.ctl.fpctl, x.ctl.fpflags, x.tr.vec, x.tr.save, x.ctl.fmta, x.ctl.fmtb, x.ctl.scalea, x.ctl.scaleb, x.ctl.platecfg,
   x.ctl.qmap, x.dbg.step, x.tr.cause, x.tr.pc, x.tr.addr, x.tr.info]

/-- The 9,728 bytes of a save slot (R44). -/
def State.slotImage (s : State) (c : Nat) (g : Slug) : List Byte :=
  let x := s.ctx c
  let w (n : Nat) (i : Nat) (v : Nat) : Nat := if i < n then v else 0
  (List.range 128).flatMap (fun i => leBytes 8 (w x.sg i (s.gReg c i).val.toNat)) ++
  (List.range 32).flatMap (fun i => leBytes 64 (w x.sv i (s.vReg c i).val.toNat)) ++
  (List.range 8).flatMap (fun i => leBytes 768 (w x.sd i (s.dReg c i).img.toNat)) ++
  (List.range 8).flatMap (fun i => leBytes 2 (x.mask i).toNat) ++
  (List.range 8).flatMap (fun i => leBytes 8 (x.oxr i).toNat) ++
  leBytes 16 (bitsNat (fun i => decide (i < x.sg) && (s.gReg c i).st == .present) 128) ++
  leBytes 8 (bitsNat (fun i => decide (i < x.sv) && (s.vReg c i).st == .present) 32) ++
  leBytes 16 (bitsNat (fun i => decide (i < x.sg) && (s.gReg c i).st == .armed) 128) ++
  (List.range 8).map (fun i => if i < x.sd then (s.dReg c i).tag else 0#8) ++
  leBytes 8 g.dw0.toNat ++ leBytes 8 g.dw1.toNat ++ x.savedCtl.flatMap (fun v => leBytes 8 v.toNat) ++ leBytes 248 0

/-- A register of the context's windows is poisoned (R363). -/
def State.windowPoisoned (s : State) (c : Nat) : Bool :=
  let x := s.ctx c
  (List.range x.sg).any (fun i => (s.gReg c i).poison) || (List.range x.sv).any (fun i => (s.vReg c i).poison != 0#16) ||
    (List.range x.sd).any (fun i => (s.dReg c i).poison != 0#96)

/-- A strand is lost on a save error (R363, R364): its slot is poisoned, it retires with an error and a status record. -/
def State.loseStrand (s : State) (c slot : Nat) (prog : BitVec 32) : State :=
  let k := coreOf c
  let s := s.updCore k (fun x => { x with slots := Map.set x.slots slot { poison := true } })
  let s := (s.countError (pkgOf c) (progKey prog) 0x0103#16).retireChild (pkgOf c) prog (s.clockOf c)
  s.pushStatus (pkgOf c) (prog.toNat / 65536) 3 prog (BitVec.ofNat 64 c) ((s.core k).slotAddr slot)

/-- A forced save may begin (R43, R359, R361): a pooled strand, not held, without a reservation, none under way, and a free slot. -/
def State.mayPreempt (s : State) (c : Nat) : Bool :=
  (s.ctx c).cond == .pooled && (s.ctx c).hold == .none && !s.reservationBound c && !s.agenda.contains (.forcedSave c) &&
    (s.core (coreOf c)).freeSlot.isSome

/-- What a save undoes (R44): a blocked pop or push has not happened and reissues on resume. -/
def State.undoBlocked (s : State) (c : Nat) : State :=
  s.net.foldl (fun s m =>
    if m.src ≠ c ∨ ¬ s.live m then s
    else match m.kind with
      | .pop _ _ _ _ 0 => if m.openPop then (s.withdrawMsg m).updCtx c (fun x => { x with pc := m.pc, wait := .none }) else s
      | .mappedPop .. => if m.openPop then s.withdrawMsg m else s
      | .push .. =>
        if m.waits && (s.ctx c).pc == m.pc + BitVec.ofNat 64 m.len then
          (s.withdrawMsg m).updCtx c (fun x => { x with pc := m.pc })
        else s
      | _ => s) s

/-- The wait of a saved strand's slug: with the pager while the granule's fault is outstanding, else its strand queue (R44,
R360). -/
def State.homeSlug (s : State) (c : Nat) (w : Wait) (g : Slug) (q : Nat) (prog : BitVec 32) : State :=
  let d := dieOf c
  let push (s : State) : State := s.machinePush c prog q { cls := g.prio, payload := g.bits, stamp := s.clockOf c }
  match w with
  | .fault sp gr =>
    if (s.die d).faulted sp gr then
      s.updDie d (fun x => { x with faults := x.faults.map (fun f =>
        if f.space = sp ∧ f.gran = gr then { f with slugs := f.slugs ++ [(g, c, q)] } else f) })
    else push s
  | _ => push s

/-- The forced save of context c once what it issued has completed (R44, R360, R363). What the slot's layout has no place for is kept
beside it: the traps and the step that are pending (R362, R378), the matches its next issue is not to meet (R379), and which mapped registers hold a value (DESIGN CHOICE, log entry 59:
R44 and R70 do not say that a held value survives a save). -/
def State.saveStrand (s : State) (c : Nat) : State :=
  let k := coreOf c
  match s.slotFor c with
  | none => s
  | some i =>
    match s.slotKey k i with
    | none => s
    | some cell =>
      let x := s.ctx c
      if s.windowPoisoned c then ((s.leavePooled c).loseStrand c i x.program)
      else
        let g := s.slugAt c x.pc false false
        let g := { g with dw2 := g.dw2 ||| 0x0002000000000000#64, dw3 := (s.core k).slotAddr i }
        let s := s.setBytes cell (s.slotImage c g)
        let e : SaveSlot := { used := true, ctx := c, epoch := x.epoch, imps := x.imps, held := x.held, program := x.program,
                              job := x.job, run := x.run, squeue := x.squeue, refused := x.refused, precise := x.precise,
                              later := x.later, stepPend := x.stepPend, watchPend := x.watchPend, skipBrk := x.skipBrk,
                              skipWatch := x.skipWatch }
        let s := s.updCore k (fun y => { y with slots := Map.set y.slots i e })
        (s.leavePooled c).homeSlug c x.wait g x.squeueKey x.program

/-- Byte field of a slot. -/
def State.slotNat (s : State) (cell off n : Nat) : Nat := s.load (cell + off) n

/-- General register i as a save slot holds it (R44). -/
def State.slotG (s : State) (cell i : Nat) : GReg :=
  { val := BitVec.ofNat 64 (s.slotNat cell (8 * i) 8)
    st := if (s.slotNat cell 0x2450 16).testBit i then .present
      else if (s.slotNat cell 0x2468 16).testBit i then .armed else .pending }

/-- Vector register i as a save slot holds it (R44). -/
def State.slotV (s : State) (cell i : Nat) : VReg :=
  { val := BitVec.ofNat 512 (s.slotNat cell (0x400 + 64 * i) 64)
    st := if (s.slotNat cell 0x2460 8).testBit i then .present else .pending }

/-- Distribution register i as a save slot holds it (R44). -/
def State.slotD (s : State) (cell i : Nat) : DReg :=
  { img := BitVec.ofNat 6144 (s.slotNat cell (0xC00 + 768 * i) 768), tag := s.byte (cell + 0x2478 + i) }

/-- The registers of a context restored from its slot. -/
def State.restoreWindow (s : State) (c cell n v d : Nat) : State :=
  let s := (List.range n).foldl (fun s i => s.setGReg c i (s.slotG cell i)) s
  let s := (List.range v).foldl (fun s i => s.setVReg c i (s.slotV cell i)) s
  (List.range d).foldl (fun s i => s.setDReg c i (s.slotD cell i)) s

/-- The homes of the queues mapped in context c report their state (R186). -/
def State.reportSlots (s : State) (c : Nat) : State :=
  (List.range 4).foldl (fun s i =>
    if ((s.ctx c).mapped (124 + i)).isSome then s.dueOnce (.queueStateReport c (BitVec.ofNat 2 i)) else s) s

/-- A saved strand resumes in context c from slot i of its core, which becomes free (R34, R44, R362, R364). -/
def State.restoreStrand (s : State) (c i : Nat) (g : Slug) : State :=
  let k := coreOf c
  let e := Map.get (s.core k).slots i {}
  match s.slotKey k i with
  | none => s
  | some cell =>
    if s.poisoned cell 9728 then s.loseStrand c i e.program
    else
      let dw0 := BitVec.ofNat 64 (s.slotNat cell 0x2480 8)
      let dw1 := BitVec.ofNat 64 (s.slotNat cell 0x2488 8)
      let l : Slug := { g with dw0 := dw0, dw1 := dw1 }
      let w (j : Nat) : Word := BitVec.ofNat 64 (s.slotNat cell (0x2490 + 8 * j) 8)
      let s := (s.freeSlot k i).updCtx c (fun x => { x with
        cond := .pooled, hold := .none, wait := .none, sg := l.gwin, sv := l.vwin, sd := l.dwin, pc := l.pc
        masks := (List.range 8).map (fun j => (j, BitVec.ofNat 16 (s.slotNat cell (0x2400 + 2 * j) 2)))
        ox := (List.range 8).map (fun j => (j, BitVec.ofNat 64 (s.slotNat cell (0x2410 + 8 * j) 8)))
        ctl := { fpctl := w 0, fpflags := w 1, fmta := w 4, fmtb := w 5, scalea := w 6, scaleb := w 7, platecfg := w 8,
                 qmap := w 9, deadline := l.deadline.setWidth 64, prio := l.prio.setWidth 64 }
        tr := { vec := w 2, save := w 3, cause := w 11, pc := w 12, addr := w 13, info := w 14 }
        dbg := { x.dbg with step := w 10 }
        issued := 0#64, lastIssue := none, program := e.program, job := e.job, run := e.run, squeue := e.squeue
        epoch := e.epoch, imps := e.imps, precise := e.precise, later := e.later, cancel := none, skipBrk := e.skipBrk
        skipWatch := e.skipWatch, stepPend := e.stepPend, watchPend := e.watchPend, held := e.held, slotReady := [], refused := e.refused })
      ((s.restoreWindow c cell l.gwin l.vwin l.dwin).traceEvent c 2 e.program l.pc).reportSlots c

/-! ## The dispatcher (R31, R32, R43, R76, R77) -/

/-- A candidate slug: the strand queue and place it comes from, or none for the migration list; its home core for a migrated
one; its arrival and stamp. -/
structure Cand where
  src     : Option (Nat × Nat)
  slug    : Slug
  core    : Nat := 0
  arrival : Nat
  stamp   : Clock := {}
  deriving DecidableEq, Repr

/-- The slug is valid (R31). -/
def State.slugValid (s : State) (g : Nat) (c : Cand) : Bool :=
  let l := c.slug
  l.gwinOk && !l.dw0.getLsbD 0 && !l.badZeros && !l.pinned && (!l.migrated || c.src.isNone) &&
    (if l.fsave then (s.slotOfSlug g l).isSome else l.dw3 == 0#64)

/-- The slugs of galley g's strand queues, in queue order (R76); of a rendezvous queue the push that waits first, behind every slug that
has arrived (R63): it has not entered and bears no stamp, so such pushes count as the galley's next arrival and those of two queues go in the
order of the queues (DESIGN CHOICE, log entry 78). -/
def State.queued (s : State) (g : Nat) : List Cand :=
  s.queues.flatMap (fun e =>
    if e.2.valid && e.2.etype == 3#2 && e.2.gal == g then
      e.2.entries.zipIdx.map (fun (x, i) => { src := some (e.1, i), slug := slugOf x.payload, arrival := x.arrival, stamp := x.stamp }) ++
      (match s.rendezvous e.2 with
        | some (_, x) => [{ src := some (e.1, 0), slug := slugOf x.payload, arrival := (s.galley g).arrival, stamp := x.stamp }]
        | none => [])
    else [])

/-- Every slug galley g may place (R76, R237). -/
def State.slugs (s : State) (g : Nat) : List Cand :=
  s.queued g ++ (s.galley g).migr.map (fun m => { src := none, slug := m.1, core := m.2.1, arrival := m.2.2 })

/-- Context c's windows hold the slug's (R32). -/
def State.holds (s : State) (c : Nat) (l : Slug) : Bool :=
  let w := (s.ctx c).win
  decide (l.gwin ≤ w.gn) && decide (l.vwin ≤ w.vn) && decide (l.dwin ≤ w.dn)

/-- Context c may take the slug for all but being free: its windows, a migrated slug's home core, a saved strand's context while its
windows still hold the slug's (R32, R88). -/
def State.suits (s : State) (g c : Nat) (x : Cand) : Bool :=
  if x.slug.fsave then
    (match s.slotOfSlug g x.slug with | some (k, i) => (Map.get (s.core k).slots i {}).ctx == c && s.holds c x.slug | none => false)
  else s.holds c x.slug && (x.src.isSome || x.core == coreOf c)

/-- The contexts of galley g in the order of R32. -/
def galCtxs (g : Nat) : List Nat := (List.range 512).map (fun i => g * 512 + i)

/-- The context a slug would be placed in (R32). -/
def State.placeFor (s : State) (g : Nat) (x : Cand) : Option Nat :=
  (galCtxs g).find? (fun c => (s.ctx c).cond == .pooledFree && s.suits g c x)

/-- The slug is deferred (R77). -/
def State.deferred (s : State) (g : Nat) (l : Slug) : Bool :=
  (Map.get (s.pkg (g / 128)).allots (l.program.toNat / 65536) {}).exhausted && decide (50000 ≤ dist l.deadline (s.time (g / 128)))

/-- The order of R76. -/
def State.earlier (s : State) (g : Nat) (a b : Cand) : Bool :=
  let t := s.time (g / 128)
  let da := dist a.slug.deadline t
  let db := dist b.slug.deadline t
  if da ≠ db then decide (da < db)
  else if a.slug.prio ≠ b.slug.prio then b.slug.prio.ult a.slug.prio
  else decide (a.arrival < b.arrival)

/-- The first of some candidates under the order of R76. -/
def State.firstCand (s : State) (g : Nat) : List Cand → Option Cand
  | [] => none
  | x :: r => match s.firstCand g r with
    | none => some x
    | some y => if s.earlier g y x then some y else some x

/-- The slug a placement step places (R76). -/
def State.nextSlug (s : State) (g : Nat) : Option Cand :=
  s.firstCand g ((s.slugs g).filter (fun x => s.slugValid g x && (s.placeFor g x).isSome && !s.deferred g x.slug))

/-- The first invalid slug of a galley's strand queues (R31). -/
def State.badSlug (s : State) (g : Nat) : Option Cand := (s.queued g).find? (fun x => !s.slugValid g x)

/-- The strand a class-3 slug may have pre-empted (R43): of class 0–2, the latest deadline, ties to the higher core and
context. -/
def State.victim (s : State) (g : Nat) (x : Cand) : Option Nat :=
  let t := s.time (g / 128)
  let d (c : Nat) : Int := dist ((s.ctx c).ctl.deadline.setWidth 48) t
  let cs := (galCtxs g).filter (fun c => s.mayPreempt c && (s.ctx c).ctl.prio.toNat < 3 && s.suits g c x)
  cs.foldl (fun b c => match b with
    | none => some c
    | some a => if d c < d a then some a else some c) none

/-- The forced pre-emption that is called for (R43): by the first such slug in the order of the queue table and of its queue, unless one
is already under way in the galley (DESIGN CHOICE, log entry 60: R43 does not say which of several urgent slugs calls for it, nor how
many may be under way). -/
def State.preemption (s : State) (g : Nat) : Option Nat :=
  if s.agenda.any (fun e => match e with | .forcedSave c => galOf c == g | _ => false) then none
  else ((s.queued g).filter (fun x => s.slugValid g x && x.slug.prio == 3#2 && !s.deferred g x.slug &&
      decide (dist x.slug.deadline (s.time (g / 128)) < 10000) && (s.placeFor g x).isNone)).findSome? (fun x => s.victim g x)

/-- A dispatch step would do something now (R76): at most one slug every 8 cycles. -/
def State.dispatchable (s : State) (g : Nat) : Bool :=
  (s.badSlug g).isSome || (s.preemption g).isSome ||
    ((s.nextSlug g).isSome && decide ((s.galley g).placed ≤ (s.pkg (g / 128)).cycle))

/-- A slug is taken from where it lies. -/
def State.takeSlug (s : State) (g : Nat) (x : Cand) : State :=
  match x.src with
  | some (q, i) =>
    ((match s.rendezvous (s.queue q) with
      | some (w, e) => s.takeWaiting q w e 0xFFFF#16
      | none => s.setQueue q ((s.queue q).take 0xFFFF#16 i)).touch q).settleQueue q
  | none => s.updGal g (fun y => { y with migr := y.migr.filter (fun m => !(m.1 == x.slug && m.2.2 == x.arrival)) })

/-- An invalid slug is discarded (R31): it retires as a finished child, an error is counted, a status record pushed. -/
def State.discardSlug (s : State) (g : Nat) (x : Cand) : State :=
  let l := x.slug
  let s := (s.takeSlug g x).countError (g / 128) (progKey l.program) 0x0101#16
  (s.retireChild (g / 128) l.program x.stamp).pushStatus (g / 128) (l.program.toNat / 65536) 1 l.program l.dw0 l.dw2

/-- A slug is placed in context c (R32, R34): the strand begins, or resumes from its slot; the placement is an acquire
(R117). -/
def State.place (s : State) (g c : Nat) (x : Cand) : State :=
  let s := (s.takeSlug g x).learn (dieOf c) x.stamp
  if x.slug.fsave then
    match s.slotOfSlug g x.slug with
    | some (_, i) => s.restoreStrand c i x.slug
    | none => s
  else s.beginStrand c x.slug x.slug.gwin x.slug.vwin x.slug.dwin .pooled

/-- A late record (R76, R79): lateness and deadline; the program counts it whether or not the record finds room (R80). -/
def State.lateRecord (s : State) (g : Nat) (l : Slug) : State :=
  let d := dist l.deadline (s.time (g / 128))
  if 0 ≤ d then s
  else
    (s.updateLevel (g / 128) (progKey l.program) .late {}).pushStatus (g / 128) (l.program.toNat / 65536) 2 l.program
      (BitVec.ofInt 64 (-d)) (l.deadline.setWidth 64)

/-- One step of galley g's dispatcher (R31, R43, R76). -/
def State.dispatch (s : State) (g : Nat) : State :=
  let s' := match s.badSlug g with
    | some x => s.discardSlug g x
    | none =>
      match (if (s.galley g).placed ≤ (s.pkg (g / 128)).cycle then s.nextSlug g else none) with
      | some x =>
        (match s.placeFor g x with
          | some c => ((s.place g c x).updGal g (fun y => { y with placed := (s.pkg (g / 128)).cycle + 8 })).lateRecord g x.slug
          | none => s)
      | none => (match s.preemption g with
          | some c => s.beginSave c
          | none => s)
  if (s'.slugs g).isEmpty then s' else s'.callDispatcher g

/-- DISPATCH_STEP (R76): the dispatcher of galley g makes one placement step. -/
def execDispatchStep (g : Nat) (s : State) : Host.Outcome State Fault Refusal := .next (s.dispatch g)

/-- Nothing stands in the way of the end of a forced save: the strand is not held, what it issued has completed, and no push of it that
other issues have followed waits at its home (R43, R44). -/
def State.mayEndSave (s : State) (c : Nat) : Bool :=
  let t := s.undoBlocked c
  (s.ctx c).hold == .none && t.saveReady c && !t.pushBlocked c

/-- FORCED_SAVE (R44): the strand of context c is written to a save slot. -/
def execForcedSave (c : Nat) (s : State) : Host.Outcome State Fault Refusal :=
  .next (if (s.ctx c).cond != .pooled then s
    else if s.mayEndSave c then (s.undoBlocked c).saveStrand c
    else s.dueOnce (.forcedSave c))

/-- PREEMPT_REQUEST (R361): the dispatcher carries the save out when R44 allows it, and answers either way. -/
def execPreemptRequest (c : Nat) (s : State) : Host.Outcome State Fault Refusal :=
  .next (if s.mayPreempt c then (s.emit (.preemptAnswer c true)).beginSave c else s.emit (.preemptAnswer c false))

end Sys2Proof.Machine
end

