-- ==== Sys2Proof/Machine/Home.lean ====
section
/-! DEFINITION. What happens at the homes of memory and on the way back (spec/04_memory.md R93 to R105; spec/05_ordering.md R108,
R110; spec/10_isa_memory.md R218 to R235; spec/19_traps.md R354, R368 to R372): accesses applied and refused, bank
operations, answers landing, deposits, waits and publishes. -/

namespace Sys2Proof.Machine

/-! ## Answering -/

/-- The answer of a message as bytes. -/
def Msg.bytes (m : Msg) : List Byte := if m.ans = [] then m.parts.flatMap (·.data) else m.ans

/-- A general register of the strand of a message takes a value that has landed: one that was mapped at issue
pushes it, however it is mapped now (R70; DEDUCED, log entry 73), a saved strand takes it in its slot (R44), a cancelled wait only becomes present (R50), a strand that is gone discards it. -/
def State.landG (s : State) (m : Msg) (i : Nat) (v : Word) : State :=
  if s.live m then
    if m.drop then (if (s.gReg m.src i).st == .pending then s.markG m.src i .present else s)
    else match m.pushTo i with
      | some q =>
        let p : Msg := { id := 0, src := m.src, epoch := m.epoch, pc := m.pc, job := m.job, prog := m.prog,
                         kind := .push q { payload := v.setWidth 512, prog := m.prog },
                         seen := (s.die (dieOf m.src)).clock, sc := s.pushScope m.src q }
        s.send p .queuePushAtHome
      | none => s.putG m.src i v
  else match s.savedSlot m.src m.epoch with
    | none => s
    | some j => match s.slotKey (coreOf m.src) j with
      | none => s
      | some k =>
        let b := k + 0x2450 + i / 8
        if i = 0 then s
        else (s.setBytes (k + 8 * i) (leBytes 8 v.toNat)).setBytes b [s.byte b ||| BitVec.ofNat 8 (2 ^ (i % 8))]

/-- A vector register of the strand of a message takes a value that has landed in the lanes w. -/
def State.landV (s : State) (m : Msg) (i : Nat) (v : VWord) (w : Half) : State :=
  if s.live m then
    (if m.drop then (if (s.vReg m.src i).st == .pending then s.markV m.src i .present else s) else s.putV m.src i v w)
  else match s.savedSlot m.src m.epoch with
    | none => s
    | some j => match s.slotKey (coreOf m.src) j with
      | none => s
      | some k =>
        let b := k + 0x2460 + i / 8
        (s.setBytes (k + 0x400 + 64 * i) (leBytes 64 v.toNat)).setBytes b [s.byte b ||| BitVec.ofNat 8 (2 ^ (i % 8))]

/-- A vector value with the bytes of some elements of es bytes replaced (R203). -/
def mergeElems (es : Nat) (old : VWord) (ps : List Part) : VWord :=
  ps.foldl (fun v p =>
    let m : VWord := BitVec.ofNat 512 ((2 ^ (8 * es) - 1) * 2 ^ (8 * es * p.elem))
    (v &&& ~~~m) ||| (BitVec.ofNat 512 (leNat p.data * 2 ^ (8 * es * p.elem)) &&& m)) old

/-- The lanes of a register that some elements of es bytes fill (R191, R373). -/
def partLanes (es : Nat) (ps : List Part) : Half :=
  ps.foldl (fun w p => w ||| (BitVec.ofNat 16 (2 ^ (es / 4) - 1) <<< (p.elem * (es / 4)))) 0#16

/-- The lanes of vector register i that a message's values fill: of a pair, the second register has the upper half. -/
def Msg.lanesOf (m : Msg) (rs : List (RC × Nat × Nat)) (i : Nat) : Half :=
  if rs.any (fun r => r.1 == .v && r.2.1 + 1 == i) then m.lanes.extractLsb' 16 16 else m.lanes.setWidth 16

/-- Operand-extension registers from i on take the doublewords of a load (R160, R212). -/
def Ctx.landOx (x : Ctx) (i : Nat) : List Part → Ctx
  | [] => x
  | p :: r => (x.setOx (i + p.elem) (BitVec.ofNat 64 (leNat p.data))).landOx i r

/-- The value of a mapped pop is kept in the register as its held value (R70). -/
def State.landHeld (s : State) (m : Msg) (i : Nat) (v : Word) : State :=
  if s.live m then
    let s := s.putG m.src (124 + i) v
    if m.drop then s else s.updCtx m.src (fun x => { x with held := x.held ++ [i] })
  else s

/-- The registers an answer names take their values, present (R20). -/
def State.landDest (s : State) (m : Msg) : State :=
  match m.kind with
  | .mappedPop _ i => s.landHeld m i (BitVec.ofNat 64 (match m.dest with | .vals [(_, _, v)] => v | _ => 0))
  | _ =>
  match m.dest with
  | .g i size sext => s.landG m i (extendLoad size sext (leNat m.bytes))
  | .v i es _ =>
    if es = 8 then
      let lo := m.parts.filter (fun p => decide (p.elem < 8))
      let hi := (m.parts.filter (fun p => decide (8 ≤ p.elem))).map (fun p => { p with elem := p.elem - 8 })
      (s.landV m i (mergeElems 8 (s.vReg m.src i).val lo) (partLanes 8 lo)).landV m (i + 1) (mergeElems 8 (s.vReg m.src (i + 1)).val hi)
        (partLanes 8 hi)
    else s.landV m i (mergeElems es (s.vReg m.src i).val m.parts) (partLanes es m.parts)
  | .ox i _ => if s.live m && !m.drop then s.updCtx m.src (fun x => x.landOx i m.parts) else s
  | .vals rs => rs.foldl (fun s r => match r.1 with
      | .g => s.landG m r.2.1 (BitVec.ofNat 64 r.2.2)
      | .v => s.landV m r.2.1 (BitVec.ofNat 512 r.2.2) (m.lanesOf rs r.2.1)
      | .d => s) s
  | _ => s

/-- Registers that were to be filled keep their values, present. -/
def State.restoreRegs (s : State) (c : Nat) (rs : List (RC × Nat × Nat)) : State :=
  rs.foldl (fun s r => match r.1 with
    | .g => if (s.gReg c r.2.1).st == .pending then s.markG c r.2.1 .present else s
    | .v => if (s.vReg c r.2.1).st == .pending then s.markV c r.2.1 .present else s
    | .d => s) s

/-- The registers an access was to fill keep their values, present (R96, R214, R245). -/
def State.restoreDest (s : State) (m : Msg) : State :=
  let s := s.restoreRegs m.src m.kind.popDest
  match m.dest with
  | .vals rs => s.restoreRegs m.src rs
  | .g i _ _ => if (s.gReg m.src i).st == .pending then s.markG m.src i .present else s
  | .v i es _ =>
    (if es = 8 then [i, i + 1] else [i]).foldl (fun s j =>
      if (s.vReg m.src j).st == .pending then s.markV m.src j .present else s) s
  | _ => s

/-- The wait a message's answer ends (R21, R36). -/
def State.rejoin (s : State) (m : Msg) : State :=
  if m.waits && s.live m && !m.drop then s.updCtx m.src (fun x => { x with wait := .none }) else s

/-- The reads of an access as a watchpoint sees the values they returned (R377). -/
def Msg.seenReads (m : Msg) : List Seen :=
  match m.kind with
  | .load => m.parts.map (fun p => (false, p.generic, p.size, some (leNat p.data)))
  | .atomic .. | .lrw | .binit _ | .barrive | .bwait _ | .bstat _ =>
    m.parts.map (fun p => (false, p.generic, p.size, some (leNat m.ans)))
  | _ => []

/-! ## Pod groups as RPSTAT reads them (R292, R406) -/

/-- The pod group of a handle on package p. -/
def State.group (s : State) (p h : Nat) : Group := Map.get (s.pkg p).groups h {}

/-- A pod group of package p changed. -/
def State.updGroup (s : State) (p h : Nat) (f : Group → Group) : State :=
  s.updPkg p (fun x => { x with groups := Map.modify x.groups h {} f })

/-- Package p belongs to the group (R406). -/
def State.inGroup (s : State) (p h : Nat) : Bool := (s.group p h).members.contains p

/-- The members of a group, as a package that belongs to it knows them. -/
def State.ranks (s : State) (h : Nat) : List Nat :=
  match s.pkgs.find? (fun e => (Map.get e.2.groups h {}).members.contains e.1) with
  | some e => (Map.get e.2.groups h {}).members
  | none => []

/-- What RPSTAT reads of a group on package p (R292): the phase, and how many ranks have issued, all of them from the gathering on; within
the keys, histograms and split, and within the movement and the finishing, a free value says which, but that a group some of whose ranks
have ended, or that has aborted before movement, is finishing (log entry 8). -/
def State.rpstatWord (s : State) (p h : Nat) : Word × State :=
  if !s.inGroup p h then (0#64, s)
  else
    let ps := s.ranks h
    let phases := ps.map (fun q => (s.group q h).phase)
    let begun := phases.any (· ≠ 0)
    let n := if begun then ps.length else (ps.filter (fun q => (s.group q h).queue != [])).length
    let f := s.free
    let phase :=
      if phases.contains 3 then 6
      else if phases.contains 2 then (if phases.contains 0 then 6 else 5 + f.1.toNat % 2)
      else if phases.contains 1 then 2 + f.1.toNat % 3
      else if n = 0 then 0 else 1
    (BitVec.ofNat 64 (min n 255 * 256 + phase), f.2)

/-- The SHADOW that declared a buffer has completed: an operation issued from now on writes the shadow (R121). -/
def State.declared (s : State) (p : Nat) (job : Half) (base : Nat) : State :=
  { s with shadows := s.shadows.map (fun b =>
    if b.pkg = p ∧ b.job = job ∧ b.base = base ∧ b.since = none then { b with since := some s.nextId } else b) }

/-- An answer lands (R20, R21): registers, flags, the wait; a watchpoint compared by value strikes after. -/
def State.landing (s : State) (m : Msg) : State :=
  let r := match m.kind with
    | .rpstat h => let w := s.rpstatWord (pkgOf m.src) h; (({ m with ans := leBytes 8 w.1.toNat } : Msg), w.2)
    | .shadow b _ => (m, s.declared (pkgOf m.src) m.job b)
    | _ => (m, s)
  let m := r.1
  let s := (r.2.dropMsg m.id).landDest m
  let s := s.learn (dieOf m.src) m.seen
  let s := if s.live m && !m.drop && m.flags != 0#5 then s.raise m.src m.flags else s
  let s := match m.trap with | some t => s.pendTrap m t | none => s
  let s := s.rejoin m
  if s.live m && !m.drop then s.watchAfter m.src m.watch m.pc m.seenReads else s

/-- An instruction whose load has landed traps, precisely and with no effect of its own (R251, R258). -/
def State.landTrap (s : State) (m : Msg) (reason : Nat) (addr : Word) : State :=
  (s.dropMsg m.id).updCtx m.src (fun x => { x with
    pc := m.pc, wait := .none, precise := some ⟨false, causePROT, m.pc, addr, BitVec.ofNat 64 reason⟩ })

/-- A push by the strand of a message (R117). -/
def State.pushFor (s : State) (m : Msg) (q : Nat) (e : QEntry) : State :=
  s.send { id := 0, src := m.src, epoch := m.epoch, pc := m.pc, len := m.len, job := m.job, prog := m.prog,
           kind := .push q { e with prog := m.prog }, seen := (s.die (dieOf m.src)).clock, sc := s.pushScope m.src q }
    .queuePushAtHome

/-- SPAWN once its image has landed (R251): the checks and the live count, then the push; a wait for residency, for the flow window or
for the count at a record of another package (R419) leaves the message where it is, counted. The count of one whose strand is cancelled meanwhile is given back (R50). -/
def State.spawnLands (s : State) (m : Msg) : State :=
  let g := slugOf (BitVec.ofNat 512 (leNat m.bytes))
  let q := m.job.toNat * 65536 + g.squeue.toNat
  let p := pkgOf m.src
  let hold (s : State) : State := if m.placed then s else (s.addLive p g.program).setMsg { m with placed := true }
  if !s.live m || m.drop then
    (if m.placed then (s.dropMsg m.id).undoLive p g.program else s.dropMsg m.id)
  else
    let undo (s : State) : State := if m.placed then s.undoLive p g.program else s
    if g.program.toNat / 65536 ≠ m.prog.toNat / 65536 ∨ g.pinned ∨ (Map.find s.programs g.program.toNat).isNone then
      (undo s).landTrap m 15 0#64
    else if s.badHandle g.squeue.toNat q then (undo s).landTrap m 12 (g.squeue.setWidth 64)
    else if (s.queue q).etype ≠ 3#2 then (undo s).landTrap m 11 (g.squeue.setWidth 64)
    else if !(s.queue q).resident then ((hold s).dueOnce (.queueMissService q)).due (.loadValueLands m.id)
    else if s.flowFull m.src q then (hold s).due (.loadValueLands m.id)
    else if (hold s).countOwed p g.program then (hold s).due (.loadValueLands m.id)
    else ((hold s).pushFor m q { cls := g.prio, payload := g.bits }).landing m

/-- A pinned slug image is invalid (R258). -/
def Slug.badPinned (g : Slug) : Bool := !g.pinned || g.dw0.getLsbD 0 || g.fsave || g.dw3 != 0#64 || g.badZeros

/-- The highest of a level and the n levels above it that is being cancelled (R50). -/
def State.cancelled (s : State) : Nat → Nat → Option Nat
  | 0, _ => none
  | n + 1, l =>
    if !(s.level l).cancelling then none
    else some ((s.cancelled n (s.level l).parent).getD l)

/-- The strand of a program that is being cancelled takes CANCEL at its first slot (R50; DEDUCED, log entry 69). -/
def State.strikeLate (s : State) (c : Nat) (prog : BitVec 32) : State :=
  match s.cancelled 4 (progKey prog) with
  | none => s
  | some l => s.updCtx c (fun x => { x with cancel := some (BitVec.ofNat 3 (l / 2 ^ 32)) })

/-- CSTART once its image has landed (R258): the strand, counted first (R48, R419), starts with the windows given; the read is an acquire at
core scope. -/
def State.cstartLands (s : State) (m : Msg) (c : Nat) (win : Word) : State :=
  let g := slugOf (BitVec.ofNat 512 (leNat m.bytes))
  let p := pkgOf m.src
  if !s.live m || m.drop then
    (if m.placed then (s.dropMsg m.id).undoLive p g.program else s.dropMsg m.id)
  else if g.badPinned then s.landTrap m 18 0#64
  else
    let t := if g.migrated then s.unpark g.program (m.parts.map (·.loc))
      else if m.placed then s else (s.addLive p g.program).setMsg { m with placed := true }
    if !g.migrated && t.countOwed p g.program then t.due (.loadValueLands m.id)
    else
      let w := windowsOf win
      let t := if g.migrated then t else t.beginInstance c g.program
      (((t.giveWindows c w).beginStrand c g w.gn w.vn w.dn .pinned).strikeLate c g.program).landing m

/-- LOAD_VALUE_LANDS (R20): the answer in message `id` lands; the image of a SPAWN or CSTART does what it is read for. -/
def execLoadValueLands (id : Nat) (s : State) : Host.Outcome State Fault Refusal :=
  .next (match s.message id with
    | some m => (match m.dest with
      | .spawn => s.spawnLands m
      | .cstart c w => s.cstartLands m c w
      | _ => s.landing m)
    | none => s)

/-- LONG_LATENCY_RESULT_LANDS (R170): the result in message `id` lands, present. -/
def execLongLatencyResultLands (id : Nat) (s : State) : Host.Outcome State Fault Refusal :=
  .next (match s.message id with | some m => s.landing m | none => s)

/-- The places of a message's posted requests are free again (R354). -/
def State.unpost (s : State) (m : Msg) : State :=
  if m.posted = 0 then s else s.updCtx m.src (fun x => { x with posted := x.posted - m.posted })

/-- STORE_ACKNOWLEDGEMENT (R354): the acknowledgement in message `id` frees its places; a run may be complete (R54). -/
def execStoreAcknowledgement (id : Nat) (s : State) : Host.Outcome State Fault Refusal :=
  .next (match s.message id with | some m => ((s.dropMsg id).unpost m).checkRunOf m.prog.toNat | none => s)

/-- A pop by an instruction of its own. -/
def MsgKind.isPop : MsgKind → Bool
  | .pop .. => true
  | _ => false

/-- A mapped pop that is refused strikes only while its instruction still waits for it; another pops anew (R70, R71). -/
def State.moot (s : State) (m : Msg) : Bool :=
  match m.kind with
  | .mappedPop _ i => (s.ctx m.src).wait != .mapped (124 + i) || (s.ctx m.src).pc != m.pc
  | _ => false

/-- REFUSAL_ARRIVES (R96): a posted request's refusal pends; one of a load or another instruction that waits is precise, its
destination restored and its instruction to be named when the context next has a slot. The uncorrectable error of an entry that is
consumed strikes all the same once its context has gone on (R372; DESIGN CHOICE, log entry 31). -/
def State.refusal (s : State) (m : Msg) (t : PendTrap) : State :=
  let s := (s.dropMsg m.id).unpost m
  let s := if m.posted = 0 && s.live m then s.restoreDest m else s
  if t.imp then (if m.posted = 0 && m.drop then s else s.pendTrap m t)
  else if m.drop || !s.live m then s
  else if s.moot m then (if t.cause = causeECC then s.pendTrap m t else s)
  else if !m.waits && m.kind.isPop then s.pendTrap m t
  else s.updCtx m.src (fun x => { x with
      pc := m.pc, precise := some t, wait := if m.waits then .none else x.wait })

/-- REFUSAL_ARRIVES (R96): the refusal in message `id`; a run may be complete once a posted request is no more outstanding (R54). -/
def execRefusalArrives (id : Nat) (s : State) : Host.Outcome State Fault Refusal :=
  .next (match s.message id with
    | some m => (match m.refusal with
      | some t => if m.posted = 0 then s.refusal m t else (s.refusal m t).checkRunOf m.prog.toNat
      | none => s)
    | none => s)

/-! ## Clock messages (R110) -/

/-- The last number of an unbroken run of applied numbers after n. -/
def lastApplied : Nat → Nat → List Nat → Nat
  | 0, n, _ => n
  | f + 1, n, l => if l.contains (n + 1) then lastApplied f (n + 1) l else n

/-- Write number n of die d has been applied at its home: the die knows it, and tells the others of its package when the run
of applied writes has grown (R110). -/
def State.applied (s : State) (d n : Nat) : State :=
  if n = 0 then s
  else
    let o := d % 8
    let x := s.die d
    let l := x.applied ++ [n]
    let old := x.known.get o
    let k := lastApplied l.length old l
    let s := s.updDie d (fun x => { x with applied := l.filter (fun i => decide (k < i)), known := x.known.put o k })
    if k = old then s
    else ([0, 1, 2, 3, 4].filter (· ≠ o)).foldl (fun s e => s.due (.clockMessage (d / 8 * 8 + e) o k)) s

/-- CLOCK_MESSAGE (R110): die d learns how many writes of a die have been applied. -/
def execClockMessage (d origin count : Nat) (s : State) : Host.Outcome State Fault Refusal :=
  .next (s.updDie d (fun x => { x with known := x.known.put origin (max (x.known.get origin) count) }))

/-! ## An access at its home (R108) -/

/-- The first part not yet done, changed. -/
def markPart (f : Part → Part) : List Part → List Part
  | [] => []
  | p :: r => if p.done then p :: markPart f r else f p :: r

/-- The parts of a write inside its package are all done. -/
def Msg.insideDone (m : Msg) : Bool := m.parts.all (fun p => p.done || !p.loc.inPkg (pkgOf m.src))

/-- What a part of an access counts as in its program's energy estimate (R409; log entry 7): an access of a local store, else a flit that its
core has injected. -/
def Loc.activity (l : Loc) : Nat := match l with | .local _ _ => 204 | .cell k => if isLs k then 204 else 205 | _ => 205

/-- A message whose first open part has been dealt with: counted and stored, its number reported when that was the last one inside. -/
def State.partDone (s : State) (m : Msg) (f : Part → Part) : State × Msg :=
  let m' := { m with parts := markPart f m.parts }
  let a := ((m.parts.find? (fun p => !p.done)).map (fun p => p.loc.activity)).getD 205
  let s := (s.setMsg m').count (pkgOf m.src) m.prog a 1
  (if m'.insideDone && !m.insideDone then s.applied (dieOf m.src) m.num else s, m')

/-- The event at which an answer or a refusal of a load reaches its context: the end of the condenser instruction for a DLD (R307). -/
def Msg.arrival (m : Msg) (e : Instr) : Instr :=
  match m.dest with | .dist _ _ _ => .condenserOpEnd (coreOf m.src) | _ => e

/-- What follows when a plain access has no part left: the value lands, or the acknowledgement or refusal returns. -/
def State.settle (s : State) (m : Msg) : State :=
  if m.kind == .load then s.due (m.arrival (.loadValueLands m.id))
  else if m.refusal.isSome then s.due (.refusalArrives m.id)
  else s.due (.storeAcknowledgement m.id)

/-- What follows after a part: the next, or the end. -/
def State.goOn (s : State) (m : Msg) : State := if m.complete then s.settle m else s.due (.memoryRequestAtHome m.id)

/-- The trap a refusal or error of a message raises (R96, R352). -/
def Msg.trapOf (m : Msg) (a : Nat) (cause : Byte) (info : Nat) : PendTrap :=
  ⟨decide (m.posted ≠ 0), cause, m.pc, BitVec.ofNat 64 a, BitVec.ofNat 64 info⟩

/-- A part refused (R93, R96): a load is refused as a whole; of a posted store the first refusal is named, the part has no
effect and the others go on. -/
def State.refusePart (s : State) (m : Msg) (p : Part) (cause : Byte) (info : Nat) : State :=
  let t := m.trapOf p.addr cause info
  if m.posted = 0 then
    (s.setMsg { m with refusal := some t, parts := m.parts.map (fun q => { q with done := true }) }).due
      (m.arrival (.refusalArrives m.id))
  else
    let m := { m with refusal := some (m.refusal.getD t) }
    let r := s.partDone m (fun q => { q with done := true })
    r.1.goOn r.2

/-- The cells of the parts of a message that are done (R373). -/
def State.doneCells (s : State) (m : Msg) : List (Nat × Nat) :=
  (m.parts.filter (·.done)).filterMap (fun q => (s.cellOf m q).map (fun j => (j, q.size)))

/-- A part performed at cell k (R107, R108, R420): a load takes its bytes, or the error of a poisoned granule (R372); a store
writes them with its stamp, the granules that the parts of its instruction cover together losing their poison (R373), one of a release that a cancel has withdrawn writes nothing (R50). -/
def State.performPart (s : State) (m : Msg) (p : Part) (k : Nat) : State :=
  if m.kind == .load then
    if s.poisoned k p.size then s.refusePart m p causeECC (eccWhere k)
    else
      let bs := s.readThrough (coreOf m.src) k p.size
      let s := if k / 2 ^ 56 = pkgOf m.src then s.learn (dieOf m.src) (s.stampAt k p.size) else s
      let r := s.partDone m (fun q => { q with data := bs, done := true })
      r.1.goOn r.2
  else
    let c := if k / 2 ^ 56 = pkgOf m.src then m.stamp else (s.die (k / 2 ^ 56 * 8 + 4)).clock
    let s := if m.drop then s else ((s.setBytes k p.data).setStamp k p.size c).clearCovered ((k, p.size) :: s.doneCells m)
    let r := s.partDone m (fun q => { q with done := true })
    r.1.goOn r.2

/-- A place that its owner's windows or its key have admitted (R95, R405). -/
def Part.owned (q : Part) : Part := { q with loc := (match q.loc with | .priv c o => .owned c o | .remote k o => .accepted k o | l => l) }

/-- The first open part of a message has been admitted by its owner's windows or its key (R95, R405). -/
def State.markOwned (s : State) (m : Msg) : State := s.setMsg { m with parts := markPart Part.owned m.parts }

/-- The next part of message `id` at its home. -/
def State.requestAtHome (s : State) (id : Nat) : State :=
  match s.message id with
  | none => s
  | some m =>
    match m.parts.find? (fun p => !p.done) with
    | none => s.settle m
    | some p =>
      match s.homeOf m.src m.job m.kind.acc p.loc p.size with
      | .cell k => s.performPart m p k
      | .bad c i => s.refusePart m p c i
      | .miss g sp va => ((s.markOwned m).startWalk g sp (va / 65536)).due (.memoryRequestAtHome id)

/-- MEMORY_REQUEST_AT_HOME (R108). -/
def execMemoryRequestAtHome (id : Nat) (s : State) : Host.Outcome State Fault Refusal := .next (s.requestAtHome id)

/-! ## Bank operations (R98, R218 to R230) -/

/-- A bank operation is over: what it answers, and its number reported. -/
def State.bankDone (s : State) (m : Msg) (v : Word) (fl : Flags) : State :=
  let r := s.partDone { m with ans := leBytes 8 v.toNat, flags := fl } (fun q => { q with done := true })
  if m.posted = 0 then r.1.due (.loadValueLands m.id) else r.1.due (.storeAcknowledgement m.id)

/-- A bank operation refused: no effect (R96, R221, R228). -/
def State.bankRefuse (s : State) (m : Msg) (p : Part) (cause : Byte) (info : Nat) : State :=
  let r := s.partDone { m with refusal := some (m.trapOf p.addr cause info) } (fun q => { q with done := true })
  r.1.due (.refusalArrives m.id)

/-- A value read by a bank operation reaches the die of its context (R110). -/
def State.bankLearn (s : State) (m : Msg) (k n : Nat) : State :=
  if k / 2 ^ 56 = pkgOf m.src then s.learn (dieOf m.src) (s.stampAt k n) else s

/-- Bytes a bank operation writes, with the merged stamps of what it read and its own (R110). -/
def State.bankWrite (s : State) (m : Msg) (k : Nat) (bs : List Byte) : State :=
  let c := if k / 2 ^ 56 = pkgOf m.src then m.stamp else (s.die (k / 2 ^ 56 * 8 + 4)).clock
  (s.setBytes k bs).setStamp k bs.length ((s.stampAt k bs.length).merge c)

/-- new of R219, R220: the value, whether it is written, and the flags. -/
def AtomOp.apply (op : AtomOp) (old val cmp : Nat) : Nat × Bool × Flags :=
  let o := BitVec.ofNat 64 old
  let v := BitVec.ofNat 64 val
  let fp (x : Nat × Flags) : Nat × Bool × Flags := (x.1, true, x.2)
  let lo (x : Nat) : Nat := x % 2 ^ 32
  match op with
  | .add => ((o + v).toNat, true, 0#5)
  | .and => ((o &&& v).toNat, true, 0#5)
  | .or => ((o ||| v).toNat, true, 0#5)
  | .xor => ((o ^^^ v).toNat, true, 0#5)
  | .min => ((if v.slt o then v else o).toNat, true, 0#5)
  | .max => ((if o.slt v then v else o).toNat, true, 0#5)
  | .minn => ((if v.ult o then v else o).toNat, true, 0#5)
  | .maxn => ((if o.ult v then v else o).toNat, true, 0#5)
  | .fadds => fp (fmt32.add .rne (lo old) (lo val))
  | .fmins => fp (fmt32.minmax false (lo old) (lo val))
  | .fmaxs => fp (fmt32.minmax true (lo old) (lo val))
  | .faddd => fp (fmt64.add .rne old val)
  | .fmind => fp (fmt64.minmax false old val)
  | .fmaxd => fp (fmt64.minmax true old val)
  | .swap => (val, true, 0#5)
  | .cas => (val, old == cmp, 0#5)

/-- An atomic at cell k (R218): one step; flags only to returning forms (R148). -/
def State.atomicHome (s : State) (m : Msg) (p : Part) (k : Nat) (op : AtomOp) (val cmp : Word) : State :=
  let n := op.size
  if s.poisoned k n then s.bankRefuse m p causeECC (eccWhere k)
  else
    let old := s.load k n
    let r := op.apply old (val.toNat % 2 ^ (8 * n)) cmp.toNat
    let s := if m.posted = 0 then s.bankLearn m k n else s
    let s := if r.2.1 then s.bankWrite m k (leBytes n r.1) else s
    s.bankDone m (BitVec.ofNat 64 old) (if m.posted = 0 then r.2.2 else 0#5)

/-- The reservation of a doubleword passes to the first of some waiters that still waits (R221), with the clock of its hand-over (R110,
R116); a poisoned doubleword gives the waiter ECC (R372). -/
def State.grant (s : State) (k : Nat) (c : Clock) : List Nat → State
  | [] => { s with resvs := Map.del s.resvs k }
  | w :: r =>
    match s.message w with
    | none => s.grant k c r
    | some m =>
      if s.poisoned k 8 then
        (s.bankRefuse m { addr := m.parts.headD { addr := 0, loc := .cell k, size := 8 } |>.addr, loc := .cell k, size := 8 }
          causeECC (eccWhere k)).grant k c r
      else
        let s := { s with resvs := Map.set s.resvs k { holder := some (m.src, m.sc), waiters := r } }
        let s := if k / 2 ^ 56 = pkgOf m.src then s.learn (dieOf m.src) c else s
        (s.bankLearn m k 8).bankDone m (BitVec.ofNat 64 (s.load k 8)) 0#5

/-- Every reservation context c holds passes on (R51). -/
def State.loseReservations (s : State) (c : Nat) : State :=
  s.resvs.foldl (fun s e =>
    match e.2.holder with
    | some (h, _) => if h = c then s.grant e.1 {} e.2.waiters else s
    | none => s) s

/-- LRW at the bank (R221): granted at once when no one holds the doubleword, else behind the waiters. -/
def State.lrwHome (s : State) (m : Msg) (p : Part) (k : Nat) : State :=
  let r := Map.get s.resvs k {}
  match r.holder with
  | none => s.grant k {} [m.id]
  | some (h, _) =>
    if h = m.src then s.bankRefuse m p causePROT 4
    else ({ s with resvs := Map.set s.resvs k { r with waiters := r.waiters ++ [m.id] } }).setMsg { m with placed := true }

/-- SCH and RSVREL at the bank (R221): by the holder only; the store, then the hand-over. -/
def State.handOver (s : State) (m : Msg) (p : Part) (k : Nat) (val : Option Word) : State :=
  let r := Map.get s.resvs k {}
  if (match r.holder with | some (h, _) => h == m.src | none => false) then
    let s := match val with | some v => s.bankWrite m k (leBytes 8 v.toNat) | none => s
    (s.grant k (if k / 2 ^ 56 = pkgOf m.src then m.stamp else {}) r.waiters).bankDone m 0#64 0#5
  else s.bankRefuse m p causePROT 3

/-- A barrier's 16 bytes (R227). -/
def Bar.bytes (b : Bar) : List Byte :=
  leBytes 8 ((if b.poison then 2 ^ 63 else 0) + b.phase % 2 ^ 16 * 2 ^ 40 + b.arrived % 2 ^ 20 * 2 ^ 20 + b.expected % 2 ^ 20) ++
  leBytes 8 b.dw1

/-- The waiters of a barrier that a rule releases with a status are answered with it and the phase at return (R228); the
others stay. -/
def State.release (s : State) (k phase : Nat) (f : Nat → Option Nat) : List Nat → State
  | [] => s
  | w :: r =>
    match s.message w with
    | none => (({ s with bwaits := Map.modify s.bwaits k [] (fun l => l.filter (· ≠ w)) })).release k phase f r
    | some m =>
      match m.kind with
      | .bwait p =>
        match f p.toNat with
        | none => s.release k phase f r
        | some st =>
          let s := { s with bwaits := Map.modify s.bwaits k [] (fun l => l.filter (· ≠ w)) }
          (((s.bankLearn m k 16).bankDone m (BitVec.ofNat 64 (st + phase * 65536)) 0#5)).release k phase f r
      | _ => s.release k phase f r

/-- The waiters of the barrier at k. -/
def State.barWaiters (s : State) (k : Nat) : List Nat := Map.get s.bwaits k []

/-- Every waiter of the barrier judged before an operation (R227). -/
def State.judgeBar (s : State) (k : Nat) : State := s.release k (s.barAt k).phase (s.barAt k).judge (s.barWaiters k)

/-- One arrival at a barrier that is neither poisoned nor uninitialised (R228): the new barrier, and whether its phase ended. -/
def Bar.arrive (b : Bar) : Bar × Bool :=
  if b.arrived + 1 = b.expected then ({ b with phase := (b.phase + 1) % 65536, arrived := 0 }, true)
  else ({ b with arrived := b.arrived + 1 }, false)

/-- BINIT at the bank (R228). -/
def State.binitHome (s : State) (m : Msg) (k n : Nat) : State :=
  let s := s.judgeBar k
  let b := s.barAt k
  let b' : Bar := ⟨false, (b.phase + 1) % 65536, 0, n, 0⟩
  let s := s.bankWrite m k b'.bytes
  (s.release k b'.phase (fun _ => some 2) (s.barWaiters k)).bankDone m (BitVec.ofNat 64 b'.phase) 0#5

/-- BARRIVE at the bank (R228). -/
def State.barriveHome (s : State) (m : Msg) (p : Part) (k : Nat) : State :=
  let s := s.judgeBar k
  let b := s.barAt k
  if b.poison then s.bankDone m (BitVec.ofNat 64 (2 ^ 63 + b.phase)) 0#5
  else if b.expected = 0 then s.bankRefuse m p causePROT 6
  else
    let r := b.arrive
    let s := s.bankWrite m k r.1.bytes
    let s := if r.2 then s.release k r.1.phase (fun _ => some 0) (s.barWaiters k) else s
    s.bankDone m (BitVec.ofNat 64 b.phase) 0#5

/-- BWAIT at the bank (R228): a status at once, or a place among the waiters. -/
def State.bwaitHome (s : State) (m : Msg) (k p : Nat) : State :=
  let s := s.judgeBar k
  let b := s.barAt k
  match b.judge p with
  | some st => (s.bankLearn m k 16).bankDone m (BitVec.ofNat 64 (st + b.phase * 65536)) 0#5
  | none => ({ s with bwaits := Map.modify s.bwaits k [] (fun l => l ++ [m.id]) }).setMsg { m with placed := true }

/-- The reservation state BSTAT reads (R230). -/
def State.resvWord (s : State) (k : Nat) : Word :=
  let r := Map.get s.resvs k {}
  match r.holder with
  | none => 0#64
  | some (h, _) => BitVec.ofNat 64 (2 ^ 63 + min (r.waiters.filter (fun w => (s.message w).isSome)).length 32767 * 2 ^ 48 + h % 2 ^ 22)

/-- BSTAT at the bank (R230): nothing changes. -/
def State.bstatHome (s : State) (m : Msg) (k n : Nat) : State :=
  s.bankDone m (match n with
    | 0 => BitVec.ofNat 64 (s.load k 8)
    | 1 => BitVec.ofNat 64 (s.load (k + 8) 8)
    | _ => s.resvWord k) 0#5

/-- A bank operation carried out at cell k. -/
def State.bankOp (s : State) (m : Msg) (p : Part) (k : Nat) : State :=
  let bar (t : State) : State := if s.poisoned k 16 then s.bankRefuse m p causeECC (eccWhere k) else t
  match m.kind with
  | .atomic op val cmp => s.atomicHome m p k op val cmp
  | .lrw => s.lrwHome m p k
  | .sch v => s.handOver m p k (some v)
  | .rsvrel => s.handOver m p k none
  | .binit n => bar (s.binitHome m k n.toNat)
  | .barrive => bar (s.barriveHome m p k)
  | .bwait q => bar (s.bwaitHome m k q.toNat)
  | .bstat 2 => s.bstatHome m k 2
  | .bstat n => bar (s.bstatHome m k n)
  | _ => s

/-- BANK_ALU_OPERATION (R98): an address outside bank memory is refused (a remote key's, found here); a request that its key or window has
accepted stays so, also while it waits at the home (R95, R405). -/
def State.bankAtHome (s : State) (id : Nat) : State :=
  match s.message id with
  | none => s
  | some m =>
    match m.parts.find? (fun p => !p.done) with
    | none => s
    | some p =>
      match s.homeOf m.src m.job m.kind.acc p.loc p.size with
      | .cell k =>
        if isBank k then (s.markOwned m).bankOp { m with parts := markPart Part.owned m.parts } p.owned k else s.bankRefuse m p causePROT 0
      | .bad c i => s.bankRefuse m p c i
      | .miss g sp va => ((s.markOwned m).startWalk g sp (va / 65536)).due (.bankAluOperation id)

/-- BANK_ALU_OPERATION (R98, R419). -/
def execBankAluOperation (id : Nat) (s : State) : Host.Outcome State Fault Refusal :=
  .next (match s.message id with
    | some m => (match m.kind with
      | .level l op => (s.dropMsg id).applyLevel l op {}
      | _ => s.bankAtHome id)
    | none => s)

/-! ## Deposits (R232, R233) -/

/-- Whether some strand saved from context c waits in its core's save area (R88). -/
def State.hasSaved (s : State) (c : Nat) : Bool := (s.core (coreOf c)).slots.any (fun e => e.2.used && e.2.ctx == c)

/-- What a deposit meets at its target (R232, R233): 0 accepted, 1 refused, else 1 more than a rejection reason. -/
def State.depositCode (s : State) (c i : Nat) : Nat :=
  let x := s.ctx c
  if !x.occupied then (if s.hasSaved c then 1 else 2)
  else if x.sg ≤ i then 3
  else if i = 0 then 4
  else if (x.mapped i).isSome then 5
  else if (s.gReg c i).st == .armed then 0 else 1

/-- DEPOSIT_ARRIVAL (R233): an armed register takes the value, the arm cleared and presence set in one step. -/
def State.depositAt (s : State) (m : Msg) (target reg : Nat) (val : Word) : State :=
  let code := s.depositCode target reg
  let s := if code = 0 then s.putG target reg val else s
  (s.setMsg { m with num := code }).due (.depositAnswer m.id)

/-- DEPOSIT_ARRIVAL (R233). -/
def execDepositArrival (id : Nat) (s : State) : Host.Outcome State Fault Refusal :=
  .next (match s.message id with
    | some m => (match m.kind with | .deposit _ t r v => s.depositAt m t r v | _ => s)
    | none => s)

/-- A waiting instruction of context c completes; the held values it read are consumed (R70, R232, R262, R378). -/
def State.completeFor (s : State) (m : Msg) : State :=
  s.updCtx m.src (fun x => { x with
    pc := m.pc + BitVec.ofNat 64 m.len
    wait := .none
    issued := x.issued + 1
    held := x.held.filter (fun j => !m.srcs.contains (j + 124))
    stepPend := if x.dbg.step.getLsbD 0 then some m.pc else x.stepPend })

/-- DEPOSIT_ANSWER (R232): the NPUT completes, is to be issued again, or traps. -/
def execDepositAnswer (id : Nat) (s : State) : Host.Outcome State Fault Refusal :=
  .next (match s.message id with
    | none => s
    | some m =>
      let s := s.dropMsg id
      if !s.live m || m.drop then s
      else if m.num = 0 then s.completeFor m
      else if m.num = 1 then s.updCtx m.src (fun x => { x with wait := .depositRetry })
      else s.updCtx m.src (fun x => { x with
        wait := .none, precise := some ⟨false, causeNACK, m.pc, 0#64, BitVec.ofNat 64 (m.num - 1)⟩ }))

/-! ## Shadow and publish (R103 to R105, R225, R226) -/

/-- The listed cells of [k, k + n) without the rest. -/
def cellsIn (m : Memory) (k n : Nat) : Memory := m.filter (fun c => decide (k ≤ c.1) && decide (c.1 < k + n))

/-- Bytes written one by one. -/
def Memory.writeAll : Memory → Memory → Memory
  | m, [] => m
  | m, (a, b) :: r => Memory.writeAll (Memory.write m a b) r

/-- The n bytes at k copied to j. -/
def copyCells (m : Memory) (k j n : Nat) : Memory :=
  let rest := m.filter (fun c => !(decide (j ≤ c.1) && decide (c.1 < j + n)))
  Memory.writeAll rest ((cellsIn m k n).map (fun c => (c.1 - k + j, c.2)))

/-- The n bytes at cell k copied to cell j, with their poison and their stamps (R103, R373). -/
def State.copyFrame (s : State) (k j n : Nat) : State :=
  let bad := (s.poison.filter (fun g => decide (k ≤ g) && decide (g < k + n))).map (fun g => g - k + j)
  { s with
    mem := copyCells s.mem k j n
    poison := s.poison.filter (fun g => !(decide (j ≤ g) && decide (g < j + n))) ++ bad
    stamps := (s.stamps.filter (fun e => decide (k / 8 ≤ e.1) && decide (e.1 < (k + n) / 8))).foldl
      (fun m e => Map.set m (e.1 - k / 8 + j / 8) e.2) s.stamps }

/-- A page of a buffer: its address and size, the cell of its leaf, the leaf. -/
structure BufPage where
  va   : Nat
  size : Nat
  at_  : Nat
  leaf : Word
  deriving DecidableEq, Repr

/-- The pages of n bytes from va on, as the tables of package p stand: −2 for one that is not mapped, −7 where the bytes are no whole
number of whole pages (R103, R225). -/
def State.bufferPages (s : State) (p job : Nat) : Nat → Nat → Nat → Except Int (List BufPage)
  | 0, _, _ => .ok []
  | f + 1, va, n =>
    if n = 0 then .ok []
    else match s.walk p job va with
      | .fault _ => .error (-2)
      | .leaf base size k e =>
        if base ≠ va ∨ n < size then .error (-7)
        else match s.bufferPages p job f (va + size) (n - size) with
          | .ok l => .ok (⟨va, size, k, e⟩ :: l)
          | .error c => .error c

/-- The pages of a declared buffer. -/
def State.pagesOf (s : State) (b : Shadow) : List BufPage :=
  match s.bufferPages b.pkg b.job.toNat (b.len / 65536 + 1) b.base b.len with | .ok l => l | .error _ => []

/-- The cells of the visible copy of a declared buffer, page by page with their lengths. -/
def State.visibleCells (s : State) (b : Shadow) : List (Nat × Nat) := (s.pagesOf b).map (fun x => (physKey b.pkg (leafAddr x.leaf), x.size))

/-- The shadowed buffer of a job of package p at a base. -/
def State.shadowAt (s : State) (p : Nat) (job : Half) (base : Nat) : Option Shadow :=
  s.shadows.find? (fun b => b.pkg == p && b.job == job && b.base == base)

/-- The number of shadowed buffers of a job (R103). -/
def State.shadowCount (s : State) (job : Half) : Nat := (s.shadows.filter (fun b => b.job == job)).length

/-- An entry with another address (R367). -/
def withAddr (e : Word) (a : Nat) : Word := (e &&& ~~~0x0000FFFFFFFFFF00#64) ||| BitVec.ofNat 64 (a / 256 * 256)

/-- The region of a page of package physical address a that its shadow frame is taken from, the memory of its kind on its die: its number,
its bottom and its top (R103; log entry 12). -/
def shadowRegion (a : Nat) : Nat × Nat × Nat :=
  if bankBase ≤ a then
    let d := (a - bankBase) / 0x4000000
    (2 * d + 1, bankBase + d * 0x4000000, bankBase + (d + 1) * 0x4000000)
  else
    let d := a / 0x1800000000
    (2 * d, d * 0x1800000000, (d + 1) * 0x1800000000)

/-- A shadow frame for a page: the next below those taken, from the top of its region down (R103; DESIGN CHOICE, log entry 12). -/
def State.takeFrame (s : State) (p : Nat) (x : BufPage) : Option (Nat × State) :=
  let r := shadowRegion (leafAddr x.leaf)
  let top := r.2.2 - Map.get (s.pkg p).shadowUsed r.1 0
  let a := top / x.size * x.size - x.size
  if top < r.2.1 + x.size ∨ a < r.2.1 then none
  else some (a, s.updPkg p (fun y => { y with shadowUsed := Map.set y.shadowUsed r.1 (r.2.2 - a) }))

/-- A page paired with a shadow page whose contents are a copy of it: its leaf is shadowed, its companion names the frame (R103, R370). -/
def State.pairPage (s : State) (p : Nat) (x : BufPage) : Option State :=
  match s.takeFrame p x with
  | none => none
  | some (a, s) =>
    let leaf := x.leaf ||| 0x0200000000000000#64
    some (((s.copyFrame (physKey p (leafAddr x.leaf)) (physKey p a) x.size).setBytes x.at_ (leBytes 8 leaf.toNat)).setBytes
      (companionAt x.at_ x.size) (leBytes 8 (withAddr leaf a).toNat))

/-- Some pages paired. -/
def State.pairPages (s : State) (p : Nat) : List BufPage → Option State
  | [] => some s
  | x :: r => match s.pairPage p x with
    | none => none
    | some s => s.pairPages p r

/-- Every TLB of package p drops all its entries of a range in this step, and will have acknowledged (R370). -/
def State.dropPages (s : State) (p job base len : Nat) : State :=
  let hit (e : TlbEntry) : Bool := e.space == job && decide (e.base < base + len) && decide (base < e.base + e.size)
  let gs := (s.galleys.filter (fun g => g.1 / 128 == p && g.2.tlb.any hit)).map (·.1)
  let s := { s with galleys := s.galleys.map (fun g => if g.1 / 128 = p then (g.1, { g.2 with tlb := g.2.tlb.filter (fun e => !hit e) }) else g) }
  gs.foldl (fun s g => s.dueOnce (.tlbInvalidationAck g job (base / 65536) (len / 65536))) s

/-- A declaration of a shadowed buffer by context c (R225): the code, and the state with its pages paired. -/
def State.declare (s : State) (c : Nat) (job : Half) (base len : Nat) : Int × State :=
  let p := pkgOf c
  if 2 ^ 54 < base + len then (-2, s)
  else match s.bufferPages p job.toNat (len / 65536 + 1) base len with
    | .error e => (e, s)
    | .ok ps =>
      if !ps.all (fun x => leafWr x.leaf) || decide (1024 ≤ s.shadowCount job) ||
          s.shadows.any (fun b => b.pkg == p && b.job == job && decide (b.base < base + len) && decide (base < b.base + b.len)) then (-2, s)
      else match s.pairPages p ps with
        | none => (-2, s)
        | some t => (0, State.dropPages { t with shadows := t.shadows ++ [{ pkg := p, job := job, base := base, len := len }] } p job.toNat base len)

/-- SHADOW (R225): a declaration, or the withdrawal of one when the length is 0. -/
def execShadow (d a : GIdx) (b : G5Idx) (s : State) : Host.Outcome State Fault Refusal :=
  let u := useA d a b
  .next (s.withToken u d.toNat (fun s =>
    let base := (s.g a.toNat).toNat
    let len := (s.g b.toNat).toNat
    let m := { s.msg (.shadow base len) with dest := .g d.toNat 8 false, sc := .ctx }
    if len = 0 ∧ (s.shadowAt (pkgOf s.cur) s.me.job base).isSome then
      ((s.markG s.cur d.toNat .pending).send m .shadowWithdrawal).finish u
    else
      let r : Int × State := if len = 0 then (-7, s) else s.declare s.cur s.me.job base len
      ((r.2.markG s.cur d.toNat .pending).send { m with ans := leBytes 8 (codeWord r.1).toNat } .loadValueLands).finish u))

/-- A token's value goes on its way to its register (R101). -/
def State.tokenLands (s : State) (m : Msg) (c : Int) : State :=
  (s.setMsg { m with ans := leBytes 8 (codeWord c).toNat }).due (.loadValueLands m.id)

/-- The exchange of a buffer (R104 step 3, R370): the addr fields of each leaf and its companion, and every TLB drops its entries, in one
step for all observers. -/
def State.exchange (s : State) (b : Shadow) : State :=
  let s := (s.pagesOf b).foldl (fun s x =>
    let k := companionAt x.at_ x.size
    let c := BitVec.ofNat 64 (s.load k 8)
    (s.setBytes x.at_ (leBytes 8 (withAddr x.leaf (leafAddr c)).toNat)).setBytes k (leBytes 8 (withAddr c (leafAddr x.leaf)).toNat)) s
  s.dropPages b.pkg b.job.toNat b.base b.len

/-- A publish of a buffer by the rule (R104 steps 2 and 3): the fault of a failed write reported and cleared, or the exchange. -/
def State.publishBuffer (s : State) (b : Shadow) : State × Int :=
  if b.fault ≠ 0#64 then
    ({ s with shadows := s.shadows.map (fun x => if x.pkg = b.pkg ∧ x.job = b.job ∧ x.base = b.base then { x with fault := 0#64 } else x) },
      b.fault.toInt)
  else (s.exchange b, 0)

/-- PUBLISH_EXCHANGE (R104): −7 for a base that is none, else the publish. -/
def State.publishAt (s : State) (m : Msg) (base : Nat) : State :=
  match s.shadowAt (pkgOf m.src) m.job base with
  | none => s.tokenLands m (-7)
  | some b => let r := s.publishBuffer b; r.1.tokenLands m r.2

/-- PUBLISH_EXCHANGE (R104). -/
def execPublishExchange (id : Nat) (s : State) : Host.Outcome State Fault Refusal :=
  .next (match s.message id with
    | some m => (match m.kind with | .publish base => s.publishAt m base | _ => s)
    | none => s)

/-- A declaration withdrawn (R225): its pages are shadowed no more, their shadow pages discarded; the visible copy stays. -/
def State.withdrawShadow (s : State) (b : Shadow) : State :=
  let s := (s.pagesOf b).foldl (fun s x =>
    (s.setBytes x.at_ (leBytes 8 (x.leaf &&& ~~~0x0200000000000000#64).toNat)).setBytes (companionAt x.at_ x.size) (leBytes 8 0)) s
  ({ s with shadows := s.shadows.filter (fun x => !(x.pkg == b.pkg && x.job == b.job && x.base == b.base)) }).dropPages
    b.pkg b.job.toNat b.base b.len

/-- SHADOW_WITHDRAWAL (R225): the declaration is withdrawn, the visible copy stays. -/
def execShadowWithdrawal (id : Nat) (s : State) : Host.Outcome State Fault Refusal :=
  .next (match s.message id with
    | some m => (match m.kind with
      | .shadow base _ =>
        match s.shadowAt (pkgOf m.src) m.job base with
        | none => s.tokenLands m (-7)
        | some b => (s.withdrawShadow b).tokenLands { m with kind := .shadow base b.len } 0
      | _ => s)
    | none => s)

/-! ## Wait and wake (R234, R235, R342) -/

/-- A wait's status goes to the strand. -/
def State.waitStatus (s : State) (m : Msg) (st : Nat) : State :=
  (s.setMsg { m with ans := leBytes 8 st, placed := false, parts := m.parts.map (fun q => { q with done := true }) }).due
    (.loadValueLands m.id)

/-- Addresses in use in a table (R234). -/
def addressesIn (ws : List Waiter) : Nat := ((ws.map (fun w => (w.job, w.addr))).eraseDups).length

/-- The table is full for an address (R234): 262,144 waiters, or 65,536 addresses and this one not among them. -/
def tableFull (ws : List Waiter) (job : Half) (addr : Nat) : Bool :=
  decide (262144 ≤ ws.length) ||
  (decide (65536 ≤ addressesIn ws) && !ws.any (fun w => w.job == job && w.addr == addr))

/-- WAIT_TABLE_ENTER (R234): the waiter enters, then the doubleword is read at its home, as the context's load would read it (R107), then a
waiter whose value differs is withdrawn. Poison there is not looked at (DESIGN CHOICE, log entry 81). -/
def State.enterWait (s : State) (m : Msg) (addr : Nat) (val deadline : Word) : State :=
  let p := pkgOf m.src
  if tableFull (s.pkg p).waiters m.job addr then s.waitStatus m 3
  else match m.parts with
    | [] => s.waitStatus m 3
    | q :: _ =>
      match s.cellOf m q with
      | none => s.waitStatus m 1
      | some k =>
        if BitVec.ofNat 64 (leNat (s.readThrough (coreOf m.src) k 8)) ≠ val then s.waitStatus m 1
        else
          let s := (s.updPkg p (fun x => { x with waiters := x.waiters ++ [{ job := m.job, addr := addr, msg := m.id, deadline := deadline }] })).setMsg
            { m with placed := true }
          if deadline = 0#64 then s else s.due (.waitDeadlineExpiry p m.id)

/-- WAIT_TABLE_ENTER (R234). -/
def execWaitTableEnter (id : Nat) (s : State) : Host.Outcome State Fault Refusal :=
  .next (match s.message id with
    | some m => (match m.kind with | .waitv a v d => s.enterWait m a v d | _ => s)
    | none => s)

/-- A host waiter's completion word (R342): bit 63 set, with the status or number, written at its completion address. -/
def State.hostComplete (s : State) (p : Nat) (addr : Word) (st : Nat) : State := s.emit (.hostWrite p addr (leBytes 8 (2 ^ 63 + st)))

/-- A waiter is given a status and leaves the table (R234, R342). -/
def State.wakeOne (s : State) (p : Nat) (w : Waiter) (st : Nat) : State :=
  let s := s.updPkg p (fun x => { x with waiters := x.waiters.filter (fun y => !(y == w)) })
  match w.hostAt with
  | some a => s.hostComplete p a st
  | none => match s.message w.msg with
    | some m => s.waitStatus m st
    | none => s

/-- The first n waiters on an address, or all when n is 0 (R235). -/
def matching (ws : List Waiter) (job : Half) (addr n : Nat) : List Waiter :=
  let l := ws.filter (fun w => w.job == job && w.addr == addr)
  if n = 0 then l else l.take n

/-- A wake on package p (R235): the waiters woken in entry order, and their number. -/
def State.wake (s : State) (p : Nat) (job : Half) (addr n : Nat) : State × Nat :=
  let l := matching (s.pkg p).waiters job addr n
  (l.foldl (fun s w => s.wakeOne p w 0) s, l.length)

/-- WAIT_TABLE_WAKE (R235). -/
def execWaitTableWake (id : Nat) (s : State) : Host.Outcome State Fault Refusal :=
  .next (match s.message id with
    | some m => (match m.kind with
      | .wakev a n =>
        let r := s.wake (pkgOf m.src) m.job a n.toNat
        if m.posted ≠ 0 then r.1.due (.storeAcknowledgement id)
        else (r.1.setMsg { m with ans := leBytes 8 r.2 }).due (.loadValueLands id)
      | _ => s)
    | none => s)

/-- WAIT_DEADLINE_EXPIRY (R234): the waiter of message `id` whose deadline TIME has reached, by the wrap-safe rule (R76). -/
def execWaitDeadlineExpiry (p id : Nat) (s : State) : Host.Outcome State Fault Refusal :=
  .next (match (s.pkg p).waiters.find? (fun w => w.msg == id) with
    | some w =>
      if w.deadline != 0#64 && decide (dist (w.deadline.setWidth 48) (s.time p) ≤ 0) then s.wakeOne p w 2 else s
    | none => s)

/-! ## Walks, the pager and invalidation (R368 to R370) -/

/-- The TLB's size (R365). -/
def tlbSize : Nat := 4096

/-- A TLB takes an entry; the oldest leaves when it is full (log entry 10). -/
def Galley.fill (g : Galley) (e : TlbEntry) : Galley :=
  { g with tlb := (e :: g.tlb.filter (fun x => !(x.space == e.space && x.base == e.base))).take tlbSize }

/-- The contexts of a die that wait for a granule with a fault met: their waits change from walk to fault (R360). -/
def State.faultWaiters (s : State) (d space gran : Nat) : State :=
  (s.ctxs.map (·.1)).foldl (fun s c =>
    if dieOf c = d ∧ (s.ctx c).wait = .walk space gran then s.meetFault c space gran else s) s

/-- The page-cache key of a granule of a job's shared virtual space (R390). -/
def cacheKey (space gran : Nat) : Nat := space * 2 ^ 40 + gran

/-- Package p already reads a granule for its page cache (R391). -/
def Pkg.filling (x : Pkg) (space gran : Nat) : Bool := x.storage.any (fun r => r.2.fill == some (space, gran))

/-- A fault on a granule with a page-cache entry has the initiator read it, once for the waiters of every die (R391). -/
def State.startFill (s : State) (p space gran : Nat) : State :=
  match Map.find (s.pkg p).pageCache (cacheKey space gran) with
  | none => s
  | some (target, nsid, lba) =>
    if (s.pkg p).filling space gran then s
    else
      let i := (s.pkg p).nextReq
      let n := 65536 / (Map.get (s.pkg p).targets target {}).blockSize
      let r := leBytes 4 0 ++ leBytes 4 nsid ++ leBytes 8 target ++ leBytes 8 lba ++ leBytes 8 n ++ leBytes 32 (gran * 65536)
      (s.updPkg p (fun x => { x with
        nextReq := i + 1
        storage := Map.set x.storage i { job := BitVec.ofNat 16 space, rcd := r, fill := some (space, gran) } })).emit (.storageCommand p i r)

/-- The non-leaf entries a walker keeps: 256, the newest first (R368; log entry 10). -/
def Die.keep (d : Die) (l : List (Nat × Word)) : Die :=
  { d with nonleaf := (l ++ d.nonleaf.filter (fun e => !l.any (fun x => x.1 == e.1))).take 256 }

/-- A page-cache granule of package p is used: it is the last to be dropped (R391; what the walker reads is what counts as a use, log
entry 38). -/
def State.cacheUsed (s : State) (p key : Nat) : State :=
  s.updPkg p (fun x => if (Map.find x.pageCache key).isSome then { x with cacheUse := x.cacheUse.filter (· ≠ key) ++ [key] } else x)

/-- PAGE_WALK_COMPLETE (R368): every waiting TLB is filled, with the companion of a shadowed page (R370), that of a prefetch only when the
page can be read (R217); or one fault record is raised to the pager. -/
def State.walkDone (s : State) (d space gran : Nat) : State :=
  match (s.die d).walks.find? (fun w => w.space == space && w.gran == gran) with
  | none => s
  | some w =>
    let s := s.updDie d (fun x => { x with walks := x.walks.filter (fun y => !(y.space == space && y.gran == gran)) })
    let cache := (s.die d).nonleaf
    let s := s.updDie d (fun x => x.keep (s.walkPath cache (d / 8) space (gran * 65536)))
    match s.walkBy cache (d / 8) space (gran * 65536) with
    | .leaf base size k e =>
      let gs := w.gals ++ (if leafRd e && !leafEo e then w.prefs else [])
      (gs.foldl (fun s g => s.updGal g (fun x => x.fill
        { space := space, base := base, size := size, leaf := e, comp := s.companion k size e })) s).cacheUsed (d / 8) (cacheKey space gran)
    | .fault err =>
      let s := s.updDie d (fun x => { x with faults := x.faults ++ [{ space := space, gran := gran, ptErr := err, gals := w.gals, prefs := w.prefs }] })
      ((s.emit (.faultRecord d space gran err)).startFill (d / 8) space gran).faultWaiters d space gran

/-- PAGE_WALK_COMPLETE (R368). -/
def execPageWalkComplete (d space gran : Nat) (s : State) : Host.Outcome State Fault Refusal := .next (s.walkDone d space gran)

/-- TLB_INVALIDATION_ACK (R370): the entries of a range of granules leave galley g's TLB. -/
def execTlbInvalidationAck (g space gran pages : Nat) (s : State) : Host.Outcome State Fault Refusal :=
  .next (s.updGal g (fun x => { x with
    tlb := x.tlb.filter (fun e => !(e.space == space && decide (e.base < (gran + pages) * 65536) && decide (gran * 65536 < e.base + e.size))) }))

end Sys2Proof.Machine
end

