-- ==== Sys2Proof/Machine/Engine.lean ====
section
/-! DEFINITION. What the engines share (spec/04_memory.md R101 to R105; spec/05_ordering.md R119 to R123, R420;
spec/12_isa_engines.md R268, R269, R272): their accesses, the writes of an operation with their stamps and shadows, tokens. -/

namespace Sys2Proof.Machine

/-! ## Accesses (R92, R269, R358) -/

/-- What an engine's access meets: a cell, a token code, or a page to be found first. -/
inductive EngAt
  | cell (k : Nat)
  | code (c : Int)
  | miss (g space va : Nat)
  deriving DecidableEq, Repr

/-- The token code of a refusal (R358). -/
def codeOf (cause : Byte) : Int :=
  if cause = causeXLATE then -1 else if cause = causeRKEY then -4 else if cause = causeNACK then -5 else -2

/-- For whom an engine acts: the context, its job, the operation's number, the granules the pager has refused the operation, and whether
it translates through the galley's TLB or from the tables. -/
structure Agent where
  ctx     : Nat
  job     : Half
  seq     : Nat
  refused : List (Nat × Nat) := []
  tlb     : Bool := true
  deriving DecidableEq, Repr

/-- The translation of a virtual address for an engine (R85, R269): a page that is not mapped is for the pager. -/
def State.engXlate (s : State) (w : Agent) (g space va : Nat) (acc : Acc) : EngAt :=
  let missing : EngAt := if w.refused.contains (onPkg (g / 128) space, va / 65536) then .code (-1) else .miss g space va
  if w.tlb then
    match s.translate g space va acc (some w.seq) with
    | .cell k => .cell k
    | .bad c _ => .code (codeOf c)
    | .miss => missing
  else
    match s.walk (g / 128) space va with
    | .fault _ => missing
    | .leaf base size k e =>
      if leafEo e || (acc.reads && !leafRd e) || (acc.writes && !leafWr e) then .code (-2)
      else .cell (physKey (g / 128) (leafAddr (s.entryFor (g / 128) space va acc (some w.seq) e (s.companion k size e)) + (va - base)))

/-- An engine's access of n bytes at a generic address, checked as one of the issuing context (R92, R269). -/
def State.engineAt (s : State) (w : Agent) (acc : Acc) (a n : Nat) : EngAt :=
  match s.genericTarget w.ctx w.job acc (a % 2 ^ 64) with
  | .bad c _ => .code (codeOf c)
  | .virt sp va => s.engXlate w (galOf w.ctx) sp va acc
  | .place l =>
    match s.homeOf w.ctx w.job acc l n (some w.seq) with
    | .cell k => .cell k
    | .bad c _ => .code (codeOf c)
    | .miss g sp va => s.engXlate w g sp va acc

/-- The pieces of a range that a page, a line or a window does not cut: none longer than 64 bytes. -/
def pieces (a : Nat) : Nat → Nat → List (Nat × Nat)
  | 0, _ => []
  | f + 1, n => if n = 0 then [] else
    let k := min n (64 - a % 64)
    (a, k) :: pieces (a + k) f (n - k)

/-- The pieces of a range. -/
def linesOf (a n : Nat) : List (Nat × Nat) := pieces a (n / 64 + 2) n

/-- What the pieces of a range name: cells with their lengths; a page to be found first (R272). -/
structure Spans where
  cells : List (Nat × Nat) := []
  miss  : Option (Nat × Nat × Nat) := none
  deriving DecidableEq, Repr

/-- The spans of some pieces; what an access refuses names nothing. -/
def State.spans (s : State) (w : Agent) (acc : Acc) : List (Nat × Nat) → Spans
  | [] => {}
  | (a, n) :: r =>
    let x := s.spans w acc r
    match s.engineAt w acc a n with
    | .cell k => { x with cells := (k, n) :: x.cells }
    | .code _ => x
    | .miss g sp va => { x with miss := some (g, sp, va) }

/-- The spans of some ranges. -/
def State.spansOf (s : State) (w : Agent) (acc : Acc) (rs : List (Nat × Nat)) : Spans :=
  s.spans w acc (rs.flatMap (fun r => linesOf r.1 r.2))

/-- Two lists of spans share a byte. -/
def sharesByte (a b : List (Nat × Nat)) : Bool :=
  a.any (fun x => b.any (fun y => decide (x.1 < y.1 + y.2) && decide (y.1 < x.1 + x.2)))

/-! ## A transfer under way (R272) -/

/-- A transfer as far as it has come: the code or the page that stops it, the writes (generic address, cell, bytes; the latest
first), what it has read, flags, and the stamps of the values read. -/
structure Copy where
  stop   : Option Int := none
  miss   : Option (Nat × Nat × Nat) := none
  writes : List (Nat × Nat × List Byte) := []
  reads  : List (Nat × Nat) := []
  flags  : Flags := 0#5
  stamp  : Clock := {}
  deriving DecidableEq, Repr

/-- The transfer goes no further. -/
def Copy.over (x : Copy) : Bool := x.stop.isSome || x.miss.isSome

/-- The stamp a value brings to an engine of package p (R110, R111). -/
def State.stampFor (s : State) (p k n : Nat) : Clock := if k / 2 ^ 56 = p then s.stampAt k n else {}

/-- An engine's read of n bytes (R272, R372). -/
def State.engRead (s : State) (w : Agent) (a n : Nat) (x : Copy) : List Byte × Copy :=
  if x.over then ([], x)
  else match s.engineAt w .load a n with
    | .code c => ([], { x with stop := some c })
    | .miss g sp va => ([], { x with miss := some (g, sp, va) })
    | .cell k =>
      if s.poisoned k n then ([], { x with stop := some (-3), reads := (k, n) :: x.reads })
      else (s.bytes k n, { x with reads := (k, n) :: x.reads, stamp := x.stamp.merge (s.stampFor (pkgOf w.ctx) k n) })

/-- An engine's write (R272). -/
def State.engWrite (s : State) (w : Agent) (a : Nat) (bs : List Byte) (x : Copy) : Copy :=
  if x.over then x
  else match s.engineAt w .store a bs.length with
    | .code c => { x with stop := some c }
    | .miss g sp va => { x with miss := some (g, sp, va) }
    | .cell k => { x with writes := (a % 2 ^ 64, k, bs) :: x.writes }

/-! ## Order (R110, R119, R420) -/

/-- Die d knows every write a clock counts as applied (R110). -/
def State.covers (s : State) (d : Nat) (c : Clock) : Bool :=
  (List.range 5).all (fun i => decide (c.get i ≤ (s.die d).known.get i))

/-- No store a context of the core posted before the operation's issue, to the bytes it reads, is still under way (R420). -/
def State.readsClear (s : State) (core seq : Nat) (cells : List (Nat × Nat)) : Bool :=
  !s.net.any (fun m => decide (m.id < seq) && coreOf m.src == core && m.kind.isWrite &&
    m.parts.any (fun p => !p.done && (match s.cellOf m p with
      | some k => sharesByte [(k, p.size)] cells
      | none => false)))

/-- The homes of some writes inside package p may apply writes with a stamp (R110). -/
def State.writesClear (s : State) (p : Nat) (c : Clock) (cells : List Nat) : Bool :=
  cells.all (fun k => k / 2 ^ 56 ≠ p || s.covers (homeDie k) c)

/-! ## Shadowed buffers (R103 to R105) -/

/-- The package and the address of its shared virtual space that a generic address of package p names, by itself or through a remote
key (R83, R100, R103). -/
def State.virtOf (s : State) (p a : Nat) : Option (Nat × Nat) :=
  match a / 2 ^ 54 with
  | 0 => some (p, a)
  | 2 =>
    let key := a / 2 ^ 22 % 2 ^ 32
    (match Map.find (s.pkg (key / 2 ^ 26)).keys (key % 2 ^ 26) with
      | some e =>
        let b := e.base.toNat % 2 ^ 56 + a % 2 ^ 22
        if b / 2 ^ 54 = 0 then some (key / 2 ^ 26, b) else none
      | none => none)
  | _ => none

/-- The accesses of an operation of context c, numbered seq, to another package come after the stores that a release at system scope
before it has ordered (R119, R124). -/
def State.farClear (s : State) (c seq : Nat) (cells : List Nat) : Bool :=
  cells.all (fun k => k / 2 ^ 56 == pkgOf c) || s.sysReleased c seq

/-- Some ranges of package p name a byte of a buffer (R103): a range of the shared virtual space as a whole, one behind keys by its
lines. -/
def State.names (s : State) (p : Nat) (b : Shadow) (rs : List (Nat × Nat)) : Bool :=
  let meets (x : Option (Nat × Nat)) (n : Nat) : Bool :=
    match x with
    | some (q, va) => q == b.pkg && decide (va < b.base + b.len) && decide (b.base < va + n)
    | none => false
  rs.any (fun r => if r.1 / 2 ^ 54 = 0 then meets (some (p, r.1)) r.2 else (linesOf r.1 r.2).any (fun x => meets (s.virtOf p x.1) x.2))

/-- A publish, or a withdrawal, issued before an operation of package p, of a buffer the operation writes, is still to come (R105). -/
def State.publishAhead (s : State) (p : Nat) (job : Half) (seq : Nat) (rs : List (Nat × Nat)) : Bool :=
  s.net.any (fun m => decide (m.id < seq) && m.job == job && m.ans == [] && (match m.kind with
    | .publish b => (match s.shadowAt (pkgOf m.src) job b with | some x => s.names p x rs | none => false)
    | .shadow b _ => (match s.shadowAt (pkgOf m.src) job b with | some x => s.names p x rs | none => false)
    | _ => false))

/-- An operation of package p that has ended with a code marks the shadowed buffers it names, each with its first such code (R104). -/
def State.markShadows (s : State) (p : Nat) (job : Half) (rs : List (Nat × Nat)) (code : Int) : State :=
  if code = 0 then s
  else { s with shadows := s.shadows.map (fun b =>
    if b.job = job ∧ b.fault = 0#64 ∧ s.names p b rs = true then { b with fault := codeWord code } else b) }

/-! ## Writes and tokens (R103, R110, R120, R101, R135) -/

/-- One write of an engine of package p at a cell (R110, R111). -/
def State.putEngine (s : State) (p : Nat) (c : Clock) (k : Nat) (bs : List Byte) : State :=
  (s.setBytes k bs).setStamp k bs.length (if k / 2 ^ 56 = p then c else (s.die (k / 2 ^ 56 * 8 + 4)).clock)

/-- The writes of an engine of die d, in order, with the clock of its operation merged with what it read, after the counter of the
die has been incremented (R110); the stamp they carry. -/
def State.putAll (s : State) (d : Nat) (c : Clock) (ws : List (Nat × Nat × List Byte)) : State × Clock :=
  if ws = [] then (s, c)
  else
    let o := d % 8
    let n := (s.die d).clock.get o + 1
    let c := c.put o (max n (c.get o))
    let s := s.updDie d (fun x => { x with clock := x.clock.put o n })
    let s := (ws.foldl (fun s x => s.putEngine (d / 8) c x.2.1 x.2.2) s).clearCovered (ws.map (fun w => (w.2.1, w.2.2.length)))
    (s.applied d n, c)

/-- FPFLAGS in a save slot's image (R44). -/
def slotFlags : Nat := 0x2498

/-- Flags of an operation are ORed into FPFLAGS of its strand, running or saved (R135). -/
def State.raiseFor (s : State) (c epoch : Nat) (fl : Flags) : State :=
  if fl = 0#5 then s
  else if (s.ctx c).epoch = epoch then s.raise c fl
  else match s.savedSlot c epoch with
    | none => s
    | some j => match s.slotKey (coreOf c) j with
      | none => s
      | some k => s.setBytes (k + slotFlags) [s.byte (k + slotFlags) ||| fl.setWidth 8]

/-- A token lands: the code in its register, present in the same step; the reader of the token sees the operation's writes (R101,
R102, R120). -/
def State.landToken (s : State) (c epoch tok : Nat) (code : Int) (fl : Flags) (stamp : Clock) : State :=
  let m : Msg := { id := 0, src := c, epoch := epoch, kind := .result }
  let s := (s.landG m tok (codeWord code)).raiseFor c epoch fl
  if s.live m then s.learn (dieOf c) stamp else s

/-- An instruction whose unit cannot accept it has not issued: the slot passes and its context stays ready (R268). -/
def State.unitBusy (s : State) : State := s.notUntil ((s.core (coreOf s.cur)).cycle + 1)

/-- A page an engine needs is not there: the walk is started (R269). -/
def State.engineMiss (s : State) (x : Nat × Nat × Nat) : State := s.startWalk x.1 x.2.1 (x.2.2 / 65536)

/-- A page an engine misses is still awaited: a walk or a fault of it is outstanding (R368). -/
def State.missAwaited (s : State) (x : Option (Nat × Nat × Nat)) : Bool :=
  match x with
  | none => false
  | some (g, sp, va) => (s.die (dieOfGal g)).faulted sp (va / 65536) || (s.die (dieOfGal g)).walking sp (va / 65536)

end Sys2Proof.Machine
end

