-- ==== Sys2Proof/Machine/Special.lean ====
section
/-! DEFINITION. The special functions of VSF (spec/09_isa_vector.md R198): the exact value to 800 fractional bits, the binary32
values within the bound of it, and the one of them the GM9 returns, which the spec does not give (log entry 14). -/

namespace Sys2Proof.Machine

/-- Fractional bits of the fixed-point values of this file. -/
def fxBits : Nat := 800
/-- 1 as a fixed-point value. -/
def fxOne : Int := 2 ^ 800
/-- The fixed-point product. -/
def fxMul (a b : Int) : Int := a * b / fxOne

/-- The series of atan (1/k) from a term on, signs alternating when `alt`, else of atanh (1/k). -/
def invSeries (k : Int) (alt : Bool) : Nat → Int → Int → Bool → Int
  | 0, _, _, _ => 0
  | f + 1, t, i, neg => (if neg then -(t / i) else t / i) + invSeries k alt f (t / (k * k)) (i + 2) (alt && !neg)

/-- π. -/
def fxPi : Int := 16 * invSeries 5 true 180 (fxOne / 5) 1 false - 4 * invSeries 239 true 60 (fxOne / 239) 1 false
/-- ln 2. -/
def fxLn2 : Int := 2 * invSeries 3 false 260 (fxOne / 3) 1 false

/-- The exponential series from a term on. -/
def expSeries (x : Int) : Nat → Int → Int → Int
  | 0, _, _ => 0
  | f + 1, t, i => t + expSeries x f (fxMul t x / i) (i + 1)

/-- The series of sin or cos from a term on, each term the one before times −x²/(i(i+1)). -/
def trigSeries (xx : Int) : Nat → Int → Int → Int
  | 0, _, _ => 0
  | f + 1, t, i => t + trigSeries xx f (-(fxMul t xx / (i * (i + 1)))) (i + 2)

/-- The series of atanh z from a term on. -/
def atanhSeries (zz : Int) : Nat → Int → Int → Int
  | 0, _, _ => 0
  | f + 1, t, i => t / i + atanhSeries zz f (fxMul t zz) (i + 2)

/-- A rational as a fixed-point value. -/
def fxOf (neg : Bool) (n d : Nat) : Int := if neg then -((n * 2 ^ fxBits / d : Nat) : Int) else ((n * 2 ^ fxBits / d : Nat) : Int)

/-- sin, or cos, of a fixed-point value. -/
def fxTrig (cosine : Bool) (x : Int) : Int :=
  let h := fxPi / 2
  let q := x / h + (if cosine then 1 else 0)
  let r := x - x / h * h
  let rr := fxMul r r
  let v := if q % 2 = 0 then trigSeries rr 90 r 2 else trigSeries rr 90 fxOne 1
  if q % 4 < 2 then v else -v

/-- 2 to the fraction f, 0 ≤ f < 1. -/
def fxExp2 (f : Int) : Int := expSeries (fxMul f fxLn2) 150 fxOne 1

/-- The functions of VSF. -/
inductive SFn | rcp | rsq | exp2 | log2 | sin | cos | tanh
  deriving DecidableEq, Repr

/-- The bound of a function in units in the last place. -/
def SFn.bound : SFn → Nat | .rcp => 1 | .rsq => 1 | _ => 2

/-- The number of a function in VSF. -/
def SFn.code : SFn → Nat | .rcp => 0 | .rsq => 1 | .exp2 => 2 | .log2 => 3 | .sin => 4 | .cos => 5 | .tanh => 6

/-- The magnitude of the value of a binary32 pattern without sign, and of a unit in its last place, in units of 2^−149. -/
def gridOf (b : Nat) : Nat × Nat :=
  let e := b / 2 ^ 23
  if e = 0 then (b, 1) else ((2 ^ 23 + b % 2 ^ 23) * 2 ^ (e - 1), 2 ^ (e - 1))

/-- The binary32 patterns of positive sign (or −1 unit, for a pattern below 0) within k units in the last place of n/d. -/
def within (k n d : Nat) : List Int :=
  let e := floorLog2 n d
  let eq : Int := if e < -126 then -126 else e
  let m := (scaledDiv n d (eq - 23)).1
  let b : Int := (eq + 126) * 2 ^ 23 + m
  ([-2, -1, 0, 1, 2, 3] : List Int).filterMap (fun i =>
    let c := b + i
    if c < -2 ∨ 0x7F800000 ≤ c then none
    else
      let (g, u) := gridOf c.natAbs
      let v : Int := if c < 0 then -(g : Int) else g
      if (v * d - n * 2 ^ 149).natAbs ≤ k * u * d then some c else none)

/-- The pattern of a candidate with a sign. -/
def patternOf (neg : Bool) (c : Int) : Nat :=
  if (c < 0) != neg then 0x80000000 + c.natAbs else c.natAbs

/-- An inexact result near ±n/d: one of the values within the bound, the GM9's own (R198), with inexact, and underflow when it
is tiny. -/
def inexactNear (f : SFn) (x : Nat) (neg : Bool) (n d : Nat) : Nat × Flags :=
  let l := within f.bound n d
  let c := l.getD (Config.vsfChoice f.code x % l.length) 0
  (patternOf neg c, flNX ||| (if c.natAbs < 2 ^ 23 then flUF else 0#5))

/-- The result near a fixed-point value. -/
def nearFx (f : SFn) (x : Nat) (v : Int) : Nat × Flags := inexactNear f x (v < 0) v.natAbs (2 ^ fxBits)

/-- A power of two as its exponent. -/
def pow2? (n d : Nat) : Option Int :=
  let e := floorLog2 n d
  if (if 0 ≤ e then decide (n = d * 2 ^ e.toNat) else decide (n * 2 ^ (-e).toNat = d)) then some e else none

/-- An exact result. -/
def exact32 (v : FVal) : Nat × Flags := fmt32.round .rne v

/-- 2^e as a value. -/
def two (neg : Bool) (e : Int) : FVal := if 0 ≤ e then .fin neg (2 ^ e.toNat) 1 else .fin neg 1 (2 ^ (-e).toNat)

/-- 1/x beyond the largest finite value: the spec gives no result (log entry 14); inexact and overflow. -/
def rcpOverflow (x : Nat) : Nat × Flags := ((Config.vsfBeyond (BitVec.ofNat 32 x)).toNat, flOF ||| flNX)

/-- A special function of a binary32 pattern (R198). -/
def SFn.apply (f : SFn) (x : Nat) : Nat × Flags :=
  match fmt32.decode x with
  | .nan s => (fmt32.nan, if s then flNV else 0#5)
  | .inf neg =>
    match f with
    | .rcp => (fmt32.signed neg 0, 0#5)
    | .rsq => if neg then (fmt32.nan, flNV) else (0, 0#5)
    | .exp2 => if neg then (0, 0#5) else (fmt32.inf, 0#5)
    | .log2 => if neg then (fmt32.nan, flNV) else (fmt32.inf, 0#5)
    | .sin => (fmt32.nan, flNV)
    | .cos => (fmt32.nan, flNV)
    | .tanh => exact32 (.fin neg 1 1)
  | .fin neg n d =>
    if n = 0 then
      match f with
      | .rcp => (fmt32.signed neg fmt32.inf, flDZ)
      | .rsq => (fmt32.signed neg fmt32.inf, flDZ)
      | .exp2 => exact32 (.fin false 1 1)
      | .log2 => (fmt32.signed true fmt32.inf, flDZ)
      | .sin => (fmt32.signed neg 0, 0#5)
      | .cos => exact32 (.fin false 1 1)
      | .tanh => (fmt32.signed neg 0, 0#5)
    else
      match f with
      | .rcp =>
        if n * 2 ^ 128 ≤ d then rcpOverflow x
        else match pow2? n d with
          | some e => exact32 (two neg (-e))
          | none => inexactNear f x neg d n
      | .rsq =>
        if neg then (fmt32.nan, flNV)
        else match pow2? n d with
          | some e => if e % 2 = 0 then exact32 (two false (-(e / 2))) else inexactNear f x false (Nat.sqrt (d * 2 ^ 800 / n)) (2 ^ 400)
          | none => inexactNear f x false (Nat.sqrt (d * 2 ^ 800 / n)) (2 ^ 400)
      | .exp2 =>
        let v := if neg then -(n : Int) else n
        let i := v / d
        if 128 ≤ i then (fmt32.inf, flOF ||| flNX)
        else if v % d = 0 ∧ -149 ≤ i then exact32 (two false i)
        else
          let i' := if i < -400 then -400 else i
          let fr := (v - i * d) * fxOne / d
          let y := fxExp2 fr
          if 0 ≤ i' then inexactNear f x false (y.natAbs * 2 ^ i'.toNat) (2 ^ fxBits)
          else inexactNear f x false y.natAbs (2 ^ (fxBits + (-i').toNat))
      | .log2 =>
        if neg then (fmt32.nan, flNV)
        else match pow2? n d with
          | some e => exact32 (.fin (e < 0) e.natAbs 1)
          | none =>
            let e := floorLog2 n d
            let n' := if e < 0 then n * 2 ^ (-e).toNat else n
            let d' := if e < 0 then d else d * 2 ^ e.toNat
            let z := fxOf false (n' - d') (n' + d')
            let l := 2 * atanhSeries (fxMul z z) 270 z 1
            nearFx f x (e * fxOne + l * fxOne / fxLn2)
      | .sin => nearFx f x (fxTrig false (fxOf neg n d))
      | .cos => nearFx f x (fxTrig true (fxOf neg n d))
      | .tanh =>
        if 100 * d ≤ n then nearFx f x (if neg then -(fxOne - 1) else fxOne - 1)
        else
          let y := 2 * fxOf false n d
          let k := y / fxLn2
          let e := expSeries (y - k * fxLn2) 150 fxOne 1 * 2 ^ k.toNat
          let v := (e - fxOne) * fxOne / (e + fxOne)
          nearFx f x (if neg then -v else v)

end Sys2Proof.Machine
end

