-- ==== Sys2Proof/Machine/Curve.lean ====
section
/-! DEFINITION. Space-filling-curve keys (spec/06_numbers.md R150; spec/12_isa_engines.md R293). -/

namespace Sys2Proof.Machine

/-- The cell of a coordinate in a box, none for a NaN coordinate (R150). -/
def cellOf (q lo hi : FVal) : Option Nat :=
  match q with
  | .nan _ => none
  | _ =>
    match lo, hi with
    | .fin _ _ ld, .fin _ _ hd =>
      let span : Int := hi.num * ld - lo.num * hd
      if span ≤ 0 then some 0
      else match q with
        | .inf neg => some (if neg then 0 else 2 ^ 21 - 1)
        | _ =>
          let c : Int := (q.num * ld - lo.num * q.den) * hd * 2 ^ 21 / (q.den * span)
          some (if c < 0 then 0 else min c.toNat (2 ^ 21 - 1))
    | _, _ => some 0

/-- Bit b of three cells at key bits 3b + 2, 3b + 1 and 3b, from bit n − 1 down (R150). -/
def interleave (x y z : Nat) : Nat → Nat
  | 0 => 0
  | n + 1 =>
    let bit (v : Nat) : Nat := v / 2 ^ n % 2
    (bit x * 4 + bit y * 2 + bit z) * 2 ^ (3 * n) + interleave x y z n

/-- The Morton key (R150). -/
def mortonKey (x y z : Nat) : Nat := interleave x y z 21

/-- One axis of a level of HilbertKey: reflect or exchange the low bits (R293). -/
def hilbertAxis (q : Nat) (x : Nat × Nat × Nat) (i : Nat) : Nat × Nat × Nat :=
  let p := q - 1
  let xi := match i with | 0 => x.1 | 1 => x.2.1 | _ => x.2.2
  if Nat.land xi q ≠ 0 then (Nat.xor x.1 p, x.2.1, x.2.2)
  else
    let t := Nat.land (Nat.xor x.1 xi) p
    match i with
    | 0 => (Nat.xor (Nat.xor x.1 t) t, x.2.1, x.2.2)
    | 1 => (Nat.xor x.1 t, Nat.xor x.2.1 t, x.2.2)
    | _ => (Nat.xor x.1 t, x.2.1, Nat.xor x.2.2 t)

/-- The Hilbert key (R293). -/
def hilbertKey (x y z : Nat) : Nat :=
  let v := (List.range 20).foldl (fun v l =>
    [0, 1, 2].foldl (hilbertAxis (2 ^ (20 - l))) v) (x, y, z)
  let b := Nat.xor v.2.1 v.1
  let c := Nat.xor v.2.2 b
  let t := (List.range 20).foldl (fun t l =>
    if Nat.land c (2 ^ (20 - l)) ≠ 0 then Nat.xor t (2 ^ (20 - l) - 1) else t) 0
  interleave (Nat.xor v.1 t) (Nat.xor b t) (Nat.xor c t) 21

/-- The key of a point whose coordinate is a NaN (R150). -/
def nanKey : Nat := 0x7FFFFFFFFFFFFFFF

/-- The key of three coordinates in a box (R150). -/
def curveKey (hilbert : Bool) (q lo hi : FVal × FVal × FVal) : Nat :=
  match cellOf q.1 lo.1 hi.1, cellOf q.2.1 lo.2.1 hi.2.1, cellOf q.2.2 lo.2.2 hi.2.2 with
  | some x, some y, some z => if hilbert then hilbertKey x y z else mortonKey x y z
  | _, _, _ => nanKey

theorem mortonKey_example : mortonKey 5 3 6 = 0x15E := by decide

end Sys2Proof.Machine
end

