-- ==== Sys2Proof/Machine/Scalar.lean ====
section
/-! DEFINITION. The scalar integer, control-transfer and compact instructions (spec/08_isa_scalar.md R166 to R177, R185 to
R188; spec/07_encoding.md R159). -/

namespace Sys2Proof.Machine

/-- Fields of an RR instruction: d, a, b (R154). -/
def useRR (d a b : GIdx) : Use :=
  { lim := [(.g, d.toNat, 18), (.g, a.toNat, 11), (.g, b.toNat, 4)], gsrc := [a.toNat, b.toNat], gdst := [d.toNat] }
/-- Fields of an RI instruction, or an RR one whose b names no register: d, a. -/
def useRI (d a : GIdx) : Use :=
  { lim := [(.g, d.toNat, 18), (.g, a.toNat, 11)], gsrc := [a.toNat], gdst := [d.toNat] }
/-- Fields of an instruction with a destination alone. -/
def useD (d : GIdx) : Use := { lim := [(.g, d.toNat, 18)], gdst := [d.toNat] }
/-- Fields of a compact instruction with destination and first source a, second source b (R158); REGLIM names the places of its
equivalent's fields (R159, R188). -/
def useCAB (a b : G5Idx) : Use :=
  { len := 2, lim := [(.g, a.toNat, 18), (.g, b.toNat, 4)], gsrc := [a.toNat, b.toNat], gdst := [a.toNat] }
/-- Fields of a compact instruction with destination and source a. -/
def useCA (a : G5Idx) : Use := { len := 2, lim := [(.g, a.toNat, 18)], gsrc := [a.toNat], gdst := [a.toNat] }

/-- A result of 8 cycles or less, of the registers read at issue (R166). -/
def State.alu (s : State) (u : Use) (d : Nat) (f : State → Word) : State :=
  s.issue u (fun s => (s.writeG d (f s)).finish u)

/-- An RR instruction computing g[d] from g[a] and g[b]. -/
def State.aluRR (s : State) (d a b : GIdx) (f : Word → Word → Word) : State :=
  s.alu (useRR d a b) d.toNat (fun s => f (s.g a.toNat) (s.g b.toNat))
/-- An RI or unary instruction computing g[d] from g[a]. -/
def State.aluRI (s : State) (d a : GIdx) (f : Word → Word) : State :=
  s.alu (useRI d a) d.toNat (fun s => f (s.g a.toNat))

/-- The lesser or greater by SInt (R168). -/
def sMin (x y : Word) : Word := if y.slt x then y else x
/-- The greater by SInt. -/
def sMax (x y : Word) : Word := if x.slt y then y else x
/-- The lesser by NInt. -/
def nMin (x y : Word) : Word := if y.ult x then y else x
/-- The greater by NInt. -/
def nMax (x y : Word) : Word := if x.ult y then y else x
/-- The shift amount: bits [5:0] (R168). -/
def sh6 (y : Word) : Nat := y.toNat % 64
/-- The high half of the signed product (R169). -/
def mulHi (x y : Word) : Word := BitVec.ofInt 64 (x.toInt * y.toInt / 2 ^ 64)
/-- The high half of the natural product (R169). -/
def mulHiN (x y : Word) : Word := BitVec.ofNat 64 (x.toNat * y.toNat / 2 ^ 64)

/-- Leading zeros of a w-bit value, w when it is 0 (R171). -/
def clzW (w e : Nat) : Nat := if e = 0 then w else w - 1 - Nat.log2 e
/-- The index of the lowest 1 bit, w when there is none (R171). -/
def ffsW (w e : Nat) : Nat := ((List.range w).find? (fun i => e.testBit i)).getD w
/-- The number of 1 bits (R171). -/
def popcW (w e : Nat) : Nat := ((List.range w).filter (fun i => e.testBit i)).length
/-- Elements of width w, the first at the low end, as one number. -/
def packElems (w : Nat) : List Nat → Nat
  | [] => 0
  | e :: r => e % 2 ^ w + 2 ^ w * packElems w r
/-- Element i of width w of a number (R127). -/
def elemOf (w x i : Nat) : Nat := x / 2 ^ (w * i) % 2 ^ w
/-- Each of the n elements of width w mapped in place (R171). -/
def mapElems (w n : Nat) (f : Nat → Nat) (x : Nat) : Nat := packElems w ((List.range n).map (fun i => f (elemOf w x i)))
/-- The width a two-bit field selects: 8, 16, 32 or 64 (R161). -/
def widthOf (k : BitVec 2) : Nat := 8 * 2 ^ k.toNat
/-- A unary counting form (R171). -/
def unaryElems (k : BitVec 2) (f : Nat → Nat → Nat) (x : Word) : Word :=
  BitVec.ofNat 64 (mapElems (widthOf k) (64 / widthOf k) (f (widthOf k)) x.toNat)
/-- The low w bits sign-extended (R171). -/
def sextW (k : BitVec 2) (x : Word) : Word :=
  match k.toNat with
  | 0 => (x.setWidth 8).signExtend 64
  | 1 => (x.setWidth 16).signExtend 64
  | 2 => (x.setWidth 32).signExtend 64
  | _ => x
/-- The low w bits zero-extended (R171). -/
def zextW (k : BitVec 2) (x : Word) : Word :=
  match k.toNat with
  | 0 => (x.setWidth 8).setWidth 64
  | 1 => (x.setWidth 16).setWidth 64
  | 2 => (x.setWidth 32).setWidth 64
  | _ => x
/-- The 8 bytes reversed (R172). -/
def bswap64 (x : Word) : Word := BitVec.ofNat 64 (leNat (leBytes 8 x.toNat).reverse)
/-- A field of len bits at pos (R175). -/
def bfxWord (x : Word) (pos len : Nat) : Word := BitVec.ofNat 64 (x.toNat / 2 ^ pos % 2 ^ len)
/-- t with its field of len bits at pos replaced by the low bits of x (R175). -/
def bfiWord (t x : Word) (pos len : Nat) : Word :=
  let m : Word := BitVec.ofNat 64 ((2 ^ len - 1) * 2 ^ pos)
  (t &&& ~~~m) ||| ((x <<< pos) &&& m)
/-- t with halfword h replaced (R176). -/
def limhWord (t : Word) (h : BitVec 2) (i : Half) : Word := bfiWord t (i.setWidth 64) (16 * h.toNat) 16

/-- DIV, DIVN, REM and REMN (R170): DIVZ when the divisor is 0 and its enable is set, else a result that lands later. -/
def State.divide (s : State) (d a b : GIdx) (f : Word → Word → Word) : State :=
  let u := useRR d a b
  s.issue u (fun s =>
    let x := s.g a.toNat
    let y := s.g b.toNat
    if y = 0#64 ∧ s.me.ctl.fpctl.getLsbD 5 then s.trap causeDIVZ 0#64 0#64
    else s.longResult u [(.g, d.toNat, (f x y).toNat)] 0#5 0#16)

/-- The quotient of R170, signed. -/
def divS (x y : Word) : Word := if y = 0#64 then BitVec.allOnes 64 else x.sdiv y
/-- The quotient, natural. -/
def divN (x y : Word) : Word := if y = 0#64 then BitVec.allOnes 64 else x / y
/-- The remainder, signed: the sign of the dividend. -/
def remS (x y : Word) : Word := if y = 0#64 then x else x.srem y
/-- The remainder, natural. -/
def remN (x y : Word) : Word := if y = 0#64 then x else x % y

/-- ADD (R168). -/
def execAdd (d a b : GIdx) (s : State) : Host.Outcome State Fault Refusal :=
  .next (s.aluRR d a b (fun x y => x + y))

/-- SUB (R168). -/
def execSub (d a b : GIdx) (s : State) : Host.Outcome State Fault Refusal :=
  .next (s.aluRR d a b (fun x y => x - y))

/-- AND (R168). -/
def execAnd (d a b : GIdx) (s : State) : Host.Outcome State Fault Refusal :=
  .next (s.aluRR d a b (fun x y => x &&& y))

/-- OR (R168). -/
def execOr (d a b : GIdx) (s : State) : Host.Outcome State Fault Refusal :=
  .next (s.aluRR d a b (fun x y => x ||| y))

/-- XOR (R168). -/
def execXor (d a b : GIdx) (s : State) : Host.Outcome State Fault Refusal :=
  .next (s.aluRR d a b (fun x y => x ^^^ y))

/-- ANDN (R168). -/
def execAndn (d a b : GIdx) (s : State) : Host.Outcome State Fault Refusal :=
  .next (s.aluRR d a b (fun x y => x &&& ~~~y))

/-- SHL (R168). -/
def execShl (d a b : GIdx) (s : State) : Host.Outcome State Fault Refusal :=
  .next (s.aluRR d a b (fun x y => x <<< sh6 y))

/-- SHR (R168). -/
def execShr (d a b : GIdx) (s : State) : Host.Outcome State Fault Refusal :=
  .next (s.aluRR d a b (fun x y => x >>> sh6 y))

/-- SHA (R168). -/
def execSha (d a b : GIdx) (s : State) : Host.Outcome State Fault Refusal :=
  .next (s.aluRR d a b (fun x y => x.sshiftRight (sh6 y)))

/-- ROT (R168). -/
def execRot (d a b : GIdx) (s : State) : Host.Outcome State Fault Refusal :=
  .next (s.aluRR d a b (fun x y => x.rotateLeft (sh6 y)))

/-- MIN (R168). -/
def execMin (d a b : GIdx) (s : State) : Host.Outcome State Fault Refusal :=
  .next (s.aluRR d a b sMin)

/-- MAX (R168). -/
def execMax (d a b : GIdx) (s : State) : Host.Outcome State Fault Refusal :=
  .next (s.aluRR d a b sMax)

/-- MINN (R168). -/
def execMinn (d a b : GIdx) (s : State) : Host.Outcome State Fault Refusal :=
  .next (s.aluRR d a b nMin)

/-- MAXN (R168). -/
def execMaxn (d a b : GIdx) (s : State) : Host.Outcome State Fault Refusal :=
  .next (s.aluRR d a b nMax)

/-- SLT (R168). -/
def execSlt (d a b : GIdx) (s : State) : Host.Outcome State Fault Refusal :=
  .next (s.aluRR d a b (fun x y => boolWord (x.slt y)))

/-- SLTN (R168). -/
def execSltn (d a b : GIdx) (s : State) : Host.Outcome State Fault Refusal :=
  .next (s.aluRR d a b (fun x y => boolWord (x.ult y)))

/-- MUL (R169). -/
def execMul (d a b : GIdx) (s : State) : Host.Outcome State Fault Refusal :=
  .next (s.aluRR d a b (fun x y => x * y))

/-- MULH (R169). -/
def execMulh (d a b : GIdx) (s : State) : Host.Outcome State Fault Refusal :=
  .next (s.aluRR d a b mulHi)

/-- MULHN (R169). -/
def execMulhn (d a b : GIdx) (s : State) : Host.Outcome State Fault Refusal :=
  .next (s.aluRR d a b mulHiN)

/-- SEQ (R169). -/
def execSeq (d a b : GIdx) (s : State) : Host.Outcome State Fault Refusal :=
  .next (s.aluRR d a b (fun x y => boolWord (x == y)))

/-- DIV (R170). -/
def execDiv (d a b : GIdx) (s : State) : Host.Outcome State Fault Refusal :=
  .next (s.divide d a b divS)

/-- DIVN (R170). -/
def execDivn (d a b : GIdx) (s : State) : Host.Outcome State Fault Refusal :=
  .next (s.divide d a b divN)

/-- REM (R170). -/
def execRem (d a b : GIdx) (s : State) : Host.Outcome State Fault Refusal :=
  .next (s.divide d a b remS)

/-- REMN (R170). -/
def execRemn (d a b : GIdx) (s : State) : Host.Outcome State Fault Refusal :=
  .next (s.divide d a b remN)

/-- CLZ (R171). -/
def execClz (d a : GIdx) (w : BitVec 2) (s : State) : Host.Outcome State Fault Refusal :=
  .next (s.aluRI d a (unaryElems w clzW))

/-- FFS (R171). -/
def execFfs (d a : GIdx) (w : BitVec 2) (s : State) : Host.Outcome State Fault Refusal :=
  .next (s.aluRI d a (unaryElems w ffsW))

/-- POPC (R171). -/
def execPopc (d a : GIdx) (w : BitVec 2) (s : State) : Host.Outcome State Fault Refusal :=
  .next (s.aluRI d a (unaryElems w popcW))

/-- SEXT (R171). -/
def execSext (d a : GIdx) (w : BitVec 2) (s : State) : Host.Outcome State Fault Refusal :=
  .next (s.aluRI d a (sextW w))

/-- ZEXT (R171). -/
def execZext (d a : GIdx) (w : BitVec 2) (s : State) : Host.Outcome State Fault Refusal :=
  .next (s.aluRI d a (zextW w))

/-- BREV (R172). -/
def execBrev (d a : GIdx) (s : State) : Host.Outcome State Fault Refusal :=
  .next (s.aluRI d a (fun x => x.reverse))

/-- BSWAP (R172). -/
def execBswap (d a : GIdx) (s : State) : Host.Outcome State Fault Refusal :=
  .next (s.aluRI d a bswap64)

/-- ADDI (R173). -/
def execAddi (d a : GIdx) (i : BitVec 11) (s : State) : Host.Outcome State Fault Refusal :=
  .next (s.aluRI d a (fun x => x + i.signExtend 64))

/-- ANDI (R173). -/
def execAndi (d a : GIdx) (i : BitVec 11) (s : State) : Host.Outcome State Fault Refusal :=
  .next (s.aluRI d a (fun x => x &&& i.signExtend 64))

/-- ORI (R173). -/
def execOri (d a : GIdx) (i : BitVec 11) (s : State) : Host.Outcome State Fault Refusal :=
  .next (s.aluRI d a (fun x => x ||| i.signExtend 64))

/-- XORI (R173). -/
def execXori (d a : GIdx) (i : BitVec 11) (s : State) : Host.Outcome State Fault Refusal :=
  .next (s.aluRI d a (fun x => x ^^^ i.signExtend 64))

/-- SLTI (R173). -/
def execSlti (d a : GIdx) (i : BitVec 11) (s : State) : Host.Outcome State Fault Refusal :=
  .next (s.aluRI d a (fun x => boolWord (x.slt (i.signExtend 64))))

/-- SHLI (R174). -/
def execShli (d a : GIdx) (n : BitVec 6) (s : State) : Host.Outcome State Fault Refusal :=
  .next (s.aluRI d a (fun x => x <<< n.toNat))

/-- SHRI (R174). -/
def execShri (d a : GIdx) (n : BitVec 6) (s : State) : Host.Outcome State Fault Refusal :=
  .next (s.aluRI d a (fun x => x >>> n.toNat))

/-- SHAI (R174). -/
def execShai (d a : GIdx) (n : BitVec 6) (s : State) : Host.Outcome State Fault Refusal :=
  .next (s.aluRI d a (fun x => x.sshiftRight n.toNat))

/-- ROTI (R174). -/
def execRoti (d a : GIdx) (n : BitVec 6) (s : State) : Host.Outcome State Fault Refusal :=
  .next (s.aluRI d a (fun x => x.rotateLeft n.toNat))

/-- BFX (R175): l is len − 1. -/
def execBfx (d a : GIdx) (l : BitVec 5) (p : BitVec 6) (s : State) : Host.Outcome State Fault Refusal :=
  .next (s.aluRI d a (fun x => bfxWord x p.toNat (l.toNat + 1)))

/-- BFI (R175): g[d] is a source. -/
def execBfi (d a : GIdx) (l : BitVec 5) (p : BitVec 6) (s : State) : Host.Outcome State Fault Refusal :=
  .next (s.alu { useRI d a with gsrc := [d.toNat, a.toNat] } d.toNat
    (fun s => bfiWord (s.g d.toNat) (s.g a.toNat) p.toNat (l.toNat + 1)))

/-- LIMZ (R176). -/
def execLimz (d : GIdx) (h : BitVec 2) (i : Half) (s : State) : Host.Outcome State Fault Refusal :=
  .next (s.alu (useD d) d.toNat (fun _ => i.setWidth 64 <<< (16 * h.toNat)))

/-- LIMH (R176): g[d] is a source. -/
def execLimh (d : GIdx) (h : BitVec 2) (i : Half) (s : State) : Host.Outcome State Fault Refusal :=
  .next (s.alu { useD d with gsrc := [d.toNat] } d.toNat (fun s => limhWord (s.g d.toNat) h i))

/-- ADPC (R177). -/
def execAdpc (d : GIdx) (i : BitVec 18) (s : State) : Host.Outcome State Fault Refusal :=
  .next (s.alu (useD d) d.toNat (fun s => s.me.pc + (i.signExtend 64 <<< 1)))

/-! ## Branches and jumps (R185 to R187) -/

/-- The PC of a taken transfer, or the next instruction. -/
def State.branch (s : State) (u : Use) (taken : Bool) (off : Word) : State :=
  if taken then s.finishAt u (s.me.pc + (off <<< 1)) else s.finish u

/-- BCC: a test of g[a] (R185). -/
def State.bcc (s : State) (a : GIdx) (o : BitVec 14) (p : Word → Bool) : State :=
  let u : Use := { lim := [(.g, a.toNat, 14)], gsrc := [a.toNat] }
  s.issue u (fun s => s.branch u (p (s.g a.toNat)) (o.signExtend 64))

/-- BP on a mask (R186). -/
def State.bmask (s : State) (k : MIdx) (o : BitVec 14) (p : Half → Bool) : State :=
  s.issue {} (fun s => s.branch {} (p (s.me.mask k.toNat)) (o.signExtend 64))

/-- BP on presence (R186): a mapped register tests its slot's readiness as the core holds it; a queue that is not resident tests
absent and raises the queue miss. A held value whose queue is not resident tests ready and raises the miss (DESIGN CHOICE, log entry
63: the two sentences of R186 meet there). -/
def State.bpresence (s : State) (a : GIdx) (o : BitVec 14) (want : Bool) : State :=
  let i := a.toNat
  let u : Use := { lim := [(.g, i, 14)] }
  s.issue u (fun s =>
    let x := s.me
    match x.mapped i with
    | none => s.branch u (((s.gReg s.cur i).st == .present) == want) (o.signExtend 64)
    | some h =>
      let q := x.qkey h
      if s.badHandle h q then s.trapProt (BitVec.ofNat 64 h) 12
      else if (s.queue q).etype != 0#2 then s.trapProt (BitVec.ofNat 64 h) 11
      else
        let res := (s.queue q).resident
        let rdy := x.held.contains (i - 124) || (res && Map.get x.slotReady (i - 124) false)
        let s' := s.branch u (rdy == want) (o.signExtend 64)
        if res then s' else s'.due (.queueMissService q))

/-- BEQZ (R185). -/
def execBeqz (a : GIdx) (o : BitVec 14) (s : State) : Host.Outcome State Fault Refusal :=
  .next (s.bcc a o (fun x => x == 0#64))

/-- BNEZ (R185). -/
def execBnez (a : GIdx) (o : BitVec 14) (s : State) : Host.Outcome State Fault Refusal :=
  .next (s.bcc a o (fun x => x != 0#64))

/-- BLTZ (R185). -/
def execBltz (a : GIdx) (o : BitVec 14) (s : State) : Host.Outcome State Fault Refusal :=
  .next (s.bcc a o (fun x => x.slt 0#64))

/-- BGEZ (R185). -/
def execBgez (a : GIdx) (o : BitVec 14) (s : State) : Host.Outcome State Fault Refusal :=
  .next (s.bcc a o (fun x => !x.slt 0#64))

/-- BGTZ (R185). -/
def execBgtz (a : GIdx) (o : BitVec 14) (s : State) : Host.Outcome State Fault Refusal :=
  .next (s.bcc a o (fun x => (0#64).slt x))

/-- BLEZ (R185). -/
def execBlez (a : GIdx) (o : BitVec 14) (s : State) : Host.Outcome State Fault Refusal :=
  .next (s.bcc a o (fun x => !(0#64).slt x))

/-- BPRES (R186). -/
def execBpres (a : GIdx) (o : BitVec 14) (s : State) : Host.Outcome State Fault Refusal :=
  .next (s.bpresence a o true)

/-- BABS (R186). -/
def execBabs (a : GIdx) (o : BitVec 14) (s : State) : Host.Outcome State Fault Refusal :=
  .next (s.bpresence a o false)

/-- BMANY (R186). -/
def execBmany (k : MIdx) (o : BitVec 14) (s : State) : Host.Outcome State Fault Refusal :=
  .next (s.bmask k o (fun m => m != 0#16))

/-- BALL (R186). -/
def execBall (k : MIdx) (o : BitVec 14) (s : State) : Host.Outcome State Fault Refusal :=
  .next (s.bmask k o (fun m => m == 0xFFFF#16))

/-- BNONE (R186). -/
def execBnone (k : MIdx) (o : BitVec 14) (s : State) : Host.Outcome State Fault Refusal :=
  .next (s.bmask k o (fun m => m == 0#16))

/-- JALR and RET (R187): the link is pc + 4; a target with bit 0 set traps ALIGN, before what a mapped destination brings (R70, R164). -/
def State.jumpReg (s : State) (u : Use) (d a : Nat) (i : Word) : State :=
  s.issue { u with gdst := u.gdst.filter (fun j => (s.me.mapped j).isNone) } (fun s =>
    let t := s.g a + i
    if t.getLsbD 0 then s.trapAlign t 1
    else match firstBlock (fun _ h => s.mappedDest h) s.me u.gdst with
      | some s' => s'
      | none =>
        let link := s.me.pc + 4
        (s.writeG d link).finishAt u t)

/-- JMP (R187). -/
def execJmp (o : BitVec 25) (s : State) : Host.Outcome State Fault Refusal :=
  .next (s.issue {} (fun s => s.branch {} true (o.signExtend 64)))

/-- JAL: links g1 (R187). -/
def execJal (o : BitVec 25) (s : State) : Host.Outcome State Fault Refusal :=
  .next (s.issue { gdst := [1] } (fun s => (s.writeG 1 (s.me.pc + 4)).branch { gdst := [1] } true (o.signExtend 64)))

/-- JALR (R187). -/
def execJalr (d a : GIdx) (i : BitVec 11) (s : State) : Host.Outcome State Fault Refusal :=
  .next (s.jumpReg (useRI d a) d.toNat a.toNat (i.signExtend 64))

/-! ## Compact forms (R159, R188) -/

/-- MV.C: as ADD with g0 (R159). -/
def execMvC (a b : G5Idx) (s : State) : Host.Outcome State Fault Refusal :=
  .next (s.alu { useCAB a b with lim := [(.g, a.toNat, 18), (.g, b.toNat, 11)], gsrc := [b.toNat] } a.toNat (fun s => s.g b.toNat))

/-- LI.C: as ADDI with g0 (R159). -/
def execLiC (a : G5Idx) (i : BitVec 5) (s : State) : Host.Outcome State Fault Refusal :=
  .next (s.alu { useCA a with gsrc := [] } a.toNat (fun _ => i.signExtend 64))

/-- ADDI.C (R159). -/
def execAddiC (a : G5Idx) (i : BitVec 5) (s : State) : Host.Outcome State Fault Refusal :=
  .next (s.alu (useCA a) a.toNat (fun s => s.g a.toNat + i.signExtend 64))

/-- ADD.C (R159). -/
def execAddC (a b : G5Idx) (s : State) : Host.Outcome State Fault Refusal :=
  .next (s.alu (useCAB a b) a.toNat (fun s => s.g a.toNat + s.g b.toNat))

/-- SUB.C (R159). -/
def execSubC (a b : G5Idx) (s : State) : Host.Outcome State Fault Refusal :=
  .next (s.alu (useCAB a b) a.toNat (fun s => s.g a.toNat - s.g b.toNat))

/-- AND.C (R159). -/
def execAndC (a b : G5Idx) (s : State) : Host.Outcome State Fault Refusal :=
  .next (s.alu (useCAB a b) a.toNat (fun s => s.g a.toNat &&& s.g b.toNat))

/-- OR.C (R159). -/
def execOrC (a b : G5Idx) (s : State) : Host.Outcome State Fault Refusal :=
  .next (s.alu (useCAB a b) a.toNat (fun s => s.g a.toNat ||| s.g b.toNat))

/-- XOR.C (R159). -/
def execXorC (a b : G5Idx) (s : State) : Host.Outcome State Fault Refusal :=
  .next (s.alu (useCAB a b) a.toNat (fun s => s.g a.toNat ^^^ s.g b.toNat))

/-- SHLI.C (R159). -/
def execShliC (a : G5Idx) (i : BitVec 5) (s : State) : Host.Outcome State Fault Refusal :=
  .next (s.alu (useCA a) a.toNat (fun s => s.g a.toNat <<< i.toNat))

/-- SHRI.C (R159). -/
def execShriC (a : G5Idx) (i : BitVec 5) (s : State) : Host.Outcome State Fault Refusal :=
  .next (s.alu (useCA a) a.toNat (fun s => s.g a.toNat >>> i.toNat))

/-- SHAI.C (R159). -/
def execShaiC (a : G5Idx) (i : BitVec 5) (s : State) : Host.Outcome State Fault Refusal :=
  .next (s.alu (useCA a) a.toNat (fun s => (s.g a.toNat).sshiftRight i.toNat))

/-- BEQZ.C and BNEZ.C (R159, R188). -/
def State.bccC (s : State) (a : G5Idx) (i : BitVec 5) (p : Word → Bool) : State :=
  let u : Use := { len := 2, lim := [(.g, a.toNat, 14)], gsrc := [a.toNat] }
  s.issue u (fun s => s.branch u (p (s.g a.toNat)) (i.signExtend 64))

/-- BEQZ.C (R159). -/
def execBeqzC (a : G5Idx) (i : BitVec 5) (s : State) : Host.Outcome State Fault Refusal :=
  .next (s.bccC a i (fun x => x == 0#64))

/-- BNEZ.C (R159). -/
def execBnezC (a : G5Idx) (i : BitVec 5) (s : State) : Host.Outcome State Fault Refusal :=
  .next (s.bccC a i (fun x => x != 0#64))

/-- RET: JALR with d = g0, a = g1, imm11 = 0 (R159). -/
def execRet (s : State) : Host.Outcome State Fault Refusal :=
  .next (s.jumpReg { len := 2, gsrc := [1] } 0 1 0#64)

/-- NOP.C: one issue slot, no effect (R159, R265). -/
def execNopC (s : State) : Host.Outcome State Fault Refusal :=
  .next (s.issue { len := 2 } (fun s => s.finish { len := 2 }))

/-- QPOP.C (R159, R70): the slot's register moved to g[a]; an unmapped slot traps PROT reason 12, after PEND (R56, R164, R241). -/
def execQpopC (a : G5Idx) (k : BitVec 2) (s : State) : Host.Outcome State Fault Refusal :=
  let i := 124 + k.toNat
  let u : Use := { len := 2, lim := [(.g, a.toNat, 18), (.g, i, 11)], gsrc := [i], gdst := [a.toNat] }
  .next (if (s.me.mapped i).isNone then s.issue { u with gsrc := [] } (fun s => s.trapProt 0#64 12)
    else s.alu u a.toNat (fun s => s.g i))

/-- QPUSH.C (R159, R70): g[a] pushed to the slot's queue, whose register is the d field of the move it stands for; an unmapped slot traps
PROT reason 12, after PEND (R164, R168, R188). -/
def execQpushC (a : G5Idx) (k : BitVec 2) (s : State) : Host.Outcome State Fault Refusal :=
  let i := 124 + k.toNat
  let u : Use := { len := 2, lim := [(.g, i, 18), (.g, a.toNat, 11)], gsrc := [a.toNat], gdst := [i] }
  .next (if (s.me.mapped i).isNone then s.issue u (fun s => s.trapProt 0#64 12)
    else s.alu u i (fun s => s.g a.toNat))

/-- ENCODING_NOT_AN_INSTRUCTION: ILL with the word as fetched and the reason (R163, R165). -/
def execEncodingNotAnInstruction (w : BitVec 32) (r : IllReason) (s : State) : Host.Outcome State Fault Refusal :=
  .next ({ s with fetched := w }.trapIll r.code.toNat)

end Sys2Proof.Machine
end

