-- ==== Sys2Proof/Machine/Float.lean ====
section
/-! DEFINITION. The scalar floating-point instructions (spec/08_isa_scalar.md R178 to R184). -/

namespace Sys2Proof.Machine

/-- A scalar floating-point result of l cycles, at most 8: flags ORed in, FPX precise (R178, R136, R328). -/
def State.fpu (s : State) (u : Use) (d : Nat) (f : State → RMode → Nat × Flags) (l : Nat := 6) : State :=
  s.issue u (fun s =>
    let r := f s (modeOf s.me.ctl.fpctl)
    s.fpResult l r.2 0#16 (fun s => (s.writeG d (BitVec.ofNat 64 r.1)).finish u))

/-- A scalar floating-point presence producer: FDIV, FSQRT (R178, R179). -/
def State.fpuLong (s : State) (u : Use) (d : Nat) (f : State → RMode → Nat × Flags) : State :=
  s.issue u (fun s =>
    let r := f s (modeOf s.me.ctl.fpctl)
    s.longResult u [(.g, d, r.1)] r.2 0#16)

/-- A two-operand scalar floating-point instruction. -/
def State.fpRR (s : State) (d a b : GIdx) (f : RMode → Nat → Nat → Nat × Flags) : State :=
  s.fpu (useRR d a b) d.toNat (fun s r => f r (s.g a.toNat).toNat (s.g b.toNat).toNat)
/-- A one-operand scalar floating-point instruction. -/
def State.fpRI (s : State) (d a : GIdx) (f : RMode → Nat → Nat × Flags) : State :=
  s.fpu (useRI d a) d.toNat (fun s r => f r (s.g a.toNat).toNat)
/-- A scalar conversion, of 4 cycles (R184, R328). -/
def State.fpCvt (s : State) (d a : GIdx) (f : RMode → Nat → Nat × Flags) : State :=
  s.fpu (useRI d a) d.toNat (fun s r => f r (s.g a.toNat).toNat) 4
/-- A compare as 1 or 0 with its flags (R181). -/
def cmpWord (x : Bool × Flags) : Nat × Flags := (if x.1 then 1 else 0, x.2)
/-- FFMA's operands: g[d] is the addend (R183). -/
def State.fpFma (s : State) (d a b : GIdx) (f : Fmt) (negP negC : Bool) : State :=
  s.fpu { useRR d a b with gsrc := [d.toNat, a.toNat, b.toNat] } d.toNat
    (fun s r => f.fma r negP negC (s.g a.toNat).toNat (s.g b.toNat).toNat (s.g d.toNat).toNat)
/-- A signed 64-bit integer as a result. -/
def intWord (x : Int × Flags) : Nat × Flags := ((BitVec.ofInt 64 x.1).toNat, x.2)

/-- FADD.s (R179). -/
def execFaddS (d a b : GIdx) (s : State) : Host.Outcome State Fault Refusal :=
  .next (s.fpRR d a b (fun r x y => fmt32.add r x y))

/-- FSUB.s (R179). -/
def execFsubS (d a b : GIdx) (s : State) : Host.Outcome State Fault Refusal :=
  .next (s.fpRR d a b (fun r x y => fmt32.sub r x y))

/-- FMUL.s (R179). -/
def execFmulS (d a b : GIdx) (s : State) : Host.Outcome State Fault Refusal :=
  .next (s.fpRR d a b (fun r x y => fmt32.mul r x y))

/-- FDIV.s: a presence producer (R179). -/
def execFdivS (d a b : GIdx) (s : State) : Host.Outcome State Fault Refusal :=
  .next (s.fpuLong (useRR d a b) d.toNat (fun s r => fmt32.div r (s.g a.toNat).toNat (s.g b.toNat).toNat))

/-- FMIN.s (R147). -/
def execFminS (d a b : GIdx) (s : State) : Host.Outcome State Fault Refusal :=
  .next (s.fpRR d a b (fun _ x y => fmt32.minmax false x y))

/-- FMAX.s (R147). -/
def execFmaxS (d a b : GIdx) (s : State) : Host.Outcome State Fault Refusal :=
  .next (s.fpRR d a b (fun _ x y => fmt32.minmax true x y))

/-- FSQRT.s: a presence producer (R179). -/
def execFsqrtS (d a : GIdx) (s : State) : Host.Outcome State Fault Refusal :=
  .next (s.fpuLong (useRI d a) d.toNat (fun s r => fmt32.sqrt r (s.g a.toNat).toNat))

/-- FCLASS.s (R180). -/
def execFclassS (d a : GIdx) (s : State) : Host.Outcome State Fault Refusal :=
  .next (s.fpRI d a (fun _ x => (fmt32.classify x, 0#5)))

/-- FEQ.s (R181). -/
def execFeqS (d a b : GIdx) (s : State) : Host.Outcome State Fault Refusal :=
  .next (s.fpRR d a b (fun _ x y => cmpWord (fmt32.cmp .eq x y)))

/-- FLT.s (R181). -/
def execFltS (d a b : GIdx) (s : State) : Host.Outcome State Fault Refusal :=
  .next (s.fpRR d a b (fun _ x y => cmpWord (fmt32.cmp .lt x y)))

/-- FLE.s (R181). -/
def execFleS (d a b : GIdx) (s : State) : Host.Outcome State Fault Refusal :=
  .next (s.fpRR d a b (fun _ x y => cmpWord (fmt32.cmp .le x y)))

/-- FUN.s (R181). -/
def execFunS (d a b : GIdx) (s : State) : Host.Outcome State Fault Refusal :=
  .next (s.fpRR d a b (fun _ x y => cmpWord (fmt32.cmp .un x y)))

/-- FSGNJ.s (R182). -/
def execFsgnjS (d a b : GIdx) (s : State) : Host.Outcome State Fault Refusal :=
  .next (s.fpRR d a b (fun _ x y => (fmt32.sgnj false x y, 0#5)))

/-- FSGNJN.s (R182). -/
def execFsgnjnS (d a b : GIdx) (s : State) : Host.Outcome State Fault Refusal :=
  .next (s.fpRR d a b (fun _ x y => (fmt32.sgnj true x y, 0#5)))

/-- FADD.d (R179). -/
def execFaddD (d a b : GIdx) (s : State) : Host.Outcome State Fault Refusal :=
  .next (s.fpRR d a b (fun r x y => fmt64.add r x y))

/-- FSUB.d (R179). -/
def execFsubD (d a b : GIdx) (s : State) : Host.Outcome State Fault Refusal :=
  .next (s.fpRR d a b (fun r x y => fmt64.sub r x y))

/-- FMUL.d (R179). -/
def execFmulD (d a b : GIdx) (s : State) : Host.Outcome State Fault Refusal :=
  .next (s.fpRR d a b (fun r x y => fmt64.mul r x y))

/-- FDIV.d: a presence producer (R179). -/
def execFdivD (d a b : GIdx) (s : State) : Host.Outcome State Fault Refusal :=
  .next (s.fpuLong (useRR d a b) d.toNat (fun s r => fmt64.div r (s.g a.toNat).toNat (s.g b.toNat).toNat))

/-- FMIN.d (R147). -/
def execFminD (d a b : GIdx) (s : State) : Host.Outcome State Fault Refusal :=
  .next (s.fpRR d a b (fun _ x y => fmt64.minmax false x y))

/-- FMAX.d (R147). -/
def execFmaxD (d a b : GIdx) (s : State) : Host.Outcome State Fault Refusal :=
  .next (s.fpRR d a b (fun _ x y => fmt64.minmax true x y))

/-- FSQRT.d: a presence producer (R179). -/
def execFsqrtD (d a : GIdx) (s : State) : Host.Outcome State Fault Refusal :=
  .next (s.fpuLong (useRI d a) d.toNat (fun s r => fmt64.sqrt r (s.g a.toNat).toNat))

/-- FCLASS.d (R180). -/
def execFclassD (d a : GIdx) (s : State) : Host.Outcome State Fault Refusal :=
  .next (s.fpRI d a (fun _ x => (fmt64.classify x, 0#5)))

/-- FEQ.d (R181). -/
def execFeqD (d a b : GIdx) (s : State) : Host.Outcome State Fault Refusal :=
  .next (s.fpRR d a b (fun _ x y => cmpWord (fmt64.cmp .eq x y)))

/-- FLT.d (R181). -/
def execFltD (d a b : GIdx) (s : State) : Host.Outcome State Fault Refusal :=
  .next (s.fpRR d a b (fun _ x y => cmpWord (fmt64.cmp .lt x y)))

/-- FLE.d (R181). -/
def execFleD (d a b : GIdx) (s : State) : Host.Outcome State Fault Refusal :=
  .next (s.fpRR d a b (fun _ x y => cmpWord (fmt64.cmp .le x y)))

/-- FUN.d (R181). -/
def execFunD (d a b : GIdx) (s : State) : Host.Outcome State Fault Refusal :=
  .next (s.fpRR d a b (fun _ x y => cmpWord (fmt64.cmp .un x y)))

/-- FSGNJ.d (R182). -/
def execFsgnjD (d a b : GIdx) (s : State) : Host.Outcome State Fault Refusal :=
  .next (s.fpRR d a b (fun _ x y => (fmt64.sgnj false x y, 0#5)))

/-- FSGNJN.d (R182). -/
def execFsgnjnD (d a b : GIdx) (s : State) : Host.Outcome State Fault Refusal :=
  .next (s.fpRR d a b (fun _ x y => (fmt64.sgnj true x y, 0#5)))

/-- FFMA.s (R183). -/
def execFfmaS (d a b : GIdx) (s : State) : Host.Outcome State Fault Refusal :=
  .next (s.fpFma d a b fmt32 false false)

/-- FFMS.s (R183). -/
def execFfmsS (d a b : GIdx) (s : State) : Host.Outcome State Fault Refusal :=
  .next (s.fpFma d a b fmt32 false true)

/-- FNMA.s (R183). -/
def execFnmaS (d a b : GIdx) (s : State) : Host.Outcome State Fault Refusal :=
  .next (s.fpFma d a b fmt32 true false)

/-- FFMA.d (R183). -/
def execFfmaD (d a b : GIdx) (s : State) : Host.Outcome State Fault Refusal :=
  .next (s.fpFma d a b fmt64 false false)

/-- FFMS.d (R183). -/
def execFfmsD (d a b : GIdx) (s : State) : Host.Outcome State Fault Refusal :=
  .next (s.fpFma d a b fmt64 false true)

/-- FNMA.d (R183). -/
def execFnmaD (d a b : GIdx) (s : State) : Host.Outcome State Fault Refusal :=
  .next (s.fpFma d a b fmt64 true false)

/-- FCVT.s2d (R184, R132). -/
def execFcvtS2d (d a : GIdx) (s : State) : Host.Outcome State Fault Refusal :=
  .next (s.fpCvt d a (fun r x => fmt32.convert fmt64 r x))

/-- FCVT.d2s (R184, R132). -/
def execFcvtD2s (d a : GIdx) (s : State) : Host.Outcome State Fault Refusal :=
  .next (s.fpCvt d a (fun r x => fmt64.convert fmt32 r x))

/-- FCVT.s2b (R184, R132). -/
def execFcvtS2b (d a : GIdx) (s : State) : Host.Outcome State Fault Refusal :=
  .next (s.fpCvt d a (fun r x => fmt32.convert fmt16 r x))

/-- FCVT.b2s (R184, R132). -/
def execFcvtB2s (d a : GIdx) (s : State) : Host.Outcome State Fault Refusal :=
  .next (s.fpCvt d a (fun r x => fmt16.convert fmt32 r x))

/-- FCVT.i2s (R184, R132). -/
def execFcvtI2s (d a : GIdx) (s : State) : Host.Outcome State Fault Refusal :=
  .next (s.fpCvt d a (fun r x => fmt32.ofInt r (BitVec.ofNat 64 x).toInt))

/-- FCVT.n2s (R184, R132). -/
def execFcvtN2s (d a : GIdx) (s : State) : Host.Outcome State Fault Refusal :=
  .next (s.fpCvt d a (fun r x => fmt32.ofInt r x))

/-- FCVT.i2d (R184, R132). -/
def execFcvtI2d (d a : GIdx) (s : State) : Host.Outcome State Fault Refusal :=
  .next (s.fpCvt d a (fun r x => fmt64.ofInt r (BitVec.ofNat 64 x).toInt))

/-- FCVT.n2d (R184, R132). -/
def execFcvtN2d (d a : GIdx) (s : State) : Host.Outcome State Fault Refusal :=
  .next (s.fpCvt d a (fun r x => fmt64.ofInt r x))

/-- FCVT.s2i (R184, R132). -/
def execFcvtS2i (d a : GIdx) (s : State) : Host.Outcome State Fault Refusal :=
  .next (s.fpCvt d a (fun r x => intWord (fmt32.toInt r (-(2 ^ 63)) (2 ^ 63 - 1) x)))

/-- FCVT.s2n (R184, R132). -/
def execFcvtS2n (d a : GIdx) (s : State) : Host.Outcome State Fault Refusal :=
  .next (s.fpCvt d a (fun r x => intWord (fmt32.toInt r 0 (2 ^ 64 - 1) x)))

/-- FCVT.d2i (R184, R132). -/
def execFcvtD2i (d a : GIdx) (s : State) : Host.Outcome State Fault Refusal :=
  .next (s.fpCvt d a (fun r x => intWord (fmt64.toInt r (-(2 ^ 63)) (2 ^ 63 - 1) x)))

/-- FCVT.d2n (R184, R132). -/
def execFcvtD2n (d a : GIdx) (s : State) : Host.Outcome State Fault Refusal :=
  .next (s.fpCvt d a (fun r x => intWord (fmt64.toInt r 0 (2 ^ 64 - 1) x)))

end Sys2Proof.Machine
end

