-- ==== Sys2Proof/Machine/Vector.lean ====
section
/-! DEFINITION. The vector, mask, wide-integer, exact-accumulation and operand-extension instructions
(spec/09_isa_vector.md R189 to R212). -/

namespace Sys2Proof.Machine

/-! ## Element views (R127, R157, R190) -/

/-- The width of an element. -/
def elemWidth : Elem → Nat | .w => 32 | .d => 64 | .h => 16 | .b => 8
/-- The number of elements of a register, or of a pair for 64-bit ones. -/
def elemCount : Elem → Nat | .w => 16 | .d => 16 | .h => 32 | .b => 64
/-- The mask bit that governs element i (R190). -/
def elemLane (t : Elem) (i : Nat) : Nat := match t with | .w => i | .d => i | .h => i / 2 | .b => i / 4
/-- 64-bit elements lie in a pair. -/
def elemPair (t : Elem) : Bool := t == .d
/-- The two-way element type as an element type. -/
def wd : ElemWD → Elem | .w => .w | .d => .d
/-- The format of a floating-point element type (R192). -/
def fmtOf : ElemWD → Fmt | .w => fmt32 | .d => fmt64

/-- The registers of a field: one, or the two of a pair. -/
def vregs (pair : Bool) (i : Nat) : List Nat := if pair then [i, i + 1] else [i]
/-- A register or pair of the current context as a number. -/
def State.vnum (s : State) (pair : Bool) (i : Nat) : Nat := if pair then (s.vPair s.cur i).toNat else (s.v i).toNat
/-- A register or pair written; its lanes outside w are only written back and keep their poison (R191, R373). -/
def State.writeV (s : State) (pair : Bool) (i n : Nat) (w : BitVec 32 := BitVec.allOnes 32) : State :=
  if pair then s.putPair s.cur i (BitVec.ofNat 1024 n) w else s.putV s.cur i (BitVec.ofNat 512 n) (w.setWidth 16)
/-- The mask of the current context. -/
def State.m (s : State) (m : MIdx) : Half := s.me.mask m.toNat
/-- A mask of the current context written; m0 discards (R18). -/
def State.writeM (s : State) (k : MIdx) (v : Half) : State := s.updCtx s.cur (fun x => x.setMask k.toNat v)

/-- Fields vd, va, vb of a V instruction that writes vd (R189). -/
def useV (dp ap bp : Bool) (d a b : VIdx) : Use :=
  { lim := [(.v, d.toNat, 20), (.v, a.toNat, 15), (.v, b.toNat, 10)],
    vsrc := vregs ap a.toNat ++ vregs bp b.toNat, vdst := vregs dp d.toNat }
/-- Fields vd, va. -/
def useV2 (dp ap : Bool) (d a : VIdx) : Use :=
  { lim := [(.v, d.toNat, 20), (.v, a.toNat, 15)], vsrc := vregs ap a.toNat, vdst := vregs dp d.toNat }
/-- Fields va, vb of an instruction that writes a mask. -/
def useVM (p : Bool) (a b : VIdx) : Use :=
  { lim := [(.v, a.toNat, 15), (.v, b.toNat, 10)], vsrc := vregs p a.toNat ++ vregs p b.toNat }

/-- A vector instruction issues unless the vector unit is in the second cycle of a binary64 instruction of another context: then
its context stays eligible, and the slot goes to the next eligible context of its core, when there is one (R191, R383). -/
def State.vissue (s : State) (u : Use) (body : State → State) : State :=
  let k := s.core (coreOf s.cur)
  if k.cycle < k.vbusy then (s.traceEntry (coreOf s.cur) k.cycle 1#64).notUntil k.vbusy
  else s.issue u body
/-- A binary64 instruction occupies the vector unit for two cycles (R191). -/
def State.holdUnit (s : State) (on : Bool) : State :=
  if on then s.updCore (coreOf s.cur) (fun k => { k with vbusy := k.cycle + 2 }) else s

/-- The 32-bit lanes of a register or pair that the elements of width dw written under mask m cover, bit i / 2^sh of the mask
governing element i (R190, R373). -/
def lanesOf (dw sh : Nat) (m : Half) : BitVec 32 :=
  BitVec.ofNat 32 (packElems 1 ((List.range 32).map (fun j => if m.getLsbD (32 * j / dw / 2 ^ sh) then 1 else 0)))
/-- The lanes a masked destination of an element type is written in (R190). -/
def eLanes (t : Elem) (m : Half) : BitVec 32 := if elemPair t then lanesOf 64 0 m else lanesOf 32 0 m

/-- An instruction of which each listed source, a register or pair, is read in the lanes given alone: the operands of an inactive element
are not evaluated (R190). -/
def Use.masked (u : Use) (l : List (Bool × VIdx × BitVec 32)) : Use :=
  { u with part := l.flatMap (fun e =>
    (e.2.1.toNat, e.2.2.setWidth 16) :: (if e.1 then [(e.2.1.toNat + 1, e.2.2.extractLsb' 16 16)] else [])) }

/-- The elements of a destination: computed where active, kept where not (R190). -/
def blend (t : Elem) (m : Half) (old : Nat) (f : Nat → Nat) : Nat :=
  packElems (elemWidth t) ((List.range (elemCount t)).map (fun i =>
    if m.getLsbD (elemLane t i) then f i else elemOf (elemWidth t) old i))

/-! ## Integer lanes (R193, R194) -/

/-- A two-operand integer instruction: f of the width and the two elements. -/
def State.vint (s : State) (d a b : VIdx) (m : MIdx) (t : Elem) (f : Nat → Nat → Nat → Nat) : State :=
  let p := elemPair t
  let l := eLanes t (s.m m)
  let u := (useV p p p d a b).masked [(p, a, l), (p, b, l)]
  s.vissue u (fun s =>
    let x := s.vnum p a.toNat
    let y := s.vnum p b.toNat
    let w := elemWidth t
    (s.writeV p d.toNat (blend t (s.m m) (s.vnum p d.toNat) (fun i => f w (elemOf w x i) (elemOf w y i))) (eLanes t (s.m m))).finish u)

/-- A one-operand integer instruction. -/
def State.vint1 (s : State) (d a : VIdx) (m : MIdx) (t : Elem) (f : Nat → Nat → Nat) : State :=
  let p := elemPair t
  let u := (useV2 p p d a).masked [(p, a, eLanes t (s.m m))]
  s.vissue u (fun s =>
    let x := s.vnum p a.toNat
    let w := elemWidth t
    (s.writeV p d.toNat (blend t (s.m m) (s.vnum p d.toNat) (fun i => f w (elemOf w x i))) (eLanes t (s.m m))).finish u)

/-- An element by SInt (R127). -/
def sintOf (w x : Nat) : Int := if 2 ^ (w - 1) ≤ x then (x : Int) - 2 ^ w else x
/-- An integer wrapped to an element (R127). -/
def wrapTo (w : Nat) (x : Int) : Nat := (x % 2 ^ w).toNat

/-- VADD (R193). -/
def execVadd (d a b : VIdx) (m : MIdx) (t : Elem) (s : State) : Host.Outcome State Fault Refusal :=
  .next (s.vint d a b m t (fun w x y => (x + y) % 2 ^ w))

/-- VSUB (R193). -/
def execVsub (d a b : VIdx) (m : MIdx) (t : Elem) (s : State) : Host.Outcome State Fault Refusal :=
  .next (s.vint d a b m t (fun w x y => wrapTo w ((x : Int) - y)))

/-- VMUL (R193). -/
def execVmul (d a b : VIdx) (m : MIdx) (t : Elem) (s : State) : Host.Outcome State Fault Refusal :=
  .next (s.vint d a b m t (fun w x y => x * y % 2 ^ w))

/-- VMULH (R193). -/
def execVmulh (d a b : VIdx) (m : MIdx) (t : Elem) (s : State) : Host.Outcome State Fault Refusal :=
  .next (s.vint d a b m t (fun w x y => wrapTo w (sintOf w x * sintOf w y / 2 ^ w)))

/-- VMIN (R193). -/
def execVmin (d a b : VIdx) (m : MIdx) (t : Elem) (s : State) : Host.Outcome State Fault Refusal :=
  .next (s.vint d a b m t (fun w x y => if sintOf w y < sintOf w x then y else x))

/-- VMAX (R193). -/
def execVmax (d a b : VIdx) (m : MIdx) (t : Elem) (s : State) : Host.Outcome State Fault Refusal :=
  .next (s.vint d a b m t (fun w x y => if sintOf w x < sintOf w y then y else x))

/-- VMINN (R193). -/
def execVminn (d a b : VIdx) (m : MIdx) (t : Elem) (s : State) : Host.Outcome State Fault Refusal :=
  .next (s.vint d a b m t (fun _ x y => if y < x then y else x))

/-- VMAXN (R193). -/
def execVmaxn (d a b : VIdx) (m : MIdx) (t : Elem) (s : State) : Host.Outcome State Fault Refusal :=
  .next (s.vint d a b m t (fun _ x y => if x < y then y else x))

/-- VAND (R193). -/
def execVand (d a b : VIdx) (m : MIdx) (t : Elem) (s : State) : Host.Outcome State Fault Refusal :=
  .next (s.vint d a b m t (fun _ x y => Nat.land x y))

/-- VOR (R193). -/
def execVor (d a b : VIdx) (m : MIdx) (t : Elem) (s : State) : Host.Outcome State Fault Refusal :=
  .next (s.vint d a b m t (fun _ x y => Nat.lor x y))

/-- VXOR (R193). -/
def execVxor (d a b : VIdx) (m : MIdx) (t : Elem) (s : State) : Host.Outcome State Fault Refusal :=
  .next (s.vint d a b m t (fun _ x y => Nat.xor x y))

/-- VANDN (R193). -/
def execVandn (d a b : VIdx) (m : MIdx) (t : Elem) (s : State) : Host.Outcome State Fault Refusal :=
  .next (s.vint d a b m t (fun w x y => Nat.land x (2 ^ w - 1 - y)))

/-- VSHL (R193). -/
def execVshl (d a b : VIdx) (m : MIdx) (t : Elem) (s : State) : Host.Outcome State Fault Refusal :=
  .next (s.vint d a b m t (fun w x y => x * 2 ^ (y % w) % 2 ^ w))

/-- VSHR (R193). -/
def execVshr (d a b : VIdx) (m : MIdx) (t : Elem) (s : State) : Host.Outcome State Fault Refusal :=
  .next (s.vint d a b m t (fun w x y => x / 2 ^ (y % w)))

/-- VSHA (R193). -/
def execVsha (d a b : VIdx) (m : MIdx) (t : Elem) (s : State) : Host.Outcome State Fault Refusal :=
  .next (s.vint d a b m t (fun w x y => wrapTo w (sintOf w x / 2 ^ (y % w))))

/-- VABS (R193). -/
def execVabs (d a : VIdx) (m : MIdx) (t : Elem) (s : State) : Host.Outcome State Fault Refusal :=
  .next (s.vint1 d a m t (fun w x => (sintOf w x).natAbs % 2 ^ w))

/-- VNEG (R193). -/
def execVneg (d a : VIdx) (m : MIdx) (t : Elem) (s : State) : Host.Outcome State Fault Refusal :=
  .next (s.vint1 d a m t (fun w x => wrapTo w (-(x : Int))))

/-- VCLZ (R194). -/
def execVclz (d a : VIdx) (m : MIdx) (t : Elem) (s : State) : Host.Outcome State Fault Refusal :=
  .next (s.vint1 d a m t (clzW))

/-- VFFS (R194). -/
def execVffs (d a : VIdx) (m : MIdx) (t : Elem) (s : State) : Host.Outcome State Fault Refusal :=
  .next (s.vint1 d a m t (ffsW))

/-- VPOPC (R194). -/
def execVpopc (d a : VIdx) (m : MIdx) (t : Elem) (s : State) : Host.Outcome State Fault Refusal :=
  .next (s.vint1 d a m t (popcW))

/-! ## Floating-point lanes (R192, R195, R196) -/

/-- The flags of some results, ORed (R135). -/
def orFlags (rs : List (Nat × Flags)) : Flags := rs.foldl (fun f r => f ||| r.2) 0#5
/-- The results that raised an enabled exception, 2^sh of them to a lane, as bits (R136). -/
def lanesRaised (fpctl : Word) (sh : Nat) (rs : List (Nat × Flags)) : Half :=
  (List.range rs.length).foldl (fun l i =>
    if enabledFlags fpctl (rs.getD i (0, 0#5)).2 != 0#5 then l ||| BitVec.ofNat 16 (2 ^ (i / 2 ^ sh)) else l) 0#16

/-- Flush inputs, for binary32 lanes (R131). -/
def State.ftzi (s : State) (t : ElemWD) (x : Nat) : Nat :=
  match t with | .w => fmt32.flushIn (s.me.ctl.fpctl.getLsbD 2) x | .d => x
/-- Flush outputs, for binary32 lanes (R131). -/
def State.ftzo (s : State) (t : ElemWD) (r : Nat × Flags) : Nat × Flags :=
  match t with | .w => fmt32.flushOut (s.me.ctl.fpctl.getLsbD 3) r | .d => r
/-- The rounding mode as it stands (R134). -/
def State.mode (s : State) : RMode := modeOf s.me.ctl.fpctl

/-- The results of the 16 elements: f of the element number where active, the old element where not (R190, R192). -/
def State.fpElems (s : State) (t : ElemWD) (m : MIdx) (d : Nat) (f : Nat → Nat × Flags) : List (Nat × Flags) :=
  let e := wd t
  let old := s.vnum (elemPair e) d
  (List.range 16).map (fun i => if (s.m m).getLsbD i then f i else (elemOf (elemWidth e) old i, 0#5))

/-- Floating-point results of n cycles, at most 8, in the lanes w (R136, R192, R328). -/
def State.vfShort (s : State) (u : Use) (t : ElemWD) (d : Nat) (rs : List (Nat × Flags)) (w : BitVec 32) (n : Nat := 6) : State :=
  s.fpResult n (orFlags rs) (lanesRaised s.me.ctl.fpctl 0 rs) (fun s =>
    (s.writeV (elemPair (wd t)) d (packElems (elemWidth (wd t)) (rs.map (·.1))) w).finish u)

/-- Floating-point results that land later, in the lanes w (R136, R191). -/
def State.vfLong (s : State) (u : Use) (t : ElemWD) (d : Nat) (rs : List (Nat × Flags)) (w : BitVec 32) : State :=
  let n := packElems (elemWidth (wd t)) (rs.map (·.1))
  s.longResult u (match t with | .w => [(.v, d, n)] | .d => [(.v, d, n % 2 ^ 512), (.v, d + 1, n / 2 ^ 512)])
    (orFlags rs) (lanesRaised s.me.ctl.fpctl 0 rs) w

/-- A two-operand floating-point instruction: long, and rounding its result or not (a minimum or maximum delivers an operand, R147,
and flush outputs does not meet it, R131). -/
def State.vf2 (s : State) (d a b : VIdx) (m : MIdx) (t : ElemWD) (long rounds : Bool) (f : Fmt → RMode → Nat → Nat → Nat × Flags) : State :=
  let p := elemPair (wd t)
  let l := eLanes (wd t) (s.m m)
  let u := (useV p p p d a b).masked [(p, a, l), (p, b, l)]
  s.vissue u (fun s =>
    let w := elemWidth (wd t)
    let x := s.vnum p a.toNat
    let y := s.vnum p b.toNat
    let rs := s.fpElems t m d.toNat (fun i =>
      let r := f (fmtOf t) s.mode (s.ftzi t (elemOf w x i)) (s.ftzi t (elemOf w y i))
      if rounds then s.ftzo t r else r)
    let l := eLanes (wd t) (s.m m)
    if long then (s.holdUnit p).vfLong u t d.toNat rs l else (s.holdUnit p).vfShort u t d.toNat rs l)

/-- A one-operand floating-point instruction. -/
def State.vf1 (s : State) (d a : VIdx) (m : MIdx) (t : ElemWD) (long : Bool) (f : Fmt → RMode → Nat → Nat × Flags) : State :=
  let p := elemPair (wd t)
  let u := (useV2 p p d a).masked [(p, a, eLanes (wd t) (s.m m))]
  s.vissue u (fun s =>
    let w := elemWidth (wd t)
    let x := s.vnum p a.toNat
    let rs := s.fpElems t m d.toNat (fun i =>
      let r := f (fmtOf t) s.mode (s.ftzi t (elemOf w x i))
      if long then s.ftzo t r else r)
    let l := eLanes (wd t) (s.m m)
    if long then (s.holdUnit p).vfLong u t d.toNat rs l else (s.holdUnit p).vfShort u t d.toNat rs l)

/-- A fused instruction: v[vd] is a source (R196). -/
def State.vf3 (s : State) (d a b : VIdx) (m : MIdx) (t : ElemWD) (negP negC : Bool) : State :=
  let p := elemPair (wd t)
  let l := eLanes (wd t) (s.m m)
  let u := { useV p p p d a b with vsrc := vregs p d.toNat ++ vregs p a.toNat ++ vregs p b.toNat }.masked [(p, d, l), (p, a, l), (p, b, l)]
  s.vissue u (fun s =>
    let w := elemWidth (wd t)
    let x := s.vnum p a.toNat
    let y := s.vnum p b.toNat
    let z := s.vnum p d.toNat
    let rs := s.fpElems t m d.toNat (fun i =>
      s.ftzo t ((fmtOf t).fma s.mode negP negC (s.ftzi t (elemOf w x i)) (s.ftzi t (elemOf w y i)) (s.ftzi t (elemOf w z i))))
    (s.holdUnit p).vfShort u t d.toNat rs (eLanes (wd t) (s.m m)))

/-- VFADD (R195). -/
def execVfadd (d a b : VIdx) (m : MIdx) (t : ElemWD) (s : State) : Host.Outcome State Fault Refusal :=
  .next (s.vf2 d a b m t false true (fun f r x y => f.add r x y))

/-- VFSUB (R195). -/
def execVfsub (d a b : VIdx) (m : MIdx) (t : ElemWD) (s : State) : Host.Outcome State Fault Refusal :=
  .next (s.vf2 d a b m t false true (fun f r x y => f.sub r x y))

/-- VFMUL (R195). -/
def execVfmul (d a b : VIdx) (m : MIdx) (t : ElemWD) (s : State) : Host.Outcome State Fault Refusal :=
  .next (s.vf2 d a b m t false true (fun f r x y => f.mul r x y))

/-- VFDIV (R195). -/
def execVfdiv (d a b : VIdx) (m : MIdx) (t : ElemWD) (s : State) : Host.Outcome State Fault Refusal :=
  .next (s.vf2 d a b m t true true (fun f r x y => f.div r x y))

/-- VFMIN (R195). -/
def execVfmin (d a b : VIdx) (m : MIdx) (t : ElemWD) (s : State) : Host.Outcome State Fault Refusal :=
  .next (s.vf2 d a b m t false false (fun f _ x y => f.minmax false x y))

/-- VFMAX (R195). -/
def execVfmax (d a b : VIdx) (m : MIdx) (t : ElemWD) (s : State) : Host.Outcome State Fault Refusal :=
  .next (s.vf2 d a b m t false false (fun f _ x y => f.minmax true x y))

/-- VFABS (R195). -/
def execVfabs (d a : VIdx) (m : MIdx) (t : ElemWD) (s : State) : Host.Outcome State Fault Refusal :=
  .next (s.vf1 d a m t false (fun f _ x => (x % f.sign, 0#5)))

/-- VFNEG (R195). -/
def execVfneg (d a : VIdx) (m : MIdx) (t : ElemWD) (s : State) : Host.Outcome State Fault Refusal :=
  .next (s.vf1 d a m t false (fun f _ x => ((x + f.sign) % (2 * f.sign), 0#5)))

/-- VFSQRT (R195). -/
def execVfsqrt (d a : VIdx) (m : MIdx) (t : ElemWD) (s : State) : Host.Outcome State Fault Refusal :=
  .next (s.vf1 d a m t true (fun f r x => f.sqrt r x))

/-- VFMA (R196). -/
def execVfma (d a b : VIdx) (m : MIdx) (t : ElemWD) (s : State) : Host.Outcome State Fault Refusal :=
  .next (s.vf3 d a b m t false false)

/-- VFMS (R196). -/
def execVfms (d a b : VIdx) (m : MIdx) (t : ElemWD) (s : State) : Host.Outcome State Fault Refusal :=
  .next (s.vf3 d a b m t false true)

/-- VFNMA (R196). -/
def execVfnma (d a b : VIdx) (m : MIdx) (t : ElemWD) (s : State) : Host.Outcome State Fault Refusal :=
  .next (s.vf3 d a b m t true false)

/-! ## Compares (R197) -/

/-- Bits from results, 0 where inactive. -/
def bitsOf (n : Nat) (f : Nat → Bool) : Half := BitVec.ofNat 16 (packElems 1 ((List.range n).map (fun i => if f i then 1 else 0)))

/-- An integer compare into mask k. -/
def State.vcmp (s : State) (k : MIdx) (a b : VIdx) (m : MIdx) (t : ElemWD) (f : Nat → Nat → Nat → Bool) : State :=
  let p := elemPair (wd t)
  let l := eLanes (wd t) (s.m m)
  let u := (useVM p a b).masked [(p, a, l), (p, b, l)]
  s.vissue u (fun s =>
    let w := elemWidth (wd t)
    let x := s.vnum p a.toNat
    let y := s.vnum p b.toNat
    (s.writeM k (bitsOf 16 (fun i => (s.m m).getLsbD i && f w (elemOf w x i) (elemOf w y i)))).finish u)

/-- A floating-point compare into mask k, with the flags of R181. -/
def State.vfcmp (s : State) (k : MIdx) (a b : VIdx) (m : MIdx) (t : ElemWD) (c : FCmp) : State :=
  let p := elemPair (wd t)
  let l := eLanes (wd t) (s.m m)
  let u := (useVM p a b).masked [(p, a, l), (p, b, l)]
  s.vissue u (fun s =>
    let w := elemWidth (wd t)
    let x := s.vnum p a.toNat
    let y := s.vnum p b.toNat
    let rs := (List.range 16).map (fun i =>
      if (s.m m).getLsbD i then cmpWord ((fmtOf t).cmp c (s.ftzi t (elemOf w x i)) (s.ftzi t (elemOf w y i))) else (0, 0#5))
    s.fpResult 4 (orFlags rs) (lanesRaised s.me.ctl.fpctl 0 rs) (fun s =>
      (s.writeM k (BitVec.ofNat 16 (packElems 1 (rs.map (·.1))))).finish u))

/-- VEQ (R197). -/
def execVeq (k : MIdx) (a b : VIdx) (m : MIdx) (t : ElemWD) (s : State) : Host.Outcome State Fault Refusal :=
  .next (s.vcmp k a b m t (fun _ x y => x == y))

/-- VNE (R197). -/
def execVne (k : MIdx) (a b : VIdx) (m : MIdx) (t : ElemWD) (s : State) : Host.Outcome State Fault Refusal :=
  .next (s.vcmp k a b m t (fun _ x y => x != y))

/-- VLT (R197). -/
def execVlt (k : MIdx) (a b : VIdx) (m : MIdx) (t : ElemWD) (s : State) : Host.Outcome State Fault Refusal :=
  .next (s.vcmp k a b m t (fun w x y => decide (sintOf w x < sintOf w y)))

/-- VLE (R197). -/
def execVle (k : MIdx) (a b : VIdx) (m : MIdx) (t : ElemWD) (s : State) : Host.Outcome State Fault Refusal :=
  .next (s.vcmp k a b m t (fun w x y => decide (sintOf w x ≤ sintOf w y)))

/-- VLTN (R197). -/
def execVltn (k : MIdx) (a b : VIdx) (m : MIdx) (t : ElemWD) (s : State) : Host.Outcome State Fault Refusal :=
  .next (s.vcmp k a b m t (fun _ x y => decide (x < y)))

/-- VLEN (R197). -/
def execVlen (k : MIdx) (a b : VIdx) (m : MIdx) (t : ElemWD) (s : State) : Host.Outcome State Fault Refusal :=
  .next (s.vcmp k a b m t (fun _ x y => decide (x ≤ y)))

/-- VFEQ (R197). -/
def execVfeq (k : MIdx) (a b : VIdx) (m : MIdx) (t : ElemWD) (s : State) : Host.Outcome State Fault Refusal :=
  .next (s.vfcmp k a b m t .eq)

/-- VFLT (R197). -/
def execVflt (k : MIdx) (a b : VIdx) (m : MIdx) (t : ElemWD) (s : State) : Host.Outcome State Fault Refusal :=
  .next (s.vfcmp k a b m t .lt)

/-- VFLE (R197). -/
def execVfle (k : MIdx) (a b : VIdx) (m : MIdx) (t : ElemWD) (s : State) : Host.Outcome State Fault Refusal :=
  .next (s.vfcmp k a b m t .le)

/-- VFUN (R197). -/
def execVfun (k : MIdx) (a b : VIdx) (m : MIdx) (t : ElemWD) (s : State) : Host.Outcome State Fault Refusal :=
  .next (s.vfcmp k a b m t .un)

/-! ## Special functions (R198) -/

/-- A VSF instruction: a presence producer, whatever FPCTL's mode and flush bits hold. -/
def State.vsf (s : State) (d a : VIdx) (m : MIdx) (f : SFn) : State :=
  let u := (useV2 false false d a).masked [(false, a, eLanes .w (s.m m))]
  s.vissue u (fun s =>
    let x := (s.v a.toNat).toNat
    s.vfLong u .w d.toNat (s.fpElems .w m d.toNat (fun i => f.apply (elemOf 32 x i))) (eLanes .w (s.m m)))

/-- VRCP (R198). -/
def execVrcp (d a : VIdx) (m : MIdx) (s : State) : Host.Outcome State Fault Refusal := .next (s.vsf d a m .rcp)

/-- VRSQ (R198). -/
def execVrsq (d a : VIdx) (m : MIdx) (s : State) : Host.Outcome State Fault Refusal := .next (s.vsf d a m .rsq)

/-- VEXP2 (R198). -/
def execVexp2 (d a : VIdx) (m : MIdx) (s : State) : Host.Outcome State Fault Refusal := .next (s.vsf d a m .exp2)

/-- VLOG2 (R198). -/
def execVlog2 (d a : VIdx) (m : MIdx) (s : State) : Host.Outcome State Fault Refusal := .next (s.vsf d a m .log2)

/-- VSIN (R198). -/
def execVsin (d a : VIdx) (m : MIdx) (s : State) : Host.Outcome State Fault Refusal := .next (s.vsf d a m .sin)

/-- VCOS (R198). -/
def execVcos (d a : VIdx) (m : MIdx) (s : State) : Host.Outcome State Fault Refusal := .next (s.vsf d a m .cos)

/-- VTANH (R198). -/
def execVtanh (d a : VIdx) (m : MIdx) (s : State) : Host.Outcome State Fault Refusal := .next (s.vsf d a m .tanh)

/-! ## Conversions (R199, R200) -/

/-- A conversion of n elements of width sw to width dw; mask bit i / 2^sh governs element i; a source or destination of more
than 512 bits is a pair. -/
def State.vconv (s : State) (d a : VIdx) (m : MIdx) (n sw dw sh : Nat) (f : State → Nat → Nat × Flags) : State :=
  let dp := decide (512 < n * dw)
  let ap := decide (512 < n * sw)
  let u := (useV2 dp ap d a).masked [(ap, a, lanesOf sw sh (s.m m))]
  s.vissue u (fun s =>
    let x := s.vnum ap a.toNat
    let old := s.vnum dp d.toNat
    let rs := (List.range n).map (fun i =>
      if (s.m m).getLsbD (i / 2 ^ sh) then f s (elemOf sw x i) else (elemOf dw old i, 0#5))
    s.fpResult 6 (orFlags rs) (lanesRaised s.me.ctl.fpctl sh rs) (fun s =>
      (s.writeV dp d.toNat (packElems dw (rs.map (·.1))) (lanesOf dw sh (s.m m))).finish u))

/-- A 32-bit integer result. -/
def int32 (r : Int × Flags) : Nat × Flags := (wrapTo 32 r.1, r.2)

/-- VCVTS2D (R199). -/
def execVcvtS2d (d a : VIdx) (m : MIdx) (s : State) : Host.Outcome State Fault Refusal :=
  .next (s.vconv d a m 16 32 64 0 (fun s x => fmt32.convert fmt64 s.mode (s.ftzi .w x)))

/-- VCVTD2S (R199). -/
def execVcvtD2s (d a : VIdx) (m : MIdx) (s : State) : Host.Outcome State Fault Refusal :=
  .next (s.vconv d a m 16 64 32 0 (fun s x => s.ftzo .w (fmt64.convert fmt32 s.mode x)))

/-- VCVTS2B (R199); the flush bits meet binary32 values only, no BF16 result (DESIGN CHOICE, log entry 53). -/
def execVcvtS2b (d a : VIdx) (m : MIdx) (s : State) : Host.Outcome State Fault Refusal :=
  .next (s.vconv d a m 32 32 16 1 (fun s x => fmt32.convert fmt16 s.mode (s.ftzi .w x)))

/-- VCVTB2S (R199); the flush bits meet binary32 values only, no BF16 operand (DESIGN CHOICE, log entry 53). -/
def execVcvtB2s (d a : VIdx) (m : MIdx) (s : State) : Host.Outcome State Fault Refusal :=
  .next (s.vconv d a m 32 16 32 1 (fun s x => s.ftzo .w (fmt16.convert fmt32 s.mode x)))

/-- VCVTI2S (R199). -/
def execVcvtI2s (d a : VIdx) (m : MIdx) (s : State) : Host.Outcome State Fault Refusal :=
  .next (s.vconv d a m 16 32 32 0 (fun s x => fmt32.ofInt s.mode (sintOf 32 x)))

/-- VCVTN2S (R199). -/
def execVcvtN2s (d a : VIdx) (m : MIdx) (s : State) : Host.Outcome State Fault Refusal :=
  .next (s.vconv d a m 16 32 32 0 (fun s x => fmt32.ofInt s.mode x))

/-- VCVTS2I (R199). -/
def execVcvtS2i (d a : VIdx) (m : MIdx) (s : State) : Host.Outcome State Fault Refusal :=
  .next (s.vconv d a m 16 32 32 0 (fun s x => int32 (fmt32.toInt s.mode (-(2 ^ 31)) (2 ^ 31 - 1) (s.ftzi .w x))))

/-- VCVTS2N (R199). -/
def execVcvtS2n (d a : VIdx) (m : MIdx) (s : State) : Host.Outcome State Fault Refusal :=
  .next (s.vconv d a m 16 32 32 0 (fun s x => int32 (fmt32.toInt s.mode 0 (2 ^ 32 - 1) (s.ftzi .w x))))

/-- The lanes that hold the sixteen bytes from byte 16q whose elements are active (R200). -/
def m8dLanes (q : BitVec 2) (m : Half) : BitVec 32 :=
  BitVec.ofNat 32 (packElems 1 ((List.range 16).map (fun j =>
    if j / 4 = q.toNat ∧ (m.extractLsb' (4 * (j % 4)) 4) ≠ 0x0#4 then 1 else 0)))

/-- VCVT.M8D (R200): 16 codes of v[va] from byte 16q decoded under the BF16 scale of ox0. -/
def execVcvtM8d (d a : VIdx) (q : BitVec 2) (m : MIdx) (s : State) : Host.Outcome State Fault Refusal :=
  let u := (useV2 false false d a).masked [(false, a, m8dLanes q (s.m m))]
  .next (s.vissue u (fun s =>
    let x := (s.v a.toNat).toNat
    let sc := fmt16.decode ((s.me.oxr 0).toNat % 65536)
    s.vfShort u .w d.toNat (s.fpElems .w m d.toNat (fun i =>
      s.ftzo .w (fmt32.fin2 s.mode (m8Scaled (elemOf 8 x (16 * q.toNat + i)) sc)))) (lanesOf 32 0 (s.m m))))

/-- One lane encoded to M8 by VCVT.M8E (R200). -/
def m8eLane (x sc : FVal) : Nat × Flags :=
  match sc with
  | .nan _ => (0x80, flNV)
  | .inf _ => (0x80, flNV)
  | .fin _ n _ =>
    if n = 0 then (0x80, flNV)
    else
      let v := FVal.div x sc
      let r := roundM8 v.1
      (r.1, r.2 ||| v.2)

/-- The lanes vcvt.m8e writes whole: each of its four codes active (R200, R373). -/
def m8eLanes (q : BitVec 2) (m : Half) : BitVec 32 :=
  BitVec.ofNat 32 (packElems 1 ((List.range 16).map (fun j =>
    if j / 4 = q.toNat ∧ (m.extractLsb' (4 * (j % 4)) 4) = 0xF#4 then 1 else 0)))

/-- VCVT.M8E (R200): v[vd] is a source; its other bytes are kept. -/
def execVcvtM8e (d a : VIdx) (q : BitVec 2) (m : MIdx) (s : State) : Host.Outcome State Fault Refusal :=
  let u := { useV2 false false d a with vsrc := [a.toNat, d.toNat] }.masked [(false, a, eLanes .w (s.m m)), (false, d, BitVec.allOnes 32)]
  .next (s.vissue u (fun s =>
    let x := (s.v a.toNat).toNat
    let old := (s.v d.toNat).toNat
    let sc := fmt16.decode ((s.me.oxr 0).toNat % 65536)
    let rs := (List.range 16).map (fun i =>
      if (s.m m).getLsbD i then m8eLane (fmt32.decode (s.ftzi .w (elemOf 32 x i))) sc
      else (elemOf 8 old (16 * q.toNat + i), 0#5))
    let bytes := (List.range 64).map (fun j =>
      if j / 16 = q.toNat then (rs.getD (j % 16) (0, 0#5)).1 else elemOf 8 old j)
    s.fpResult 6 (orFlags rs) (lanesRaised s.me.ctl.fpctl 0 rs) (fun s =>
      (s.writeV false d.toNat (packElems 8 bytes) (m8eLanes q (s.m m))).finish u)))

/-! ## Lane movement, reductions and scans (R201, R202) -/

/-- VSEL (R201): every element written. -/
def execVsel (d a b : VIdx) (m : MIdx) (t : ElemWD) (s : State) : Host.Outcome State Fault Refusal :=
  let p := elemPair (wd t)
  let u := useV p p p d a b
  .next (s.vissue u (fun s =>
    let w := elemWidth (wd t)
    let x := s.vnum p a.toNat
    let y := s.vnum p b.toNat
    (s.writeV p d.toNat (packElems w ((List.range 16).map (fun i =>
      if (s.m m).getLsbD i then elemOf w x i else elemOf w y i)))).finish u))

/-- VPERM (R201). -/
def execVperm (d a b : VIdx) (m : MIdx) (s : State) : Host.Outcome State Fault Refusal :=
  let idx := fun i => elemOf 32 (s.v b.toNat).toNat i % 16
  let w : BitVec 32 := BitVec.ofNat 32 (packElems 1 ((List.range 16).map (fun j =>
    if (List.range 16).any (fun i => (s.m m).getLsbD i && idx i == j) then 1 else 0)))
  let u := (useV false false false d a b).masked [(false, a, w), (false, b, eLanes .w (s.m m))]
  .next (s.vissue u (fun s =>
    let x := (s.v a.toNat).toNat
    let y := (s.v b.toNat).toNat
    (s.writeV false d.toNat (blend .w (s.m m) (s.v d.toNat).toNat (fun i => elemOf 32 x (elemOf 32 y i % 16))) (eLanes .w (s.m m))).finish u))

/-- VROTL (R201). -/
def execVrotl (d a : VIdx) (k : BitVec 4) (m : MIdx) (s : State) : Host.Outcome State Fault Refusal :=
  let w : BitVec 32 := BitVec.ofNat 32 (packElems 1 ((List.range 16).map (fun j => if (s.m m).getLsbD ((j + k.toNat) % 16) then 1 else 0)))
  let u := (useV2 false false d a).masked [(false, a, w)]
  .next (s.vissue u (fun s =>
    let x := (s.v a.toNat).toNat
    (s.writeV false d.toNat (blend .w (s.m m) (s.v d.toNat).toNat (fun i => elemOf 32 x ((i + 16 - k.toNat) % 16))) (eLanes .w (s.m m))).finish u))

/-- VCOMPRESS (R201). -/
def execVcompress (d a : VIdx) (m : MIdx) (t : ElemWD) (s : State) : Host.Outcome State Fault Refusal :=
  let p := elemPair (wd t)
  let u := (useV2 p p d a).masked [(p, a, eLanes (wd t) (s.m m))]
  .next (s.vissue u (fun s =>
    let w := elemWidth (wd t)
    let x := s.vnum p a.toNat
    let l := ((List.range 16).filter (fun i => (s.m m).getLsbD i)).map (elemOf w x)
    (s.writeV p d.toNat (packElems w l)).finish u))

/-- The elements that enter a reduction or scan: the identity where inactive (R202). Flush inputs meets the source lanes and not the
intermediate values, which flush outputs has met (DESIGN CHOICE, log entry 53: R131 says neither). -/
def State.treeIn (s : State) (a : VIdx) (m : MIdx) (t : ElemWD) (ident : Nat) : List (Nat × Flags) :=
  let w := elemWidth (wd t)
  let x := s.vnum (elemPair (wd t)) a.toNat
  (List.range 16).map (fun i => (if (s.m m).getLsbD i then s.ftzi t (elemOf w x i) else ident, 0#5))

/-- A floating-point reduction: the tree of R145, the result in element 0, the others 0 (R202); flush outputs meets an addition and no
minimum or maximum (R131, R147). -/
def State.vreduce (s : State) (d a : VIdx) (m : MIdx) (t : ElemWD) (rounds : Bool) (ident : Fmt → Nat) (f : Fmt → RMode → Nat → Nat → Nat × Flags) :
    State :=
  let p := elemPair (wd t)
  let u := (useV2 p p d a).masked [(p, a, eLanes (wd t) (s.m m))]
  s.vissue u (fun s =>
    let op (x y : Nat × Flags) : Nat × Flags :=
      let z := f (fmtOf t) s.mode x.1 y.1
      let r := if rounds then s.ftzo t z else z
      (r.1, x.2 ||| y.2 ||| r.2)
    s.vfShort u t d.toNat [reduceTree op (0, 0#5) (s.treeIn a m t (ident (fmtOf t)))] (BitVec.allOnes 32) 8)

/-- VREDADD (R202). -/
def execVredadd (d a : VIdx) (m : MIdx) (t : ElemWD) (s : State) : Host.Outcome State Fault Refusal :=
  .next (s.vreduce d a m t true (fun f => f.sign) (fun f r x y => f.add r x y))

/-- VREDMIN (R202). -/
def execVredmin (d a : VIdx) (m : MIdx) (t : ElemWD) (s : State) : Host.Outcome State Fault Refusal :=
  .next (s.vreduce d a m t false (fun f => f.inf) (fun f _ x y => f.minmax false x y))

/-- VREDMAX (R202). -/
def execVredmax (d a : VIdx) (m : MIdx) (t : ElemWD) (s : State) : Host.Outcome State Fault Refusal :=
  .next (s.vreduce d a m t false (fun f => f.sign + f.inf) (fun f _ x y => f.minmax true x y))

/-- VSCANADD (R202): the scan of R146; each element's flags are those of the applications that formed it. -/
def execVscanadd (d a : VIdx) (m : MIdx) (t : ElemWD) (s : State) : Host.Outcome State Fault Refusal :=
  let p := elemPair (wd t)
  let u := (useV2 p p d a).masked [(p, a, eLanes (wd t) (s.m m))]
  .next (s.vissue u (fun s =>
    let op (x y : Nat × Flags) : Nat × Flags :=
      let r := s.ftzo t ((fmtOf t).add s.mode x.1 y.1)
      (r.1, y.2 ||| r.2)
    s.vfShort u t d.toNat (scanTree op (0, 0#5) (s.treeIn a m t (fmtOf t).sign)) (BitVec.allOnes 32) 8))

/-! ## Wide integers (R203) -/

/-- The width of a wide integer. -/
def wideBits (t : ElemWD) : Nat := match t with | .w => 512 | .d => 1024

/-- VWADD and VWSUB: f gives the exact result of x, y and the carry; the carry out is 1 when it leaves the range. -/
def State.wideAdd (s : State) (d a b : VIdx) (k : MIdx) (t : ElemWD) (f : Int → Int → Int → Int) : State :=
  let p := elemPair (wd t)
  let u := useV p p p d a b
  s.vissue u (fun s =>
    let cin : Int := if k ≠ 0#3 ∧ (s.m k).getLsbD 0 then 1 else 0
    let r := f (s.vnum p a.toNat) (s.vnum p b.toNat) cin
    let out : Bool := decide (r < 0) || decide (2 ^ wideBits t ≤ r)
    ((s.writeV p d.toNat (wrapTo (wideBits t) r)).writeM k (if out then 1#16 else 0#16)).finish u)

/-- VWADD (R203). -/
def execVwadd (d a b : VIdx) (k : MIdx) (t : ElemWD) (s : State) : Host.Outcome State Fault Refusal :=
  .next (s.wideAdd d a b k t (fun x y c => x + y + c))

/-- VWSUB (R203). -/
def execVwsub (d a b : VIdx) (k : MIdx) (t : ElemWD) (s : State) : Host.Outcome State Fault Refusal :=
  .next (s.wideAdd d a b k t (fun x y c => x - y - c))

/-- VWMUL (R203): the product by lane 0 of v[vb], in a pair. -/
def execVwmul (d a b : VIdx) (s : State) : Host.Outcome State Fault Refusal :=
  let u := useV true false false d a b
  .next (s.vissue u (fun s =>
    (s.writeV true d.toNat ((s.v a.toNat).toNat * ((s.v b.toNat).toNat % 2 ^ 32))).finish u))

/-- A wide shift by lane 0 [10:0] of v[vb], which is a value of W bits as the others are, a pair for ty = d (R203; log entry 15). -/
def State.wideShift (s : State) (d a b : VIdx) (t : ElemWD) (f : Nat → Nat → Nat) : State :=
  let p := elemPair (wd t)
  let u := useV p p p d a b
  s.vissue u (fun s =>
    let sh := (s.v b.toNat).toNat % 2048
    (s.writeV p d.toNat (if wideBits t ≤ sh then 0 else f (s.vnum p a.toNat) sh % 2 ^ wideBits t)).finish u)

/-- VWSHL (R203). -/
def execVwshl (d a b : VIdx) (t : ElemWD) (s : State) : Host.Outcome State Fault Refusal :=
  .next (s.wideShift d a b t (fun x n => x * 2 ^ n))

/-- VWSHR (R203). -/
def execVwshr (d a b : VIdx) (t : ElemWD) (s : State) : Host.Outcome State Fault Refusal :=
  .next (s.wideShift d a b t (fun x n => x / 2 ^ n))

/-- VWCMP (R203): k = 0 is ILL reason 4. -/
def execVwcmp (a b : VIdx) (k : MIdx) (t : ElemWD) (s : State) : Host.Outcome State Fault Refusal :=
  let p := elemPair (wd t)
  let u := useVM p a b
  .next (if k = 0#3 then s.trapIll 4 else s.vissue u (fun s =>
    let x := s.vnum p a.toNat
    let y := s.vnum p b.toNat
    let lt : Bool := decide (sintOf (wideBits t) x < sintOf (wideBits t) y)
    (s.writeM k (bitsOf 3 (fun i => match i with | 0 => lt | 1 => x == y | _ => decide (x < y)))).finish u))

/-! ## Exact accumulators (R142 to R144, R204) -/

/-- The sum of two accumulators: the sticky bits of both, and ovf when the integer leaves its range (R143, R204). -/
def xaccSum (x y : Nat) : Nat :=
  let i (v : Nat) : Int := sintOf 1008 (v % 2 ^ 1008)
  let t := i x + i y
  let st := Nat.lor (x / 2 ^ 1008 % 16) (y / 2 ^ 1008 % 16)
  let out : Bool := decide (t < -(2 ^ 1007)) || decide (2 ^ 1007 ≤ t)
  Nat.lor st (if out then 8 else 0) * 2 ^ 1008 + wrapTo 1008 t

/-- VXADD and VXFMA: the addends of the active lanes, all in one step (R204). -/
def State.xaccAddLanes (s : State) (u : Use) (d : VIdx) (m : MIdx) (f : Nat → FVal × Flags) : State :=
  let all := vregs true d.toNat
  s.vissue { u with vsrc := all ++ u.vsrc, vdst := all, part := all.map (fun i => (i, BitVec.allOnes 16)) ++ u.part } (fun s =>
    let r := (List.range 16).foldl (fun (r : Nat × List (Nat × Flags)) i =>
      if (s.m m).getLsbD i then
        let v := f i
        let z := xaccAdd r.1 v.1 (v.2 != 0#5)
        (z.1, r.2 ++ [(0, z.2)])
      else (r.1, r.2 ++ [(0, 0#5)])) (0, [])
    s.fpResult 8 (orFlags r.2) (lanesRaised s.me.ctl.fpctl 0 r.2) (fun s =>
      (s.writeV true d.toNat (xaccSum (s.vnum true d.toNat) r.1)).finish u))

/-- VXCLR (R204). -/
def execVxclr (d : VIdx) (s : State) : Host.Outcome State Fault Refusal :=
  let u : Use := { lim := [(.v, d.toNat, 20)], vdst := vregs true d.toNat }
  .next (s.vissue u (fun s => (s.writeV true d.toNat 0).finish u))

/-- VXADD (R204). -/
def execVxadd (d a : VIdx) (m : MIdx) (s : State) : Host.Outcome State Fault Refusal :=
  .next (s.xaccAddLanes ((useV2 true false d a).masked [(false, a, eLanes .w (s.m m))]) d m (fun i => (fmt32.decode (elemOf 32 (s.v a.toNat).toNat i), 0#5)))

/-- VXFMA (R204). -/
def execVxfma (d a b : VIdx) (m : MIdx) (s : State) : Host.Outcome State Fault Refusal :=
  .next (s.xaccAddLanes ((useV true false false d a b).masked [(false, a, eLanes .w (s.m m)), (false, b, eLanes .w (s.m m))]) d m (fun i =>
    FVal.mul (fmt32.decode (elemOf 32 (s.v a.toNat).toNat i)) (fmt32.decode (elemOf 32 (s.v b.toNat).toNat i))))

/-- VXRND: XValue in the low bits, the rest 0 (R144, R204). -/
def State.xaccRnd (s : State) (d a : VIdx) (f : Fmt) : State :=
  let u := useV2 false true d a
  s.vissue u (fun s =>
    let r := xaccRound f s.mode (s.vnum true a.toNat)
    s.fpResult 8 r.2 (lanesRaised s.me.ctl.fpctl 0 [r]) (fun s => (s.writeV false d.toNat r.1).finish u))

/-- VXRND.s (R204). -/
def execVxrndS (d a : VIdx) (s : State) : Host.Outcome State Fault Refusal := .next (s.xaccRnd d a fmt32)

/-- VXRND.d (R204). -/
def execVxrndD (d a : VIdx) (s : State) : Host.Outcome State Fault Refusal := .next (s.xaccRnd d a fmt64)

/-- VXSTAT (R204). -/
def execVxstat (d : G5Idx) (a : VIdx) (s : State) : Host.Outcome State Fault Refusal :=
  let u : Use := { lim := [(.g, d.toNat, 20), (.v, a.toNat, 15)], vsrc := vregs true a.toNat, gdst := [d.toNat] }
  .next (s.vissue u (fun s =>
    let x := s.vnum true a.toNat
    let i := x % 2 ^ 1008
    (s.writeG d.toNat (BitVec.ofNat 64 (x / 2 ^ 1008 % 16 + (if i.testBit 1007 then 16 else 0) + (if i = 0 then 32 else 0)))).finish u))

/-! ## Vector memory (R205 to R207) -/

/-- The element accesses of the active lanes. -/
def activeEls (m : Half) (f : Nat → El) : List El := ((List.range 16).filter (fun i => m.getLsbD i)).map f

/-- A vector load from its parts: within 8 cycles from the own local store, else the one outstanding load (R205, R206). -/
def State.vloadParts (s : State) (u : Use) (d es : Nat) (pair : Bool) (m : Half) (fast : Bool) (ps : List Part) : State :=
  if ps = [] then s.finish u
  else if fast then
    let cs := ps.map (fun p => (p, (s.cellOf (s.msg .load) p).getD 0))
    match cs.find? (fun c => s.poisoned c.2 es) with
    | some c => s.trap causeECC (BitVec.ofNat 64 c.1.addr) 2#64
    | none =>
      let qs := cs.map (fun c => { c.1 with data := s.readThrough (coreOf s.cur) c.2 es })
      let pc := s.me.pc
      let s1 := cs.foldl (fun s c => s.learn (dieOf s.cur) (s.stampAt c.2 es)) s
      ((s1.putV s.cur d (mergeElems es (s.v d) qs) (partLanes es qs)).finish { u with near := qs.length }).watchAfter s.cur s.me.watchRegs pc
        (qs.map (fun p => (false, p.generic, es, some (leNat p.data))))
  else
    s.sendWaiting u { s.msg .load with parts := ps, dest := .v d es m } .load [] (vregs pair d) .memoryRequestAtHome

/-- VLD (R205). -/
def execVld (v : VIdx) (a : GIdx) (m : MIdx) (p : AMode) (o : BitVec 7) (s : State) : Host.Outcome State Fault Refusal :=
  let u : Use := { lim := [(.v, v.toNat, 20), (.g, a.toNat, 13)], gsrc := [a.toNat], vdst := [v.toNat] }
  .next (s.vissue u (fun s =>
    let ea := eaOf (s.g a.toNat) o 64
    if ea.toNat % 64 ≠ 0 then s.trapAlign ea 6
    else s.access .load p (activeEls (s.m m) (fun i => { ea := ea + BitVec.ofNat 64 (4 * i), size := 4, elem := i }))
      (s.vloadParts u v.toNat 4 false (s.m m) (p == .ls))))

/-- VST (R205): one posted store for each active lane. -/
def execVst (v : VIdx) (a : GIdx) (m : MIdx) (p : AMode) (o : BitVec 7) (s : State) : Host.Outcome State Fault Refusal :=
  let u : Use := { lim := [(.v, v.toNat, 20), (.g, a.toNat, 13)], gsrc := [a.toNat], vsrc := [v.toNat] }
  let u := u.masked [(false, v, eLanes .w (s.m m))]
  .next (s.vissue u (fun s =>
    let ea := eaOf (s.g a.toNat) o 64
    let x := (s.v v.toNat).toNat
    if ea.toNat % 64 ≠ 0 then s.trapAlign ea 6
    else s.access .store p (activeEls (s.m m) (fun i =>
        { ea := ea + BitVec.ofNat 64 (4 * i), size := 4, data := leBytes 4 (elemOf 32 x i), elem := i }))
      (s.sendStores u)))

/-- The amode of a gather or scatter: ox1[1:0] (R206). -/
def amodeOf (x : Word) : AMode := match x.toNat % 4 with | 0 => .generic | 1 => .ls | 2 => .gi | _ => .gb

/-- The address of element i of a gather or scatter (R206). -/
def State.gatherEa (s : State) (a : VIdx) (e i : Nat) : Word :=
  s.me.oxr 0 + BitVec.ofInt 64 (sintOf 32 (elemOf 32 (s.v a.toNat).toNat i) * e)

/-- The address an ALIGN of a gather or scatter names: the lowest active element's that is misaligned, or in the interleaved form for
doublewords, which traps with every element inactive too and then names ox0 (R206; DESIGN CHOICE, log entry 54). -/
def State.gatherBad (s : State) (a : VIdx) (m : Half) (e : Nat) (am : AMode) : Option Word :=
  match (((List.range 16).filter (fun i => m.getLsbD i)).map (s.gatherEa a e)).find? (fun ea => misaligned am e ea) with
  | some ea => some ea
  | none => if am == .gi && e == 8 then some (s.me.oxr 0) else none

/-- VGATHER (R206). -/
def execVgather (d a : VIdx) (m : MIdx) (t : ElemWD) (s : State) : Host.Outcome State Fault Refusal :=
  let p := elemPair (wd t)
  let u := (useV2 p false d a).masked [(false, a, eLanes .w (s.m m))]
  .next (s.vissue u (fun s =>
    let e := elemWidth (wd t) / 8
    let am := amodeOf (s.me.oxr 1)
    match s.gatherBad a (s.m m) e am with
    | some ea => s.trapAlign ea (Nat.log2 e)
    | none => s.access .load am (activeEls (s.m m) (fun i => { ea := s.gatherEa a e i, size := e, elem := i }))
        (s.vloadParts u d.toNat e p (s.m m) false)))

/-- VSCATTER (R207). -/
def execVscatter (a b : VIdx) (m : MIdx) (t : ElemWD) (s : State) : Host.Outcome State Fault Refusal :=
  let p := elemPair (wd t)
  let u : Use := { lim := [(.v, a.toNat, 15), (.v, b.toNat, 10)], vsrc := a.toNat :: vregs p b.toNat }
  let u := u.masked [(false, a, eLanes .w (s.m m)), (p, b, eLanes (wd t) (s.m m))]
  .next (s.vissue u (fun s =>
    let e := elemWidth (wd t) / 8
    let am := amodeOf (s.me.oxr 1)
    let x := s.vnum p b.toNat
    match s.gatherBad a (s.m m) e am with
    | some ea => s.trapAlign ea (Nat.log2 e)
    | none => s.access .store am (activeEls (s.m m) (fun i =>
          { ea := s.gatherEa a e i, size := e, data := leBytes e (elemOf (8 * e) x i), elem := i }))
        (s.sendStores u)))

/-! ## Masks and moves (R208, R209) -/

/-- A mask operation. -/
def State.maskOp (s : State) (k : MIdx) (f : State → Half) : State := s.vissue {} (fun s => (s.writeM k (f s)).finish {})

/-- A move of a mask's property to a general register. -/
def State.maskToG (s : State) (d : G5Idx) (f : State → Nat) : State :=
  let u : Use := { lim := [(.g, d.toNat, 20)], gdst := [d.toNat] }
  s.vissue u (fun s => (s.writeG d.toNat (BitVec.ofNat 64 (f s))).finish u)

/-- MAND (R208). -/
def execMand (k i j : MIdx) (s : State) : Host.Outcome State Fault Refusal := .next (s.maskOp k (fun s => s.m i &&& s.m j))
/-- MOR (R208). -/
def execMor (k i j : MIdx) (s : State) : Host.Outcome State Fault Refusal := .next (s.maskOp k (fun s => s.m i ||| s.m j))
/-- MXOR (R208). -/
def execMxor (k i j : MIdx) (s : State) : Host.Outcome State Fault Refusal := .next (s.maskOp k (fun s => s.m i ^^^ s.m j))
/-- MNOT (R208). -/
def execMnot (k i : MIdx) (s : State) : Host.Outcome State Fault Refusal := .next (s.maskOp k (fun s => ~~~s.m i))
/-- MPOPC (R208). -/
def execMpopc (d : G5Idx) (i : MIdx) (s : State) : Host.Outcome State Fault Refusal :=
  .next (s.maskToG d (fun s => popcW 16 (s.m i).toNat))
/-- MFFS (R208). -/
def execMffs (d : G5Idx) (i : MIdx) (s : State) : Host.Outcome State Fault Refusal :=
  .next (s.maskToG d (fun s => ffsW 16 (s.m i).toNat))
/-- MGET (R208). -/
def execMget (d : G5Idx) (i : MIdx) (s : State) : Host.Outcome State Fault Refusal :=
  .next (s.maskToG d (fun s => (s.m i).toNat))
/-- MSET (R208). -/
def execMset (k : MIdx) (a : G5Idx) (s : State) : Host.Outcome State Fault Refusal :=
  let u : Use := { lim := [(.g, a.toNat, 15)], gsrc := [a.toNat] }
  .next (s.vissue u (fun s => (s.writeM k ((s.g a.toNat).setWidth 16)).finish u))

/-- VFROMG (R209). -/
def execVfromg (d : VIdx) (a : G5Idx) (m : MIdx) (t : Elem) (s : State) : Host.Outcome State Fault Refusal :=
  let p := elemPair t
  let u : Use := { lim := [(.v, d.toNat, 20), (.g, a.toNat, 15)], gsrc := [a.toNat], vdst := vregs p d.toNat }
  .next (s.vissue u (fun s =>
    let x := (s.g a.toNat).toNat % 2 ^ elemWidth t
    (s.writeV p d.toNat (blend t (s.m m) (s.vnum p d.toNat) (fun _ => x)) (eLanes t (s.m m))).finish u))

/-- VTOG (R209). -/
def execVtog (d : G5Idx) (a : VIdx) (k : BitVec 4) (t : ElemWD) (s : State) : Host.Outcome State Fault Refusal :=
  let p := elemPair (wd t)
  let u : Use := { lim := [(.g, d.toNat, 20), (.v, a.toNat, 15)], vsrc := vregs p a.toNat, gdst := [d.toNat] }
  .next (s.vissue u (fun s =>
    (s.writeG d.toNat (BitVec.ofNat 64 (elemOf (elemWidth (wd t)) (s.vnum p a.toNat) k.toNat))).finish u))

/-- VLANEW (R209): the other lanes are kept. -/
def execVlanew (d : VIdx) (a : G5Idx) (k : BitVec 4) (t : ElemWD) (s : State) : Host.Outcome State Fault Refusal :=
  let p := elemPair (wd t)
  let u : Use := { lim := [(.v, d.toNat, 20), (.g, a.toNat, 15)], gsrc := [a.toNat], vdst := vregs p d.toNat }
  .next (s.vissue u (fun s =>
    let w := elemWidth (wd t)
    let old := s.vnum p d.toNat
    (s.writeV p d.toNat (packElems w ((List.range 16).map (fun i =>
      if i = k.toNat then (s.g a.toNat).toNat % 2 ^ w else elemOf w old i))) (eLanes (wd t) (1#16 <<< k.toNat))).finish u))

/-! ## Curve keys (R210) -/

/-- VMORTON and VHILBERT: coordinates in va, va + 1 and va + 2, the box in ox0 to ox2; an index va + 2 beyond the window is
REGLIM, which names va (DEDUCED, log entry 64). -/
def State.curve (s : State) (d a : VIdx) (m : MIdx) (hilbert : Bool) : State :=
  let i := a.toNat
  let u : Use := { lim := [(.v, d.toNat, 20), (.v, i, 15)], vsrc := [i, i + 1, i + 2], vdst := vregs true d.toNat }
  let u := { u with part := [i, i + 1, i + 2].map (fun j => (j, s.m m)) }
  if !s.me.outside .v d.toNat && !s.me.outside .v i && s.me.outside .v (i + 2) then
    s.trap causeREGLIM 0#64 (BitVec.ofNat 64 (i + 256 + 15 * 1024))
  else s.vissue u (fun s =>
    let co (j l : Nat) : FVal := fmt32.decode (elemOf 32 (s.v (i + j)).toNat l)
    let lo (j : Nat) : FVal := fmt32.decode ((s.me.oxr j).toNat % 2 ^ 32)
    let hi (j : Nat) : FVal := fmt32.decode ((s.me.oxr j).toNat / 2 ^ 32)
    (s.writeV true d.toNat (w := eLanes .d (s.m m)) (blend .d (s.m m) (s.vnum true d.toNat) (fun l =>
      curveKey hilbert (co 0 l, co 1 l, co 2 l) (lo 0, lo 1, lo 2) (hi 0, hi 1, hi 2)))).finish u)

/-- VMORTON (R210). -/
def execVmorton (d a : VIdx) (m : MIdx) (s : State) : Host.Outcome State Fault Refusal := .next (s.curve d a m false)
/-- VHILBERT (R210). -/
def execVhilbert (d a : VIdx) (m : MIdx) (s : State) : Host.Outcome State Fault Refusal := .next (s.curve d a m true)

/-! ## Operand-extension moves (R211) -/

/-- OXSET (R211). -/
def execOxset (j : OxIdx) (a : GIdx) (s : State) : Host.Outcome State Fault Refusal :=
  let u : Use := { lim := [(.g, a.toNat, 11)], gsrc := [a.toNat] }
  .next (s.issue u (fun s => (s.updCtx s.cur (fun x => x.setOx j.toNat (s.g a.toNat))).finish u))

/-- OXGET (R211). -/
def execOxget (d : GIdx) (j : OxIdx) (s : State) : Host.Outcome State Fault Refusal :=
  let u : Use := { lim := [(.g, d.toNat, 18)], gdst := [d.toNat] }
  .next (s.issue u (fun s => (s.writeG d.toNat (s.me.oxr j.toNat)).finish u))

/-- The doublewords of OXLD and OXST: n − 1 is encoded (R211). -/
def oxEls (base : Word) (n : BitVec 3) (data : Nat → List Byte) : List El :=
  (List.range (n.toNat + 1)).map (fun k => { ea := base + BitVec.ofNat 64 (8 * k), size := 8, data := data k, elem := k })

/-- OXLD (R211): the one outstanding load; the registers are written together when all have landed. -/
def execOxld (j : OxIdx) (a : GIdx) (n : BitVec 3) (s : State) : Host.Outcome State Fault Refusal :=
  let u : Use := { lim := [(.g, a.toNat, 11)], gsrc := [a.toNat] }
  .next (if 8 < j.toNat + n.toNat + 1 then s.trapIll 9 else s.issue u (fun s =>
    let ea := s.g a.toNat
    if misaligned .generic 8 ea then s.trapAlign ea 3
    else s.access .load .generic (oxEls ea n (fun _ => [])) (fun ps =>
      s.sendWaiting u { s.msg .load with parts := ps, dest := .ox j.toNat (n.toNat + 1) } .load [] [] .memoryRequestAtHome)))

/-- OXST (R211). -/
def execOxst (j : OxIdx) (a : GIdx) (n : BitVec 3) (s : State) : Host.Outcome State Fault Refusal :=
  let u : Use := { lim := [(.g, a.toNat, 11)], gsrc := [a.toNat] }
  .next (if 8 < j.toNat + n.toNat + 1 then s.trapIll 9 else s.issue u (fun s =>
    let ea := s.g a.toNat
    if misaligned .generic 8 ea then s.trapAlign ea 3
    else s.access .store .generic (oxEls ea n (fun k => leBytes 8 (s.me.oxr (j.toNat + k)).toNat)) (s.sendStores u)))

end Sys2Proof.Machine
end

