-- ==== Sys2Proof/Machine/Dist.lean ====
section
/-! DEFINITION. Distribution registers and the condenser (spec/13_isa_distributions.md R295 to R312; spec/06_numbers.md R149). -/

namespace Sys2Proof.Machine

/-! ## Lanes (R296) -/

/-- A lane: eight points, each a binary32 pattern and a weight. -/
abbrev DLane := List (Nat × Nat)

/-- Lane i of an image (R296). -/
def laneOf (img : BitVec 6144) (i : Nat) : DLane :=
  (List.range 8).map (fun p =>
    ((img.extractLsb' (32 * (8 * i + p)) 32).toNat, (img.extractLsb' (4096 + 16 * (8 * i + p)) 16).toNat))

/-- An image from its sixteen lanes. -/
def imageOf (ls : List DLane) : BitVec 6144 :=
  let vs := ls.flatMap (fun l => l.flatMap (fun x => leBytes 4 x.1))
  let ws := ls.flatMap (fun l => l.flatMap (fun x => leBytes 2 x.2))
  BitVec.ofNat 6144 (leNat (vs ++ ws))

/-- The NaN lane (R296). -/
def nanLane : DLane := List.replicate 8 (0x7FC00000, 4096)

/-- A binary32 pattern is a NaN. -/
def isNan32 (b : Nat) : Bool := (fmt32.decode b).isNan
/-- A binary32 pattern is a signalling NaN. -/
def isSig32 (b : Nat) : Bool := (fmt32.decode b).isSig

/-- A lane has a NaN (R296). -/
def DLane.nan (l : DLane) : Bool := l.any (fun x => isNan32 x.1)

/-- The weights of a lane. -/
def DLane.weight (l : DLane) : Nat := l.foldl (fun a x => a + x.2) 0

/-- What an instruction leaves in a lane: the NaN lane for a NaN value or weights that do not sum to 32,768 (R296). -/
def fixLane (l : DLane) : DLane := if l.nan || l.weight != 32768 then nanLane else l

/-- A lane's points as values with weights. -/
def DLane.vals (l : DLane) : List (FVal × Nat) := l.map (fun x => (fmt32.decode x.1, x.2))

/-! ## Pairing and condensation (R300 to R302) -/

/-- The lesser, or greater, of two values that are no NaNs; −0 below +0 (R302). -/
def pickVal (isMax : Bool) (x y : FVal) : FVal :=
  let less (a b : FVal) : Bool := FVal.lt a b || (a.isZero && b.isZero && a.neg? && !b.neg?)
  if isMax then (if less x y then y else x) else (if less y x then y else x)

/-- Cand (R302): the exact candidate of two points and its flags. -/
def cand (fn : Nat) (x y : FVal) : FVal × Flags :=
  match fn with
  | 0 => FVal.add .rne x y
  | 1 => FVal.add .rne x y.negate
  | 2 => FVal.mul x y
  | 3 => FVal.div x y
  | 4 => (pickVal false x y, 0#5)
  | _ => (pickVal true x y, 0#5)

/-- A candidate put before those it is not greater than. -/
def insertCand (c : FVal × Nat) : List (FVal × Nat) → List (FVal × Nat)
  | [] => [c]
  | x :: l => if FVal.lt x.1 c.1 then x :: insertCand c l else c :: x :: l

/-- Candidates in ascending order, equal ones by index (R301). -/
def sortCands (cs : List (FVal × Nat)) : List (FVal × Nat) := cs.foldr insertCand []

/-- The exact sum of what overlaps bin b, the cumulative weight before being c (R301); none when nothing overlaps. -/
def binSum (b : Nat) : Nat → List (FVal × Nat) → Option FVal → Option FVal × Flags
  | _, [], a => (a, 0#5)
  | c, (v, w) :: r, a =>
    let o := min (c + w) ((b + 1) * 2 ^ 27) - max c (b * 2 ^ 27)
    if o = 0 then binSum b (c + w) r a
    else
      let t := (FVal.mul (.fin false o 1) v).1
      match a with
      | none => binSum b (c + w) r (some t)
      | some x =>
        let y := FVal.add .rne x t
        let z := binSum b (c + w) r (some y.1)
        (z.1, y.2 ||| z.2)

/-- Condense (R301). -/
def condense (cs : List (FVal × Nat)) : DLane × Flags :=
  if cs.any (fun c => c.1.isNan) then (nanLane, 0#5)
  else
    let s := sortCands cs
    let bins := (List.range 8).map (fun b => binSum b 0 s none)
    if bins.any (fun b => match b.1 with | some v => v.isNan | none => false) then (nanLane, flNV)
    else
      let rs := bins.map (fun b => fmt32.fin2 .rne (FVal.mul (b.1.getD (.fin false 0 1)) (.fin false 1 (2 ^ 27))))
      (rs.map (fun r => (r.1, 4096)), rs.foldl (fun f r => f ||| r.2) 0#5)

/-- One lane of a binary instruction (R300). -/
def pairLane (fn : Nat) (dependent : Bool) (x y : DLane) : DLane × Flags :=
  if x.nan || y.nan then (nanLane, 0#5)
  else if dependent then
    let rs := (List.range 8).map (fun p =>
      let r := fmt32.fin2 .rne (cand fn (fmt32.decode (x.getD p (0, 0)).1) (fmt32.decode (y.getD p (0, 0)).1))
      (r, (x.getD p (0, 0)).2))
    (rs.map (fun r => (r.1.1, r.2)), rs.foldl (fun f r => f ||| r.1.2) 0#5)
  else
    let cs := x.vals.flatMap (fun a => y.vals.map (fun b => (cand fn a.1 b.1, a.2 * b.2)))
    let fl := cs.foldl (fun f c => f ||| c.1.2) 0#5
    let r := condense (cs.map (fun c => (c.1.1, c.2)))
    (r.1, fl ||| r.2)

/-! ## The other lane functions (R303 to R306, R309) -/

/-- One lane of DAFF (R303): with a NaN a or b a NaN lane, whose points still raise what R183 has them raise. -/
def affLane (a b : Nat) (x : DLane) : DLane × Flags :=
  let rs := x.map (fun p => (fmt32.fma .rne false false a p.1 b, p.2))
  let fl := rs.foldl (fun f r => f ||| r.1.2) 0#5
  if isNan32 a || isNan32 b then (nanLane, fl ||| (if isSig32 a || isSig32 b then flNV else 0#5))
  else (rs.map (fun r => (r.1.1, r.2)), fl)

/-- The special function of a DMAP code (R304). -/
def mapFn : Nat → SFn
  | 0 => .rcp | 1 => .rsq | 2 => .exp2 | 3 => .log2 | 4 => .sin | 5 => .cos | _ => .tanh

/-- The map of a point (R304). -/
def mapPoint (f x : Nat) : Nat × Flags :=
  if f ≤ 6 then (mapFn f).apply x
  else match f with
    | 7 => fmt32.sqrt .rne x
    | 8 => (x % 2 ^ 31, 0#5)
    | 9 => (Nat.xor x (2 ^ 31), 0#5)
    | _ => fmt32.mul .rne x x

/-- One lane of DMAP (R304). -/
def mapLane (f : Nat) (x : DLane) : DLane × Flags :=
  let rs := x.map (fun p => (mapPoint f p.1, p.2))
  (rs.map (fun r => (r.1.1, r.2)), rs.foldl (fun f r => f ||| r.1.2) 0#5)

/-- q of DMIX: p × 32,768 rounded to an integer under RNE and clamped (R305). -/
def mixWeight (p : FVal) : Nat :=
  match p with
  | .nan _ => 0
  | .inf s => if s then 0 else 32768
  | .fin s n d =>
    let r := (roundInt .rne s (n * 32768) d).1
    if r < 0 then 0 else min r.toNat 32768

/-- One lane of DMIX (R305). -/
def mixLane (p : Nat) (x y : DLane) : DLane × Flags :=
  if isNan32 p then (nanLane, if isSig32 p then flNV else 0#5)
  else
    let q := mixWeight (fmt32.decode p)
    condense (x.vals.map (fun a => (a.1, a.2 * q)) ++ y.vals.map (fun b => (b.1, b.2 * (32768 - q))))

/-- One lane made of eight values (R309). -/
def valuesLane (vs : List Nat) : DLane × Flags :=
  (vs.map (fun v => (v, 4096)), if vs.any isSig32 then flNV else 0#5)

/-! ## What is read out of a lane (R310 to R312) -/

/-- An exact sum. -/
def sumVals (vs : List FVal) : FVal :=
  match vs with
  | [] => .fin false 0 1
  | v :: r => r.foldl (fun a x => (FVal.add .rne a x).1) v

/-- A value times w / 32,768. -/
def weighted (x : FVal) (w : Nat) : FVal := (FVal.mul x (.fin false w 32768)).1

/-- x to the power n. -/
def powVal (x : FVal) : Nat → FVal
  | 0 => .fin false 1 1
  | n + 1 => (FVal.mul (powVal x n) x).1

/-- DMOM of a lane (R310). -/
def momentOf (k : Nat) (l : DLane) : Nat × Flags :=
  if l.nan then (0x7FC00000, 0#5)
  else
    let ps := l.vals.filter (fun x => x.2 != 0)
    let has (neg : Bool) : Bool := ps.any (fun x => match x.1 with | .inf s => s == neg | _ => false)
    if has false || has true then
      let both := has false && has true
      if k = 0 then (if both then (0x7FC00000, flNV) else (fmt32.signed (has true) fmt32.inf, 0#5))
      else if k = 2 then (0x7FC00000, flNV)
      else if both then (0x7FC00000, flNV) else (fmt32.inf, 0#5)
    else
      let mu := sumVals (ps.map (fun x => weighted x.1 x.2))
      if k = 0 then fmt32.round .rne mu
      else
        let r := sumVals (ps.map (fun x => weighted (powVal (FVal.add .rne x.1 mu.negate).1 (k + 1)) x.2))
        fmt32.round .rne (if r.isZero then .fin false 0 1 else r)

/-- A point with its pattern put before those it is not greater than. -/
def insertPoint (c : Nat × Nat) : DLane → DLane
  | [] => [c]
  | x :: l => if FVal.lt (fmt32.decode x.1) (fmt32.decode c.1) then x :: insertPoint c l else c :: x :: l

/-- The first point whose cumulative weight reaches t; none when the weights do not (R311). -/
def reach (t : Nat) : Nat → DLane → Option Nat
  | _, [] => none
  | c, (v, w) :: r => if t ≤ c + w then some v else reach t (c + w) r

/-- DQNT of a lane (R311); none where the spec gives no result, the weights falling short. -/
def quantileOf (p : Nat) (l : DLane) : Option Nat × Flags :=
  match fmt32.decode p with
  | .nan s => (some 0x7FC00000, if s then flNV else 0#5)
  | .inf _ => (some 0x7FC00000, 0#5)
  | .fin s n d =>
    if l.nan || (s && n != 0) || decide (d < n) then (some 0x7FC00000, 0#5)
    else
      let t := max 1 ((n * 32768 + d - 1) / d)
      (reach t 0 ((l.filter (fun x => x.2 != 0)).foldr insertPoint []), 0#5)

/-- DCDF of a lane (R312). -/
def cdfOf (x : Nat) (l : DLane) : Nat × Flags :=
  if isNan32 x then (0x7FC00000, if isSig32 x then flNV else 0#5)
  else if l.nan then (0x7FC00000, 0#5)
  else
    let n := (l.filter (fun p => !FVal.lt (fmt32.decode x) (fmt32.decode p.1))).foldl (fun a p => a + p.2) 0
    fmt32.round .rne (.fin false n 32768)

/-! ## Issue (R295, R297) -/

/-- Instructions a condenser holds (R297). -/
def condMax : Nat := 8

/-- A condenser instruction as it issues. -/
def State.condOp (s : State) (k : CondKind) (m : MIdx) : CondOp :=
  let x := s.me
  { ctx := s.cur, epoch := x.epoch, pc := x.pc, kind := k, mask := s.m m, fpctl := x.ctl.fpctl, job := x.job, prog := x.program }

/-- The condenser takes an instruction: its start is due when nothing is before it (R297). -/
def State.condTake (s : State) (o : CondOp) : State :=
  let k := coreOf s.cur
  let s := if (s.core k).condQ = [] then s.due (.condenserOpStart k) else s
  s.updCore k (fun x => { x with condQ := x.condQ ++ [o] })

/-- A poisoned distribution source (R372). -/
def State.poisonedD (s : State) (ds : List Nat) : Option Nat := ds.find? (fun i => (s.dReg s.cur i).poison != 0#96)

/-- A condenser instruction: ILL on a service core (R23, R295), the checks of issue, room (R297), poisoned sources (R372). -/
def State.condIssue (s : State) (u : Use) (ds : List Nat) (body : State → State) : State :=
  if isService s.cur then s.trapIll 8
  else s.issue u (fun s =>
    if condMax ≤ (s.core (coreOf s.cur)).condQ.length then s.unitBusy
    else match s.poisonedD ds with
      | some i => s.trap causeECC 0#64 (BitVec.ofNat 64 (1 + i * 256 + 131072))
      | none => body s)

/-- Fields of a D instruction: the fields checked and the vector registers read and written. -/
def useDist (lim : List (RC × Nat × Nat)) (vsrc vdst : List Nat) : Use := { lim := lim, vsrc := vsrc, vdst := vdst }

/-- DISTA (R302). -/
def State.distPair (s : State) (fn : Nat) (d a b : DIdx) (m : MIdx) : State :=
  let u := useDist [(.d, d.toNat, 22), (.d, a.toNat, 19), (.d, b.toNat, 16)] [] []
  s.condIssue u [a.toNat, b.toNat] (fun s => (s.condTake (s.condOp (.bin fn d.toNat a.toNat b.toNat) m)).finish u)

/-- DADD (R302). -/
def execDadd (d a b : DIdx) (m : MIdx) (s : State) : Host.Outcome State Fault Refusal := .next (s.distPair 0 d a b m)
/-- DSUB (R302). -/
def execDsub (d a b : DIdx) (m : MIdx) (s : State) : Host.Outcome State Fault Refusal := .next (s.distPair 1 d a b m)
/-- DMUL (R302). -/
def execDmul (d a b : DIdx) (m : MIdx) (s : State) : Host.Outcome State Fault Refusal := .next (s.distPair 2 d a b m)
/-- DDIV (R302). -/
def execDdiv (d a b : DIdx) (m : MIdx) (s : State) : Host.Outcome State Fault Refusal := .next (s.distPair 3 d a b m)
/-- DMIN (R302). -/
def execDmin (d a b : DIdx) (m : MIdx) (s : State) : Host.Outcome State Fault Refusal := .next (s.distPair 4 d a b m)
/-- DMAX (R302). -/
def execDmax (d a b : DIdx) (m : MIdx) (s : State) : Host.Outcome State Fault Refusal := .next (s.distPair 5 d a b m)

/-- DAFF (R303): an even pair of vector registers; an odd one is ILL reason 5. -/
def execDaff (d a : DIdx) (m : MIdx) (v : VIdx) (s : State) : Host.Outcome State Fault Refusal :=
  let u := useDist [(.d, d.toNat, 22), (.d, a.toNat, 19), (.v, v.toNat, 8), (.v, v.toNat + 1, 8)] [v.toNat, v.toNat + 1] []
  .next (if v.toNat % 2 = 1 then s.trapIll 5
    else s.condIssue u [a.toNat] (fun s =>
      (s.condTake (s.condOp (.aff d.toNat a.toNat (s.v v.toNat) (s.v (v.toNat + 1))) m)).finish u))

/-- DMAP (R304): a code above 10 is ILL reason 2. -/
def execDmap (d a : DIdx) (m : MIdx) (i : BitVec 4) (s : State) : Host.Outcome State Fault Refusal :=
  let u := useDist [(.d, d.toNat, 22), (.d, a.toNat, 19)] [] []
  .next (if 10 < i.toNat then s.trapIll 2
    else s.condIssue u [a.toNat] (fun s => (s.condTake (s.condOp (.map d.toNat a.toNat i.toNat) m)).finish u))

/-- DMIX (R305). -/
def execDmix (d a b : DIdx) (m : MIdx) (v : VIdx) (s : State) : Host.Outcome State Fault Refusal :=
  let u := useDist [(.d, d.toNat, 22), (.d, a.toNat, 19), (.d, b.toNat, 16), (.v, v.toNat, 8)] [v.toNat] []
  .next (s.condIssue u [a.toNat, b.toNat] (fun s =>
    (s.condTake (s.condOp (.mix d.toNat a.toNat b.toNat (s.v v.toNat)) m)).finish u))

/-- DTAG and DTAG.or (R306). -/
def State.distTag (s : State) (d a : DIdx) (t : BitVec 8) (or_ : Bool) : State :=
  let u := useDist [(.d, d.toNat, 22), (.d, a.toNat, 19)] [] []
  s.condIssue u [a.toNat] (fun s => (s.condTake (s.condOp (.tag d.toNat a.toNat t or_) 0#3)).finish u)

/-- DTAG (R306). -/
def execDtag (d a : DIdx) (h l : BitVec 4) (s : State) : Host.Outcome State Fault Refusal :=
  .next (s.distTag d a (h ++ l) false)
/-- DTAG.or (R306). -/
def execDtagOr (d a : DIdx) (h l : BitVec 4) (s : State) : Host.Outcome State Fault Refusal :=
  .next (s.distTag d a (h ++ l) true)

/-- The tag an operand gives (R296). -/
def tagOf (g : BitVec 4) : Byte := if g.getLsbD 3 then BitVec.ofNat 8 (2 ^ (g.toNat % 8)) else 0#8

/-- The three accesses of an image (R307). -/
def imageEls (a : Word) : List El := (List.range 3).map (fun j => { ea := a + BitVec.ofNat 64 (256 * j), size := 256 })

/-- DLD (R307): translated and checked at issue; the context waits as for its one outstanding load. -/
def execDld (d : DIdx) (m : MIdx) (g : BitVec 4) (s : State) : Host.Outcome State Fault Refusal :=
  let u := useDist [(.d, d.toNat, 22)] [] []
  .next (s.condIssue u [] (fun s =>
    let a := s.me.oxr 0
    if a.toNat % 256 ≠ 0 then s.trapAlign a 8
    else s.access .load .generic (imageEls a) (fun ps =>
      let o := { s.condOp (.ld d.toNat (tagOf g)) m with parts := ps, watch := s.me.watchRegs }
      ((s.condTake o).finish u).updCtx s.cur (fun x => { x with wait := .load }))))

/-- The bytes DST stores, as a watchpoint sees them: per active lane its values and its weights, of the image as it stands at issue, where
the rule checks a watchpoint (R308, R377; log entry 65). -/
def dstSeen (img : BitVec 6144) (a : Nat) (m : Half) : List Seen :=
  (List.range 16).flatMap (fun i =>
    if m.getLsbD i then
      [(true, a + 32 * i, 32, some (img.extractLsb' (256 * i) 256).toNat),
       (true, a + 512 + 16 * i, 16, some (img.extractLsb' (4096 + 128 * i) 128).toNat)]
    else [])

/-- The requests a DST posts: two for each active lane (R308, R354). -/
def dstCount (m : Half) : Nat := 2 * ((List.range 16).filter (fun i => m.getLsbD i)).length

/-- DST (R308): every part checked at issue; the context rejoins once the stores are posted. -/
def execDst (a : DIdx) (m : MIdx) (s : State) : Host.Outcome State Fault Refusal :=
  let u := useDist [(.d, a.toNat, 19)] [] []
  .next (s.condIssue u [a.toNat] (fun s =>
    let ea := s.me.oxr 0
    if ea.toNat % 256 ≠ 0 then s.trapAlign ea 8
    else s.accessSeen .store .generic (imageEls ea)
        (dstSeen (s.dReg s.cur a.toNat).img ea.toNat (s.m m)) (fun ps =>
      if !s.roomFor (dstCount (s.m m)) then s.waitFor (.posted (dstCount (s.m m)))
      else
        let o := { s.condOp (.st a.toNat) m with parts := ps }
        ((s.condTake o).finish u).updCtx s.cur (fun x => { x with wait := .dst }))))

/-- DFROMV (R309). -/
def execDfromv (d : DIdx) (m : MIdx) (v : VIdx) (g : BitVec 4) (s : State) : Host.Outcome State Fault Refusal :=
  let vs := (List.range 8).map (fun p => v.toNat + p)
  let u := useDist [(.d, d.toNat, 22), (.v, v.toNat, 8), (.v, v.toNat + 7, 8)] vs []
  .next (s.condIssue u [] (fun s =>
    (s.condTake (s.condOp (.fromv d.toNat (vs.map (fun i => s.v i)) (tagOf g)) m)).finish u))

/-- DDIRAC (R309). -/
def execDdirac (d : DIdx) (m : MIdx) (v : VIdx) (g : BitVec 4) (s : State) : Host.Outcome State Fault Refusal :=
  let u := useDist [(.d, d.toNat, 22), (.v, v.toNat, 8)] [v.toNat] []
  .next (s.condIssue u [] (fun s => (s.condTake (s.condOp (.dirac d.toNat (s.v v.toNat) (tagOf g)) m)).finish u))

/-- DMOM, DQNT and DCDF: presence producers (R297). -/
def State.distOut (s : State) (a : DIdx) (m : MIdx) (v : VIdx) (vsrc : List Nat) (k : State → CondKind) : State :=
  let u := useDist [(.d, a.toNat, 19), (.v, v.toNat, 8)] vsrc [v.toNat]
  s.condIssue u [a.toNat] (fun s => ((s.condTake (s.condOp (k s) m)).markV s.cur v.toNat .pending).finish u)

/-- DMOM (R310): k above 3 is ILL reason 2. -/
def execDmom (a : DIdx) (m : MIdx) (v : VIdx) (k : BitVec 4) (s : State) : Host.Outcome State Fault Refusal :=
  .next (if 3 < k.toNat then s.trapIll 2
    else s.distOut a m v [] (fun _ => .mom v.toNat a.toNat k.toNat))
/-- DQNT (R311). -/
def execDqnt (a : DIdx) (m : MIdx) (v : VIdx) (s : State) : Host.Outcome State Fault Refusal :=
  .next (s.distOut a m v [v.toNat] (fun s => .qnt v.toNat a.toNat (s.v v.toNat)))
/-- DCDF (R312). -/
def execDcdf (a : DIdx) (m : MIdx) (v : VIdx) (s : State) : Host.Outcome State Fault Refusal :=
  .next (s.distOut a m v [v.toNat] (fun s => .cdf v.toNat a.toNat (s.v v.toNat)))

/-! ## Start (R297) -/

/-- The distribution sources of an instruction. -/
def CondKind.sources : CondKind → Nat × Nat
  | .bin _ _ a b => (a, b)
  | .aff _ a _ _ => (a, a)
  | .map _ a _ => (a, a)
  | .mix _ a b _ => (a, b)
  | .tag _ a _ _ => (a, a)
  | .st a => (a, a)
  | .mom _ a _ => (a, a)
  | .qnt _ a _ => (a, a)
  | .cdf _ a _ => (a, a)
  | _ => (0, 0)

/-- A place some bytes on. -/
def Loc.plus : Loc → Nat → Loc
  | .cell k, n => .cell (k + n)
  | .local c o, n => .local c (o + n)
  | .priv c o, n => .priv c (o + n)
  | .owned c o, n => .owned c (o + n)
  | .remote k o, n => .remote k (o + n)
  | .accepted k o, n => .accepted k (o + n)

/-- Bytes at an offset of an image, as a part of the access that covers them. -/
def imagePart (ps : List Part) (off : Nat) (bs : List Byte) : Part :=
  let p := ps.getD (off / 256) { addr := 0, loc := .cell 0, size := 0 }
  { addr := p.addr + off % 256, loc := p.loc.plus (off % 256), size := bs.length, data := bs, elem := off / 256 }

/-- The stores of a DST: for each active lane its 32 value bytes and its 16 weight bytes (R308). -/
def dstParts (o : CondOp) (img : BitVec 6144) : List Part :=
  (List.range 16).flatMap (fun i =>
    if o.mask.getLsbD i then
      let l := laneOf img i
      [imagePart o.parts (32 * i) (l.flatMap (fun x => leBytes 4 x.1)),
       imagePart o.parts (512 + 16 * i) (l.flatMap (fun x => leBytes 2 x.2))]
    else [])

/-- A message of a condenser instruction. -/
def CondOp.msg_ (o : CondOp) (k : MsgKind) (seen : Clock) : Msg :=
  { id := 0, src := o.ctx, epoch := o.epoch, pc := o.pc, job := o.job, prog := o.prog, kind := k, seen := seen }

/-- A DST starts: its stores are posted and the context rejoins (R308). -/
def State.dstStart (s : State) (o : CondOp) (img : BitVec 6144) : State :=
  let c := s.cur
  let ps := dstParts o img
  let n := ps.length
  let s := { s with cur := o.ctx }
  let s := if n = 0 then s
    else
      let r := s.stamped { o.msg_ .store (s.clockOf o.ctx) with parts := ps, posted := n }
      (r.1.send r.2 .memoryRequestAtHome).post n
  { (s.updCtx o.ctx (fun x => if x.epoch = o.epoch then { x with wait := .none } else x)) with cur := c }

/-- The instruction at the head of a condenser starts: it reads its distribution sources (R297). -/
def State.condStart (s : State) (core : Nat) : State :=
  match (s.core core).condQ with
  | [] => s
  | o :: r =>
    if o.started then s
    else
      let src := o.kind.sources
      let o := { o with started := true, srcA := s.dReg o.ctx src.1, srcB := s.dReg o.ctx src.2, msg := s.nextId }
      let s := s.updCore core (fun k => { k with condQ := o :: r })
      match o.kind with
      | .ld d tag =>
        s.send { o.msg_ .load (s.clockOf o.ctx) with watch := o.watch, parts := o.parts, dest := .dist d o.mask tag, waits := true } .memoryRequestAtHome
      | .st _ => (s.dstStart o o.srcA.img).due (.condenserOpEnd core)
      | _ => s.due (.condenserOpEnd core)

/-- CONDENSER_OP_START (R297). -/
def execCondenserOpStart (core : Nat) (s : State) : Host.Outcome State Fault Refusal := .next (s.condStart core)

/-! ## End (R295, R297, R299) -/

/-- An image under a mask: active lanes computed, the others kept (R295); the flags of each lane. -/
def maskedLanes (old : BitVec 6144) (m : Half) (f : Nat → DLane × Flags) : BitVec 6144 × List Flags :=
  let ls := (List.range 16).map (fun i =>
    if m.getLsbD i then let r := f i; (fixLane r.1, r.2) else (laneOf old i, 0#5))
  (imageOf (ls.map (·.1)), ls.map (·.2))

/-- The granules of an image that the active lanes fill: per lane 32 bytes of values and 16 bytes of weights (R296, R371, R373). -/
def laneGranules (m : Half) : BitVec 96 :=
  BitVec.ofNat 96 (packElems 1 ((List.range 96).map (fun j =>
    if m.getLsbD (if j < 64 then j / 4 else (j - 64) / 2) then 1 else 0)))

/-- A write of a distribution register whose active lanes are m: the other lanes are written back, so that their poison stays (R373). -/
def State.putD (s : State) (c d : Nat) (img : BitVec 6144) (tag : Byte) (m : Half) : State :=
  s.setDReg c d { img := img, tag := tag, poison := (s.dReg c d).poison &&& ~~~laneGranules m }

/-- The lanes an instruction writes of a distribution destination: DTAG writes every lane (R306). -/
def CondOp.lanes (o : CondOp) : Half := match o.kind with | .tag .. => 0xFFFF#16 | _ => o.mask

/-- Lane i of a vector register. -/
def vlane (v : VWord) (i : Nat) : Nat := (v.extractLsb' (32 * i) 32).toNat

/-- What an instruction with a distribution destination writes: the destination, the image, the tag, the flags of the lanes (R300 to
R309). -/
def State.condResult (s : State) (o : CondOp) : Option (Nat × BitVec 6144 × Byte × List Flags) :=
  let x := o.srcA
  let y := o.srcB
  let put (d : Nat) (tag : Byte) (f : Nat → DLane × Flags) : Option (Nat × BitVec 6144 × Byte × List Flags) :=
    let r := maskedLanes (s.dReg o.ctx d).img o.mask f
    some (d, r.1, tag, r.2)
  match o.kind with
  | .bin fn d _ _ => put d (x.tag ||| y.tag) (fun i => pairLane fn (x.tag &&& y.tag != 0#8) (laneOf x.img i) (laneOf y.img i))
  | .aff d _ a b => put d x.tag (fun i => affLane (vlane a i) (vlane b i) (laneOf x.img i))
  | .map d _ f => put d x.tag (fun i => mapLane f (laneOf x.img i))
  | .mix d _ _ p => put d (x.tag ||| y.tag) (fun i => mixLane (vlane p i) (laneOf x.img i) (laneOf y.img i))
  | .tag d _ t or_ => some (d, (maskedLanes x.img 0xFFFF#16 (fun i => (laneOf x.img i, 0#5))).1, if or_ then x.tag ||| t else t, [])
  | .fromv d vs t => put d t (fun i => valuesLane (vs.map (fun v => vlane v i)))
  | .dirac d v t => put d t (fun i => valuesLane (List.replicate 8 (vlane v i)))
  | _ => none

/-- What an instruction with a vector destination gives each lane; none where the spec gives no result (R310 to R312). -/
def CondOp.outLane (o : CondOp) (i : Nat) : Option Nat × Flags :=
  let l := laneOf o.srcA.img i
  match o.kind with
  | .mom _ _ k => let r := momentOf k l; (some r.1, r.2)
  | .qnt _ _ p => quantileOf (vlane p i) l
  | .cdf _ _ x => let r := cdfOf (vlane x i) l; (some r.1, r.2)
  | _ => (some 0, 0#5)

/-- The vector destination of an instruction. -/
def CondKind.vdest : CondKind → Option Nat
  | .mom v _ _ => some v | .qnt v _ _ => some v | .cdf v _ _ => some v | _ => none

/-- The flags of an instruction that ends are ORed, or an enabled exception is pending as an attributed-imprecise FPX (R136, R299). -/
def State.condFlags (s : State) (o : CondOp) (fls : List Flags) : State :=
  let fl := fls.foldl (fun a f => a ||| f) 0#5
  let en := enabledFlags o.fpctl fl
  if en = 0#5 then s.raiseFor o.ctx o.epoch fl
  else
    let lanes := bitsNat (fun i => enabledFlags o.fpctl (fls.getD i 0#5) != 0#5) 16
    s.pendTrap (o.msg_ .result {}) ⟨true, causeFPX, o.pc, 0#64, BitVec.ofNat 64 (en.toNat + lanes * 32)⟩

/-- A vector result lands (R297): a cancelled one is discarded, the register present (R298, R50). -/
def State.condVector (s : State) (o : CondOp) (v : Nat) : State :=
  let rs := (List.range 16).map (fun i => if o.mask.getLsbD i then o.outLane i else (some 0, 0#5))
  let short := rs.any (fun r => r.1.isNone)
  let old := (s.vReg o.ctx v).val
  let vals := (List.range 16).map (fun i =>
    if o.mask.getLsbD i then
      (match (rs.getD i (none, 0#5)).1 with
        | some x => x
        | none => (Config.freeValue (s.freeIdx + i)).toNat % 2 ^ 32)
    else vlane old i)
  let s := if short then { s with freeIdx := s.freeIdx + 16 } else s
  let s := s.landV { o.msg_ .result {} with drop := o.abort } v (BitVec.ofNat 512 (leNat (vals.flatMap (fun x => leBytes 4 x)))) o.mask
  s.condFlags o (rs.map (·.2))

/-- The image a DLD has read goes to its register (R307): made sure of lane by lane, the tag set. -/
def State.dldLands (s : State) (m : Msg) (d : Nat) (mask : Half) (tag : Byte) : State :=
  let img : BitVec 6144 := BitVec.ofNat 6144 (leNat (m.parts.flatMap (·.data)))
  let r := maskedLanes (s.dReg m.src d).img mask (fun i => (laneOf img i, 0#5))
  s.putD m.src d r.1 tag mask

/-- A DLD ends (R307, R298): its image lands and its context rejoins, it traps, or its values are dropped. -/
def State.dldEnd (s : State) (o : CondOp) : State :=
  match s.message o.msg with
  | none => s
  | some m =>
    match m.refusal with
    | some t => s.refusal m t
    | none =>
      let s' := if s.live m && !m.drop then (match m.dest with | .dist d mask tag => s.dldLands m d mask tag | _ => s) else s
      s'.landing m

/-- The cycles an instruction runs for, the steps its program's energy estimate counts (R297, R409; log entry 7); of a load or store without
the access. -/
def CondOp.cycles (o : CondOp) : Nat :=
  match o.kind with
  | .bin _ _ _ _ => if o.srcA.tag &&& o.srcB.tag = 0#8 then 64 else 4
  | .mix _ _ _ _ => 24
  | .aff _ _ _ _ => 8
  | .map _ _ f => if f < 7 then 16 else 8
  | .tag _ _ _ _ | .fromv _ _ _ | .dirac _ _ _ => 2
  | .mom _ _ _ => 16
  | .qnt _ _ _ | .cdf _ _ _ => 8
  | .ld _ _ | .st _ => 4

/-- CONDENSER_OP_END (R297): the started instruction writes its destination and ends; the next starts. -/
def State.condEnd (s : State) (core : Nat) : State :=
  match (s.core core).condQ with
  | [] => s
  | o :: r =>
    if !o.started then s
    else
      let s := match o.kind with
        | .ld _ _ => s.dldEnd o
        | _ =>
          match o.kind.vdest with
          | some v => s.condVector o v
          | none => match s.condResult o with
            | some (d, img, tag, fls) => (s.putD o.ctx d img tag o.lanes).condFlags o fls
            | none => s
      let s := (s.updCore core (fun k => { k with condQ := r })).count (pkgOf o.ctx) o.prog 201 o.cycles
      if r = [] then s else s.due (.condenserOpStart core)

/-- CONDENSER_OP_END (R297). -/
def execCondenserOpEnd (core : Nat) (s : State) : Host.Outcome State Fault Refusal := .next (s.condEnd core)

end Sys2Proof.Machine
end

