-- ==== Sys2Proof/Machine/Feeder.lean ====
section
/-! DEFINITION. The galley's feeder (spec/12_isa_engines.md R269 to R277; R229, R294): copies, their bound barriers, and
bindings of record queues. -/

namespace Sys2Proof.Machine

/-! ## Slots (R269) -/

/-- The slots a feeder has. -/
def feederSlots : Nat := 8

/-- Those who wait for a slot of galley g: each still at its instruction. -/
def State.feedWaiters (s : State) (g : Nat) : List (Nat × Nat × Word) :=
  (s.galley g).feedWait.filter (fun w => s.running w.1 && (s.ctx w.1).epoch == w.2.1 && (s.ctx w.1).pc == w.2.2)

/-- Whether the current context may take a slot: fewer wait before it than slots are free (R269). -/
def State.feederOpen (s : State) : Bool :=
  let g := galOf s.cur
  let ahead := (s.feedWaiters g).takeWhile (fun w => w.1 != s.cur)
  decide (ahead.length + (s.galley g).feeder.length < feederSlots)

/-- The current context waits for a slot, in the order in which each first failed to issue (R269). -/
def State.feederFull (s : State) : State :=
  let g := galOf s.cur
  let ws := s.feedWaiters g
  let ws := if ws.any (fun w => w.1 == s.cur) then ws else ws ++ [(s.cur, s.me.epoch, s.me.pc)]
  (s.updGal g (fun x => { x with feedWait := ws })).unitBusy

/-- The lowest free slot. -/
def Galley.freeFeeder (g : Galley) : Nat :=
  ((List.range feederSlots).find? (fun i => (Map.find g.feeder i).isNone)).getD 0

/-- What a FEEDOP instruction samples at issue (R134, R160, R270). -/
def State.feedOp (s : State) (t : GIdx) (a b : GIdx) (k : FeedKind) : FeedOp :=
  let x := s.me
  { ctx := s.cur, epoch := x.epoch, pc := x.pc, job := x.job, prog := x.program, tok := t.toNat, kind := k,
    dst := s.g a.toNat, src := s.g b.toNat, x0 := x.oxr 0, x1 := x.oxr 1, x2 := x.oxr 2, x3 := x.oxr 3, x4 := x.oxr 4,
    x7 := x.oxr 7, fpctl := x.ctl.fpctl, clock := s.clockOf s.cur, seq := s.nextId, first := s.nextId, time := (s.pkg (pkgOf s.cur)).time }

/-- A FEEDOP instruction: a slot, the token pending, and the event that is due for the slot (R268, R269). -/
def State.feederIssue (s : State) (t a b : GIdx) (kind : State → FeedKind) (ev : Nat → Nat → Instr) : State :=
  let u := useX t a b
  s.withToken u t.toNat (fun s =>
    if !s.feederOpen then s.feederFull
    else
      let g := galOf s.cur
      let i := (s.galley g).freeFeeder
      let o := s.feedOp t a b (kind s)
      let ws := (s.feedWaiters g).filter (fun w => w.1 != s.cur)
      let s := s.updGal g (fun x => { x with feeder := Map.set x.feeder i o, feedWait := ws })
      (((s.markG s.cur t.toNat .pending).due (ev g i))).finish u)

/-- FEED (R273). -/
def execFeed (t a b : GIdx) (s : State) : Host.Outcome State Fault Refusal :=
  .next (s.feederIssue t a b (fun _ => .copy 0) .feedCopyEnd)
/-- FEEDX (R274). -/
def execFeedx (t a b : GIdx) (s : State) : Host.Outcome State Fault Refusal :=
  .next (s.feederIssue t a b (fun _ => .copy 1) .feedCopyEnd)
/-- FEEDQZ (R275). -/
def execFeedqz (t a b : GIdx) (s : State) : Host.Outcome State Fault Refusal :=
  .next (s.feederIssue t a b (fun _ => .copy 2) .feedCopyEnd)
/-- FEEDT (R276). -/
def execFeedt (t a b : GIdx) (s : State) : Host.Outcome State Fault Refusal :=
  .next (s.feederIssue t a b (fun _ => .copy 3) .feedCopyEnd)
/-- FEEDQ (R277): the output is none when field b is 0. -/
def execFeedq (t a b : GIdx) (s : State) : Host.Outcome State Fault Refusal :=
  .next (s.feederIssue t a b (fun s =>
    .bind (s.me.qkey ((s.g a.toNat).toNat % 65536))
      (if b = 0#7 then none else some (s.me.qkey ((s.g b.toNat).toNat % 65536)))) .feedqEntry)

/-! ## What a copy is asked for (R270, R273 to R276) -/

/-- The operands of a copy or of a request of a binding. -/
structure FeedArgs where
  fn  : Nat
  dst : Nat
  src : Nat
  x0  : Nat
  x1  : Nat
  x2  : Nat
  x3  : Nat
  x4  : Nat
  deriving DecidableEq, Repr

/-- The ranges a copy reads and writes. -/
structure FeedPlan where
  srcs : List (Nat × Nat)
  dsts : List (Nat × Nat)
  deriving DecidableEq, Repr

/-- Element bytes of BF16 or binary32 by bit 0 of ox1 (R274, R275). -/
def FeedArgs.wide (r : FeedArgs) : Nat := if r.x1 % 2 = 1 then 4 else 2
/-- Element bytes of FEEDT (R276). -/
def FeedArgs.elem (r : FeedArgs) : Nat := if r.x1 % 2 = 1 then 1 else 2
/-- Rows of FEEDT. -/
def FeedArgs.rows (r : FeedArgs) : Nat := r.x0 % 2 ^ 24
/-- Columns of FEEDT. -/
def FeedArgs.cols (r : FeedArgs) : Nat := r.x0 / 2 ^ 24 % 2 ^ 24

/-- The ranges of a copy, or none where its operands are malformed: token −7 (R270, R274 to R276). -/
def FeedArgs.plan (r : FeedArgs) : Option FeedPlan :=
  let n := r.x0
  match r.fn with
  | 0 => if 2 ^ 40 ≤ r.x0 then none else some ⟨[(r.src, n)], [(r.dst, n)]⟩
  | 1 =>
    if 2 ^ 40 ≤ r.x0 ∨ 4 ≤ r.x1 ∨ 2 ^ 32 ≤ r.x4 ∨ n % 32 ≠ 0 ∨ r.dst % r.wide ≠ 0 ∨ r.x2 % 2 ≠ 0 then none
    else some ⟨[(r.src, n), (r.x2, n / 16)], [(r.dst, n * r.wide)]⟩
  | 2 =>
    if 2 ^ 40 ≤ r.x0 ∨ 2 ≤ r.x1 ∨ n % 32 ≠ 0 ∨ r.src % r.wide ≠ 0 ∨ r.x2 % 2 ≠ 0 then none
    else some ⟨[(r.src, n * r.wide)], [(r.dst, n), (r.x2, n / 16)]⟩
  | 3 =>
    let e := r.elem
    if 2 ^ 48 ≤ r.x0 ∨ 2 ≤ r.x1 ∨ r.rows = 0 ∨ r.cols = 0 ∨ r.rows % 16 ≠ 0 ∨ r.cols % 32 ≠ 0 ∨ r.x2 < r.cols * e ∨
        r.dst % e ≠ 0 ∨ r.src % e ≠ 0 ∨ r.x2 % e ≠ 0 ∨ (r.x3 ≠ 0 ∧ (e ≠ 1 ∨ r.x3 % 2 ≠ 0 ∨ r.x4 % 2 ≠ 0)) then none
    else
      let sc := 2 * r.rows * (r.cols / 32)
      some ⟨(List.range r.rows).map (fun i => (r.src + i * r.x2, r.cols * e)) ++ (if r.x3 = 0 then [] else [(r.x3, sc)]),
        (r.dst, r.rows * r.cols * e) :: (if r.x3 = 0 then [] else [(r.x4, sc)])⟩
  | _ => none

/-! ## The copies (R273 to R276) -/

/-- FEED from byte i on, n bytes to go (R273). -/
def State.feedBytes (s : State) (w : Agent) (a b : Nat) : Nat → Nat → Copy → Copy
  | _, 0, x => x
  | i, n + 1, x =>
    if x.over then x
    else
      let r := s.engRead w (b + i) 1 x
      s.feedBytes w a b (i + 1) n (s.engWrite w (a + i) r.1 r.2)

/-- The value FEEDX writes: M8Value(c) × s, × f when it folds (R274); its flags. -/
def feedxValue (c sc : Nat) (fold : Option Nat) : FVal × Flags :=
  let r := m8Scaled c (fmt16.decode sc)
  match fold with
  | none => r
  | some f =>
    let y := fmt32.decode f
    match y with
    | .fin .. => if c % 256 = 0 && !r.1.isNan then (.fin false 0 1, r.2) else ((r.1.mul y).1, r.2 ||| (r.1.mul y).2)
    | _ => ((r.1.mul y).1, r.2 ||| (r.1.mul y).2)

/-- FEEDX from element j on (R274). -/
def State.feedxElems (s : State) (w : Agent) (r : FeedArgs) (mode : RMode) : Nat → Nat → Copy → Copy
  | _, 0, x => x
  | j, n + 1, x =>
    if x.over then x
    else
      let c := s.engRead w (r.src + j) 1 x
      let sc := s.engRead w (r.x2 + 2 * (j / 32)) 2 c.2
      let v := feedxValue (leNat c.1) (leNat sc.1) (if r.x1 / 2 % 2 = 1 then some r.x4 else none)
      let y := (if r.wide = 2 then fmt16 else fmt32).fin2 mode v
      let z := if sc.2.over then sc.2 else { sc.2 with flags := sc.2.flags ||| y.2 }
      s.feedxElems w r mode (j + 1) n (s.engWrite w (r.dst + r.wide * j) (leBytes r.wide y.1) z)

/-- The 32 values of a block read for FEEDQZ (R275). -/
def State.readBlock (s : State) (w : Agent) (a e : Nat) : Nat → Copy → List FVal × Copy
  | 0, x => ([], x)
  | n + 1, x =>
    let r := s.engRead w a e x
    let t := s.readBlock w (a + e) e n r.2
    ((if e = 2 then fmt16 else fmt32).decode (leNat r.1) :: t.1, t.2)

/-- Bytes written one by one from address a. -/
def State.engWriteEach (s : State) (w : Agent) : Nat → List Byte → Copy → Copy
  | _, [], x => x
  | a, b :: r, x => s.engWriteEach w (a + 1) r (s.engWrite w a [b] x)

/-- FEEDQZ from block b on (R140, R275). -/
def State.feedqzBlocks (s : State) (w : Agent) (r : FeedArgs) : Nat → Nat → Copy → Copy
  | _, 0, x => x
  | b, n + 1, x =>
    if x.over then x
    else
      let v := s.readBlock w (r.src + 32 * r.wide * b) r.wide 32 x
      if v.2.over then v.2
      else
        let sc := blockScale v.1
        let cs := v.1.map (fun y => quantM8 y sc)
        let y := { v.2 with flags := cs.foldl (fun f c => f ||| c.2) v.2.flags }
        let y := s.engWriteEach w (r.dst + 32 * b) (cs.map (fun c => BitVec.ofNat 8 c.1)) y
        s.feedqzBlocks w r (b + 1) n (s.engWrite w (r.x2 + 2 * b) (leBytes 2 sc) y)

/-- FEEDT from element m of the destination on, in tile order (R276). -/
def State.feedtElems (s : State) (w : Agent) (r : FeedArgs) : Nat → Nat → Copy → Copy
  | _, 0, x => x
  | m, n + 1, x =>
    if x.over then x
    else
      let e := r.elem
      let ns := r.cols / 32
      let tile := m / 512
      let row := 16 * (tile / ns) + m % 512 / 32
      let j := m % 32
      let v := s.engRead w (r.src + row * r.x2 + (32 * (tile % ns) + j) * e) e x
      let x := s.engWrite w (r.dst + m * e) v.1 v.2
      let x := if r.x3 ≠ 0 ∧ j = 0 then
          let v := s.engRead w (r.x3 + 2 * (row * ns + tile % ns)) 2 x
          s.engWrite w (r.x4 + 2 * (16 * tile + m % 512 / 32)) v.1 v.2
        else x
      s.feedtElems w r (m + 1) n x

/-- The body of a copy with well-formed operands. -/
def State.feedBody (s : State) (w : Agent) (r : FeedArgs) (mode : RMode) : Copy :=
  match r.fn with
  | 0 => s.feedBytes w r.dst r.src 0 r.x0 {}
  | 1 => s.feedxElems w r mode 0 r.x0 {}
  | 2 => s.feedqzBlocks w r 0 (r.x0 / 32) {}
  | _ => s.feedtElems w r 0 (r.rows * r.cols) {}

/-- A copy as it would run now: −7 for malformed operands or an overlap, before any write (R270, R272). -/
def State.feedRun (s : State) (w : Agent) (r : FeedArgs) (mode : RMode) : Copy :=
  match r.plan with
  | none => { stop := some (-7) }
  | some p =>
    let a := s.spansOf w .load p.srcs
    let b := s.spansOf w .store p.dsts
    match a.miss, b.miss with
    | some x, _ => { miss := some x }
    | none, some x => { miss := some x }
    | none, none => if sharesByte a.cells b.cells then { stop := some (-7) } else s.feedBody w r mode

/-- The destination ranges of a copy. -/
def FeedArgs.dests (r : FeedArgs) : List (Nat × Nat) := match r.plan with | some p => p.dsts | none => []

/-! ## Bound barriers (R229, R271) -/

/-- What ox7 of a copy binds. -/
inductive Bound
  | none
  | barrier (k : Nat)
  | code (c : Int)
  | miss (g space va : Nat)
  deriving DecidableEq, Repr

/-- A generic address names something that is no bank memory, by itself or through a remote key: another space, or a page that maps other
memory (R271). -/
def State.notBankAddr (s : State) (w : Agent) (a : Nat) : Bool :=
  match s.genericTarget w.ctx w.job .atomic a with
  | .bad _ _ => true
  | .virt sp va => decide (65536 ≤ sp) || (match s.walkCell (pkgOf w.ctx) sp va with | some r => !isBank r.1 | none => false)
  | .place (.remote key off) =>
    (match Map.find (s.pkg (key / 2 ^ 26)).keys (key % 2 ^ 26) with
      | none => false
      | some e =>
        let b := e.base.toNat % 2 ^ 56 + off
        decide (b / 2 ^ 54 ≠ 0) || (match s.walkCell (key / 2 ^ 26) e.job.toNat b with | some r => !isBank r.1 | none => false))
  | .place _ => true

/-- The barrier a copy is bound to: checked before any access (R271). -/
def State.boundTo (s : State) (w : Agent) (x7 : Word) : Bound :=
  if !x7.getLsbD 63 then .none
  else
    let a := x7.toNat % 2 ^ 56
    if 6 ≤ x7.toNat / 2 ^ 60 % 8 ∨ x7.toNat / 2 ^ 56 % 16 ≠ 0 ∨ a % 16 ≠ 0 ∨ s.notBankAddr w a = true then .code (-7)
    else match s.engineAt w .atomic a 16 with
      | .cell k => if isBank k then .barrier k else .code (-7)
      | .code c => .code c
      | .miss g sp va => .miss g sp va

/-- The scope of the arrival (R271). -/
def boundScope (x7 : Word) : Scope :=
  if !x7.getLsbD 63 then .ctx
  else match x7.toNat / 2 ^ 60 % 8 with | 0 => .ctx | 1 => .core | 2 => .gal | 3 => .die | 4 => .pkg | _ => .sys

/-- A barrier's 16 bytes written by a feeder copy with its stamp. -/
def State.putBarrier (s : State) (k : Nat) (b : Bar) (c : Clock) : State :=
  (s.setBytes k b.bytes).setStamp k 16 ((s.stampAt k 16).merge c)

/-- A copy that ends with a code acts at its barrier (R229, R227): one arrival, or the poison with the code and the issuer; the
token's code. -/
def State.boundAct (s : State) (k c : Nat) (code : Int) (stamp : Clock) : State × Int :=
  let s := s.judgeBar k
  let b := s.barAt k
  if b.expected = 0 then (s, if code = 0 then -7 else code)
  else if code = 0 then
    if b.poison then (s, 0)
    else
      let r := b.arrive
      let s := s.putBarrier k r.1 stamp
      (if r.2 then s.release k r.1.phase (fun _ => some 0) (s.barWaiters k) else s, 0)
  else if b.poison then (s, code)
  else
    let b' := { b with poison := true, dw1 := (BitVec.ofInt 32 code).toNat * 2 ^ 32 + c % 2 ^ 22 }
    let s := s.putBarrier k b' stamp
    (s.release k b'.phase (fun _ => some 1) (s.barWaiters k), code)

/-! ## The end of a copy (R272, R294) -/

/-- The operation for whom a copy accesses memory. -/
def FeedOp.agent (o : FeedOp) : Agent := { ctx := o.ctx, job := o.job, seq := o.seq, refused := o.refused }

/-- The operands of a copy as sampled (R270). -/
def FeedOp.args (o : FeedOp) : FeedArgs :=
  { fn := (match o.kind with | .copy n => n | .bind .. => 4), dst := o.dst.toNat, src := o.src.toNat, x0 := o.x0.toNat,
    x1 := o.x1.toNat, x2 := o.x2.toNat, x3 := o.x3.toNat, x4 := o.x4.toNat }

/-- A prefix of the writes of a cancelled copy (R294): any that ends on a 64-byte boundary of the destination or at the copy's
end, chosen by a free value. -/
def cutAt (free : Nat) (ws : List (Nat × Nat × List Byte)) : List (Nat × Nat × List Byte) :=
  let ends := (List.range (ws.length + 1)).filter (fun m =>
    m == 0 || m == ws.length || (match ws[m - 1]? with | some w => (w.1 + w.2.2.length) % 64 == 0 | none => false))
  ws.take (ends.getD (free % ends.length) 0)

/-- The writes of a copy that may be applied, in order, and its code: all of them, or a prefix when it was cancelled. -/
def State.outcome (s : State) (abort : Bool) (x : Copy) : State × List (Nat × Nat × List Byte) × Int :=
  if abort then
    let f := s.free
    (f.2, cutAt f.1.toNat x.writes.reverse, -6)
  else (s, x.writes.reverse, x.stop.getD 0)

/-- Slot i of galley g holds another operation. -/
def State.setSlot (s : State) (g i : Nat) (o : FeedOp) : State :=
  s.updGal g (fun x => { x with feeder := Map.set x.feeder i o })

/-- Slot i of galley g is free (R269); the run of the operation's program is looked at again (R54). -/
def State.endSlot (s : State) (g i : Nat) (o : FeedOp) : State :=
  (s.updGal g (fun x => { x with feeder := Map.del x.feeder i })).checkRunOf o.prog.toNat

/-- The bytes some writes move. -/
def movedBytes (ws : List (Nat × Nat × List Byte)) : Nat := ws.foldl (fun n w => n + w.2.2.length) 0

/-- The end of a copy whose barrier stands as `bar`: its writes, its shadows, its barrier, its token (R272). -/
def State.copyEnds (s : State) (g i : Nat) (o : FeedOp) (bar : Option Nat) (x : Copy) : State :=
  let r := s.outcome o.abort x
  let p := (r.1.count (g / 128) o.prog 202 (movedBytes r.2.1)).putAll (dieOfGal g) (o.clock.merge x.stamp) r.2.1
  let b := match bar with
    | some k => p.1.boundAct k o.ctx r.2.2 p.2
    | none => (p.1, r.2.2)
  let s := b.1.markShadows (g / 128) o.job o.args.dests b.2
  (s.landToken o.ctx o.epoch o.tok b.2 x.flags p.2).endSlot g i o

/-- FEED_COPY_END (R272): the copy in slot i of galley g's feeder runs and ends, or waits for a page (R269). -/
def State.copyEnd (s : State) (g i : Nat) (o : FeedOp) : State :=
  let again (x : Nat × Nat × Nat) : State :=
    ((s.engineMiss x).setSlot g i { o with wait := some (onPkg (x.1 / 128) x.2.1, x.2.2 / 65536) }).due (.feedCopyEnd g i)
  match s.boundTo o.agent o.x7 with
  | .code c => s.copyEnds g i o none { stop := some c }
  | .miss g' sp va => if o.abort then s.copyEnds g i o none {} else again (g', sp, va)
  | .none =>
    let x := s.feedRun o.agent o.args (modeOf o.fpctl)
    (match x.miss with
      | some m => if o.abort then s.copyEnds g i o none x else again m
      | none => s.copyEnds g i o none x)
  | .barrier k =>
    let x := s.feedRun o.agent o.args (modeOf o.fpctl)
    (match x.miss with
      | some m => if o.abort then s.copyEnds g i o (some k) x else again m
      | none => s.copyEnds g i o (some k) x)

/-- FEED_COPY_END (R272). -/
def execFeedCopyEnd (g i : Nat) (s : State) : Host.Outcome State Fault Refusal :=
  .next (match Map.find (s.galley g).feeder i with
    | some o => s.copyEnd g i o
    | none => s)

/-- The page an operation misses is one it already waits for, and still awaited (R269). -/
def State.stillAwaited (s : State) (o : FeedOp) (x : Option (Nat × Nat × Nat)) : Bool :=
  o.wait == x.map (fun m => (onPkg (m.1 / 128) m.2.1, m.2.2 / 65536)) && s.missAwaited x

/-- A transfer of an operation may take place: no page it needs is awaited, unless a cancel stops it there; the stores before it to what it reads are applied, the
homes it writes to know what went before, an access to another package what a release at system scope has ordered, and no publish issued
before it is still to come (R105, R110, R119, R420). -/
def State.transferReady (s : State) (o : FeedOp) (r : FeedArgs) (x : Copy) : Bool :=
  (o.abort || !s.stillAwaited o x.miss) && s.readsClear (coreOf o.ctx) o.seq x.reads &&
  s.writesClear (pkgOf o.ctx) (o.clock.merge x.stamp) (x.writes.map (fun w => w.2.1)) &&
  s.farClear o.ctx o.first (x.reads.map (·.1) ++ x.writes.map (fun w => w.2.1)) &&
  !s.publishAhead (pkgOf o.ctx) o.job o.seq r.dests

/-- The arrival of a copy at its barrier may be made: what its issuer and what it read came after is applied, and the stores of its
core to the barrier are (R110, R116, R119). -/
def State.arrivalReady (s : State) (o : FeedOp) (x : Copy) : Bool :=
  match s.boundTo o.agent o.x7 with
  | .barrier k =>
    s.writesClear (pkgOf o.ctx) (o.clock.merge x.stamp) [k] && s.readsClear (coreOf o.ctx) o.seq [(k, 16)] && s.farClear o.ctx o.first [k]
  | _ => true

/-- FEED_COPY_END may happen. -/
def State.copyReady (s : State) (g i : Nat) : Bool :=
  match Map.find (s.galley g).feeder i with
  | none => true
  | some o =>
    let x := s.feedRun o.agent o.args (modeOf o.fpctl)
    (o.abort || !s.stillAwaited o (match s.boundTo o.agent o.x7 with | .miss a b c => some (a, b, c) | _ => none)) &&
      s.fenceBefore o.ctx (boundScope o.x7) o.seq && s.transferReady o o.args x && s.arrivalReady o x

/-! ## Bindings (R277) -/

/-- The operands of a request record (R277), and its tag; none for a malformed one. -/
def requestOf (v : BitVec 512) : Option FeedArgs :=
  let n := v.toNat
  let dw (i : Nat) : Nat := n / 2 ^ (64 * i) % 2 ^ 64
  let op := n % 256
  if 4 ≤ op ∨ n / 2 ^ 8 % 2 ^ 8 ≠ 0 ∨ n / 2 ^ 32 % 2 ^ 32 ≠ 0 then none
  else some ⟨op, dw 1, dw 2, dw 3, dw 4, dw 5, dw 6, dw 7⟩

/-- The tag of a request record. -/
def requestTag (v : BitVec 512) : Nat := v.toNat / 2 ^ 16 % 2 ^ 16

/-- A completion record (R277). -/
def completionRecord (tag : Nat) (code : Int) : BitVec 512 :=
  BitVec.ofNat 512 (tag % 2 ^ 16 * 2 ^ 16 + (codeWord code).toNat * 2 ^ 64)

/-- A push of a binding to its output; a full queue keeps it waiting at the home, and the binding with it (R277). -/
def State.bindPush (s : State) (g i : Nat) (o : FeedOp) (q : Nat) (e : QEntry) : State :=
  let m : Msg := { id := s.nextId, src := o.ctx, epoch := o.epoch, pc := o.pc, job := o.job, prog := o.prog,
                   kind := .push q { e with prog := o.prog }, host := true, seen := e.stamp }
  let s := ({ s with net := s.net ++ [m], nextId := s.nextId + 1 }).pushAtHome m q { e with prog := o.prog }
  s.setSlot g i { o with push := some m.id }

/-- A push of a binding that has an output. -/
def State.bindOut (s : State) (g i : Nat) (o : FeedOp) (out : Option Nat) (e : QEntry) : State :=
  match out with
  | none => s.setSlot g i o
  | some q => s.bindPush g i o q e

/-- A binding ends: its token lands (R277); with 0 it has met its colophon (R54). -/
def State.bindEnds (s : State) (g i : Nat) (o : FeedOp) (code : Int) : State :=
  let s := s.landToken o.ctx o.epoch o.tok code 0#5 o.stamp
  (if code = 0 then s.updLoaded o.prog (fun x => { x with fed := true }) else s).endSlot g i o

/-- The queues a binding names are as they must be: record queues, the program a consumer of the input and a producer of the
output (R277). -/
def State.bindValid (s : State) (o : FeedOp) (inq : Nat) (out : Option Nat) : Bool :=
  let ok (q : Nat) : Bool := q % 65536 != 0 && (s.queue q).valid && (s.queue q).etype == 2#2
  ok inq && (s.queue inq).consumedBy o.prog &&
    (match out with | none => true | some q => ok q && (s.queue q).producers.contains (o.prog.setWidth 16))

/-- The queues a binding names are resident. -/
def State.bindResident (s : State) (inq : Nat) (out : Option Nat) : Bool :=
  (s.queue inq).resident && (match out with | none => true | some q => (s.queue q).resident)

/-- A binding pops its input as an instance of the issuing program, or waits there (R277). The pop is what a request has for its issue
where R105 and R121 order it against a publish or a SHADOW (DESIGN CHOICE, log entry 66). -/
def State.bindPop (s : State) (g i : Nat) (o : FeedOp) (inq : Nat) : State :=
  let m : Msg := { id := s.nextId, src := o.ctx, epoch := o.epoch, pc := o.pc, job := o.job, prog := o.prog,
                   kind := .feederPop inq g i }
  let s := ({ s with net := s.net ++ [m], nextId := s.nextId + 1 }).setSlot g i { o with seq := s.nextId }
  match s.tryBind m inq g i with
  | some t => t.settleQueue inq
  | none => let x := s.queue inq; s.setQueue inq { x with waitPop := x.waitPop ++ [m.id] }

/-- The request a binding has popped. -/
def FeedOp.request (o : FeedOp) : Option FeedArgs :=
  match o.got with
  | some (some e) => if e.kind = .data && !e.poison then requestOf e.payload else none
  | _ => none

/-- A request is over with a code: its completion record, and the next entry (R277). -/
def State.requestDone (s : State) (g i : Nat) (o : FeedOp) (out : Option Nat) (tag : Nat) (code : Int) (c : Clock) : State :=
  (s.bindOut g i { o with got := none, wait := none, refused := [], stamp := o.stamp.merge c } out
    { payload := completionRecord tag code, stamp := c }).due (.feedqEntry g i)

/-- A request carried out, alone and in order (R277): its writes, its shadows, its flags; cancelled, a prefix and no record. -/
def State.requestRuns (s : State) (g i : Nat) (o : FeedOp) (out : Option Nat) (tag : Nat) (r : FeedArgs) : State :=
  let x := s.feedRun o.agent r (modeOf o.fpctl)
  match (if o.abort then none else x.miss) with
  | some m => ((s.engineMiss m).setSlot g i { o with wait := some (onPkg (m.1 / 128) m.2.1, m.2.2 / 65536) }).due (.feedqEntry g i)
  | none =>
    let y := s.outcome o.abort x
    let p := (y.1.count (g / 128) o.prog 202 (movedBytes y.2.1)).putAll (dieOfGal g) (o.clock.merge x.stamp) y.2.1
    let s := p.1.markShadows (g / 128) o.job r.dests y.2.2
    let s := s.raiseFor o.ctx o.epoch x.flags
    if o.abort then s.bindEnds g i o (-6)
    else s.requestDone g i o out tag y.2.2 p.2

/-- The entry a binding has popped is dealt with (R277). -/
def State.bindEntry (s : State) (g i : Nat) (o : FeedOp) (out : Option Nat) (e : QEntry) : State :=
  let o' := { o with got := none, stamp := o.stamp.merge e.stamp }
  match e.kind with
  | .colophon =>
    (match out with
      | none => s.bindEnds g i o' 0
      | some q => if (s.queue q).coloph.contains (o.prog.setWidth 16) then s.bindEnds g i o' 0
                  else (s.bindPush g i { o' with last := true } q { kind := .colophon, stamp := o'.stamp }).due (.feedqEntry g i))
  | .mark k z => (s.bindOut g i o' out { kind := .mark k z, stamp := o'.stamp }).due (.feedqEntry g i)
  | .data =>
    if e.poison then s.requestDone g i o' out (requestTag e.payload) (-3) {}
    else match requestOf e.payload with
      | none => s.requestDone g i o' out (requestTag e.payload) (-7) {}
      | some r => s.requestRuns g i o out (requestTag e.payload) r

/-- FEEDQ_ENTRY (R277): the binding in slot i of galley g's feeder pops, or deals with what it has popped. -/
def State.feedqStep (s : State) (g i : Nat) (o : FeedOp) (inq : Nat) (out : Option Nat) : State :=
  match o.got with
  | some none => s.bindEnds g i o (-6)
  | some (some e) =>
    if o.abort && o.request.isNone then s.bindEnds g i o (-6) else s.bindEntry g i o out e
  | none =>
    if o.abort then s.bindEnds g i o (-6)
    else if o.last then s.bindEnds g i o 0
    else if !s.bindValid o inq out then s.bindEnds g i o (-2)
    else if !s.bindResident inq out then
      (([inq] ++ out.toList).foldl (fun s q => if (s.queue q).resident then s else s.dueOnce (.queueMissService q)) s).due (.feedqEntry g i)
    else s.bindPop g i o inq

/-- FEEDQ_ENTRY (R277). -/
def execFeedqEntry (g i : Nat) (s : State) : Host.Outcome State Fault Refusal :=
  .next (match Map.find (s.galley g).feeder i with
    | some o => (match o.kind with | .bind inq out => s.feedqStep g i o inq out | .copy _ => s)
    | none => s)

/-- A push of a binding may be made: the accesses its issuer made before it are applied as a push of the issuer's would need them (R117,
R119), and so is what the entry it has popped came after. -/
def State.bindClear (s : State) (o : FeedOp) (out : Option Nat) : Bool :=
  match out with
  | none => true
  | some q =>
    s.fenceBefore o.ctx (s.pushScope o.ctx q) o.first &&
    ((s.queue q).homePkg != pkgOf o.ctx || s.covers (s.queue q).die
      ((o.clock.merge o.stamp).merge (match o.got with | some (some e) => e.stamp | _ => {})))

/-- FEEDQ_ENTRY may happen: its last push has been taken, its queues are resident, its request may run and its next push be made. -/
def State.entryReady (s : State) (g i : Nat) : Bool :=
  match Map.find (s.galley g).feeder i with
  | none => true
  | some o =>
    (o.abort || (match o.push with | some id => (s.message id).isNone | none => true)) &&
    (match o.kind with
      | .copy _ => true
      | .bind inq out =>
        match o.got with
        | some none => true
        | some (some _) =>
          (o.abort || s.bindClear o out) && (match o.request with
            | none => true
            | some r => s.transferReady o r (s.feedRun o.agent r (modeOf o.fpctl)))
        | none => o.abort || !s.bindValid o inq out || s.bindResident inq out ||
          !([inq] ++ out.toList).any (fun q => s.agenda.contains (.queueMissService q)))

end Sys2Proof.Machine
end

