-- ==== Sys2Proof/Machine/Platen.lean ====
section
/-! DEFINITION. The core's platen (spec/12_isa_engines.md R278 to R286; spec/06_numbers.md R141): tile products, drains, plate
loads and sorts. -/

namespace Sys2Proof.Machine

/-- Operations a platen holds (R278). -/
def platenMax : Nat := 4
/-- The bytes of a local store. -/
def lsSize : Nat := 2 ^ 18
/-- The bytes of a plate. -/
def plateSize : Nat := 2 ^ 16

/-! ## Issue (R280) -/

/-- What an operation of the platen samples (R134, R160, R278). -/
def State.platenOp (s : State) (tok : Nat) (k : PlatenKind) : PlatenOp :=
  let x := s.me
  { ctx := s.cur, epoch := x.epoch, pc := x.pc, tok := tok, kind := k, fpctl := x.ctl.fpctl, ox0 := x.oxr 0, ox1 := x.oxr 1,
    ox2 := x.oxr 2, fmta := x.ctl.fmta, fmtb := x.ctl.fmtb, scalea := x.ctl.scalea, scaleb := x.ctl.scaleb,
    platecfg := x.ctl.platecfg, clock := s.clockOf s.cur, seq := s.nextId, prog := x.program, job := x.job
    time := (s.pkg (pkgOf s.cur)).time }

/-- The platen takes an operation: its start is due when nothing is before it (R278). -/
def State.platenTake (s : State) (o : PlatenOp) : State :=
  let k := coreOf s.cur
  let s := if (s.core k).platenQ = [] then s.due (.platenOpStart k) else s
  s.updCore k (fun x => { x with platenQ := x.platenQ ++ [o] })

/-- The platen holds as many operations as it can (R278). -/
def State.platenFull (s : State) : Bool := decide (platenMax ≤ (s.core (coreOf s.cur)).platenQ.length)

/-- The own bit of a set in PLATECFG (R279). -/
def ownsSet (cfg : Word) (c : Nat) : Bool := cfg.getLsbD (16 + c)

/-- A platen instruction without a token: ILL on a service core (R23), the checks of issue, room, then its own (R280). -/
def State.platenIssue (s : State) (body : State → State) : State :=
  if isService s.cur then s.trapIll 8
  else s.issue {} (fun s => if s.platenFull then s.unitBusy else body s)

/-- A platen instruction with a token. -/
def State.platenToken (s : State) (u : Use) (t : Nat) (body : State → State) : State :=
  if isService s.cur then s.trapIll 8
  else s.withToken u t (fun s => if s.platenFull then s.unitBusy else body s)

/-- Bytes of a row of A: 32 of BF16, 16 of M8 (R281). -/
def PlatenOp.rowBytes (o : PlatenOp) : Nat := if o.fmta.getLsbD 0 then 16 else 32
/-- Bytes of a row of B. -/
def PlatenOp.tileRow (o : PlatenOp) : Nat := if o.fmtb.getLsbD 0 then 32 else 64
/-- Where A begins. -/
def PlatenOp.pa (o : PlatenOp) : Nat := o.ox0.toNat % 2 ^ 18
/-- The row stride of A. -/
def PlatenOp.stride (o : PlatenOp) : Nat := o.ox1.toNat % 2 ^ 16
/-- The set. -/
def PlatenOp.set (o : PlatenOp) : Nat := o.ox1.toNat / 2 ^ 16 % 4
/-- Where B begins. -/
def PlatenOp.pb (o : PlatenOp) : Nat := o.ox2.toNat % 2 ^ 16
/-- Where the A scales begin: the field counts halfwords (R279). -/
def PlatenOp.sa (o : PlatenOp) : Nat := o.scalea.toNat / 2 % 2 ^ 17 * 2
/-- The plate offset of the B scale of plate row r (R279, R281). -/
def PlatenOp.sb (o : PlatenOp) (r : Nat) : Nat := o.scaleb.toNat / 2 % 2 ^ 15 * 2 + 2 * (r / 32)

/-- The checks of MMA in the order of R280. -/
def State.mmaChecked (s : State) (o : PlatenOp) (k : State) : State :=
  if !ownsSet o.platecfg o.set then s.trapProt 0#64 27
  else if 2 ^ 18 ≤ o.ox0.toNat ∨ 2 ^ 18 ≤ o.ox1.toNat then s.trapProt 0#64 28
  else if 2 ^ 16 ≤ o.ox2.toNat then s.trapProt 0#64 29
  else if !o.fmta.getLsbD 0 ∧ (o.pa % 2 = 1 ∨ o.stride % 2 = 1) then s.trapAlign (BitVec.ofNat 64 o.pa) 1
  else if lsSize < o.pa + 31 * o.stride + o.rowBytes ∨ (o.fmta.getLsbD 0 ∧ lsSize < o.sa + 64) then s.trapProt 0#64 28
  else if o.pb % o.tileRow ≠ 0 ∨ plateSize < o.pb + 16 * o.tileRow ∨
      (o.fmtb.getLsbD 0 ∧ plateSize < o.sb (o.pb + 480) + 2) then s.trapProt 0#64 29
  else k

/-- MMA (R281). -/
def execMma (s : State) : Host.Outcome State Fault Refusal :=
  .next (s.platenIssue (fun s =>
    let o := s.platenOp 0 .mma
    s.mmaChecked o ((s.platenTake o).finish {})))

/-- MCLR (R282). -/
def execMclr (c : BitVec 2) (s : State) : Host.Outcome State Fault Refusal :=
  .next (s.platenIssue (fun s =>
    if !ownsSet s.me.ctl.platecfg c.toNat then s.trapProt 0#64 27
    else (s.platenTake (s.platenOp 0 (.mclr c.toNat))).finish {}))

/-- Element bytes of a drain's format (R283). -/
def drainElem (f : Nat) : Nat := match f with | 0 => 4 | 1 => 8 | _ => 2

/-- The row stride of a drain (R283). -/
def drainStride (cfg : Word) (e : Nat) : Nat := if cfg.toNat % 2 ^ 16 = 0 then 32 * e else cfg.toNat % 2 ^ 16

/-- Fields of MDRAIN and REPART: t as token, a. -/
def useTA (t a : GIdx) : Use :=
  { lim := [(.g, t.toNat, 18), (.g, a.toNat, 11)], gsrc := [a.toNat], gdst := [t.toNat] }

/-- The checks of MDRAIN in the order of R280. -/
def State.drainChecked (s : State) (cfg ga : Word) (c f : Nat) (k : State) : State :=
  let e := drainElem f
  let ds := cfg.toNat % 2 ^ 16
  if !ownsSet cfg c then s.trapProt 0#64 27
  else if 2 ^ 18 ≤ ga.toNat then s.trapProt 0#64 30
  else if ga.toNat % e ≠ 0 then s.trapAlign ga (Nat.log2 e)
  else if (ds ≠ 0 ∧ (ds % e ≠ 0 ∨ ds < 32 * e)) ∨ lsSize < ga.toNat + 31 * drainStride cfg e + 32 * e then s.trapProt 0#64 30
  else k

/-- MDRAIN (R283): format 3 is ILL reason 3. -/
def execMdrain (t a : GIdx) (x : BitVec 1) (f c : BitVec 2) (s : State) : Host.Outcome State Fault Refusal :=
  .next (if f = 3#2 then s.trapIll 3
    else s.platenToken (useTA t a) t.toNat (fun s =>
      let ga := s.g a.toNat
      s.drainChecked s.me.ctl.platecfg ga c.toNat f.toNat
        (((s.platenTake (s.platenOp t.toNat (.mdrain c.toNat f.toNat (x == 1#1) ga.toNat))).markG s.cur t.toNat .pending).finish
          (useTA t a))))

/-- The checks of PLLD in the order of R280. -/
def State.plldChecked (s : State) (ga gb : Word) (k : State) : State :=
  let off := gb.toNat % 2 ^ 16
  let n := gb.toNat / 2 ^ 16 % 2 ^ 11
  if 2 ^ 27 ≤ gb.toNat then s.trapProt 0#64 29
  else if 2 ^ 18 ≤ ga.toNat then s.trapProt 0#64 30
  else if ga.toNat % 64 ≠ 0 then s.trapAlign ga 6
  else if off % 64 ≠ 0 ∨ n = 0 ∨ 1024 < n ∨ plateSize < off + 64 * n then s.trapProt 0#64 29
  else if lsSize < ga.toNat + 64 * n then s.trapProt 0#64 30
  else k

/-- PLLD (R284). -/
def execPlld (t a b : GIdx) (s : State) : Host.Outcome State Fault Refusal :=
  let u := useX t a b
  .next (s.platenToken u t.toNat (fun s =>
    let ga := s.g a.toNat
    let gb := s.g b.toNat
    s.plldChecked ga gb
      (((s.platenTake (s.platenOp t.toNat (.plld ga.toNat (gb.toNat % 2 ^ 16) (gb.toNat / 2 ^ 16 % 2 ^ 11)))).markG s.cur t.toNat
        .pending).finish u)))

/-- The checks of MSORT in the order of R280. -/
def State.sortChecked (s : State) (src dst x2 : Word) (k : State) : State :=
  let n := x2.toNat % 2 ^ 11
  let a := src.toNat
  let b := dst.toNat
  if 2 ^ 18 ≤ a ∨ 2 ^ 18 ≤ b then s.trapProt 0#64 30
  else if x2 &&& ~~~0x307FF#64 ≠ 0#64 then s.trapProt 0#64 31
  else if a % 16 ≠ 0 then s.trapAlign src 4
  else if b % 16 ≠ 0 then s.trapAlign dst 4
  else if lsSize < a + 16 * n ∨ lsSize < b + 16 * n then s.trapProt 0#64 30
  else if n = 0 ∨ 1024 < n ∨ x2.toNat / 2 ^ 16 % 4 = 3 ∨ (a ≠ b ∧ a < b + 16 * n ∧ b < a + 16 * n) then s.trapProt 0#64 31
  else k

/-- MSORT (R285). -/
def execMsort (t : GIdx) (s : State) : Host.Outcome State Fault Refusal :=
  let u : Use := { lim := [(.g, t.toNat, 18)], gdst := [t.toNat] }
  .next (s.platenToken u t.toNat (fun s =>
    let x := s.me
    s.sortChecked (x.oxr 0) (x.oxr 1) (x.oxr 2)
      (((s.platenTake (s.platenOp t.toNat
          (.msort (x.oxr 0).toNat (x.oxr 1).toNat ((x.oxr 2).toNat % 2 ^ 11) ((x.oxr 2).toNat / 2 ^ 16 % 4)))).markG s.cur t.toNat
        .pending).finish u)))

/-! ## What the operations compute -/

/-- n bytes of the plate. -/
def Core.plateBytes (k : Core) (o n : Nat) : List Byte := (List.range n).map (fun i => Map.get k.plate (o + i) 0#8)

/-- Element (i, j) of an accumulator set: binary64 (R278). -/
def Core.accAt (k : Core) (c i j : Nat) : Nat := (Map.get k.acc (c * 1024 + 32 * i + j) 0#64).toNat

/-- One element after a pass (R141). A NaN among the products or in the accumulator is what the result arose from, and infinities of both signs
beside it raise nothing (DESIGN CHOICE, log entry 79). -/
def passElem (c : Nat) (ps : List (FVal × Flags)) : Nat × Flags :=
  let fl := ps.foldl (fun f p => f ||| p.2) 0#5
  let acc := fmt64.decode c
  let inf (neg : Bool) : Bool := ps.any (fun p => match p.1 with | .inf s => s == neg | _ => false)
  if ps.any (fun p => p.1.isNan) || acc.isNan then (fmt64.nan, fl)
  else if inf false && inf true then (fmt64.nan, fl ||| flNV)
  else
    let sum := if inf false then .inf false else if inf true then .inf true
      else ps.foldl (fun a p => (FVal.add .rne a p.1).1) (.fin false 0 1)
    let r := fmt64.fin2 .rne (FVal.add .rne acc sum)
    (r.1, fl ||| r.2)

/-- Sixteen elements of a row, BF16 or expanded from M8 with a scale (R139, R281); their flags. -/
def tileRowOf (mode : RMode) (bs : List Byte) (scale : Option Nat) : List FVal × Flags :=
  match scale with
  | none => ((List.range (bs.length / 2)).map (fun k => fmt16.decode (leNat ((bs.drop (2 * k)).take 2))), 0#5)
  | some sc =>
    let es := bs.map (fun b => expandM8 mode b.toNat sc)
    (es.map (fun e => fmt16.decode e.1), es.foldl (fun f e => f ||| e.2) 0#5)

/-- The A rows of an operation as local store holds them (R281). -/
def State.rowsA (s : State) (core : Nat) (o : PlatenOp) : List (List FVal × Flags) :=
  (List.range 32).map (fun i =>
    tileRowOf (modeOf o.fpctl) (s.bytes (lsKey core (o.pa + i * o.stride)) o.rowBytes)
      (if o.fmta.getLsbD 0 then some (s.load (lsKey core (o.sa + 2 * i)) 2) else none))

/-- The B rows of an operation as the plate holds them (R281). -/
def State.rowsB (s : State) (core : Nat) (o : PlatenOp) : List (List FVal × Flags) :=
  let k := s.core core
  (List.range 16).map (fun r =>
    let at_ := o.pb + r * o.tileRow
    tileRowOf (modeOf o.fpctl) (k.plateBytes at_ o.tileRow)
      (if o.fmtb.getLsbD 0 then some (leNat (k.plateBytes (o.sb at_) 2)) else none))

/-- The pass of an MMA over its whole set (R141, R281): the new elements in row order, and the flags. -/
def State.tilePass (s : State) (core : Nat) (o : PlatenOp) : List Word × Flags :=
  let as_ := s.rowsA core o
  let bs := s.rowsB core o
  let k := s.core core
  let z : FVal := .fin false 0 1
  let es := (List.range 1024).map (fun n =>
    let i := n / 32
    let j := n % 32
    let row := (as_.getD i ([], 0#5)).1
    passElem (k.accAt o.set i j) ((List.range 16).map (fun m => FVal.mul (row.getD m z) (((bs.getD m ([], 0#5)).1).getD j z))))
  let fl := (as_ ++ bs).foldl (fun f r => f ||| r.2) 0#5
  (es.map (fun e => BitVec.ofNat 64 e.1), es.foldl (fun f e => f ||| e.2) fl)

/-- The ranges of local store an operation reads, as offset and length (R281 to R285). -/
def PlatenOp.reads (o : PlatenOp) : List (Nat × Nat) :=
  match o.kind with
  | .mma => (List.range 32).map (fun i => (o.pa + i * o.stride, o.rowBytes)) ++ (if o.fmta.getLsbD 0 then [(o.sa, 64)] else [])
  | .plld src _ n => [(src, 64 * n)]
  | .msort src _ n _ => [(src, 16 * n)]
  | _ => []

/-- The ranges of the plate an MMA reads. -/
def PlatenOp.plateReads (o : PlatenOp) : List (Nat × Nat) :=
  match o.kind with
  | .mma =>
    (List.range 16).map (fun r => (o.pb + r * o.tileRow, o.tileRow)) ++
      (if o.fmtb.getLsbD 0 then (List.range 16).map (fun r => (o.sb (o.pb + 32 * r), 2)) else [])
  | _ => []

/-- An error in what an operation reads (R286). -/
def State.platenError (s : State) (core : Nat) (o : PlatenOp) : Bool :=
  o.reads.any (fun r => s.poisoned (lsKey core r.1) r.2) ||
  o.plateReads.any (fun r => (s.core core).platePoison.any (fun b => decide (r.1 ≤ b) && decide (b < r.1 + r.2)))

/-- The stamps of what an operation reads (R110). -/
def State.platenStamp (s : State) (core : Nat) (o : PlatenOp) : Clock :=
  o.reads.foldl (fun c r => c.merge (s.stampAt (lsKey core r.1) r.2)) {}

/-- The key of a record under order 2: a binary32 by the total order, all NaNs equal (R285). -/
def floatKey (x : Nat) : Int :=
  let m : Nat := x % 2 ^ 31
  if 0x7F800000 < m then 2 ^ 32 else if x / 2 ^ 31 % 2 = 1 then -(m : Int) - 1 else (m : Int)

/-- The key of a record of 16 bytes under an order (R285). -/
def sortKey (order : Nat) (rcd : List Byte) : Int :=
  let x := leNat (rcd.take 8)
  match order with
  | 0 => x
  | 1 => (BitVec.ofNat 64 x).toInt
  | _ => floatKey (x % 2 ^ 32)

/-- Whether one record goes before another: key, index (R285). -/
def sortBefore (order : Nat) (a b : List Byte) : Bool :=
  let ka := sortKey order a
  let kb := sortKey order b
  if ka ≠ kb then decide (ka < kb) else decide (leNat ((a.drop 8).take 4) ≤ leNat ((b.drop 8).take 4))

/-- A record put into an ordered list, before those it may go before. -/
def insertRec (order : Nat) (r : List Byte) : List (List Byte) → List (List Byte)
  | [] => [r]
  | x :: l => if sortBefore order r x then r :: x :: l else x :: insertRec order r l

/-- The records in ascending order; equal ones keep their source order (R285). -/
def sortRecs (order : Nat) (rs : List (List Byte)) : List (List Byte) := rs.foldr (insertRec order) []

/-- n records of 16 bytes. -/
def recordsOf (bs : List Byte) : Nat → List (List Byte)
  | 0 => []
  | n + 1 => bs.take 16 :: recordsOf (bs.drop 16) n

/-! ## Start and end (R278, R122) -/

/-- An operation as it stands once it has started: its operands read (R122, R286). -/
def State.platenStarted (s : State) (core : Nat) (o : PlatenOp) : PlatenOp :=
  let err := s.platenError core o
  let o := { o with started := true, stamp := s.platenStamp core o }
  match o.kind with
  | .mma =>
    if err then { o with code := -3 }
    else let r := s.tilePass core o; { o with sums := r.1, flags := r.2 }
  | .mclr _ => o
  | .mdrain .. => o
  | .plld src plate n =>
    let bad := (List.range (8 * n)).flatMap (fun i =>
      if s.poisoned (lsKey core (src + 8 * i)) 8 then (List.range 8).map (fun j => plate + 8 * i + j) else [])
    { o with bytes := s.bytes (lsKey core src) (64 * n), bad := bad, code := if err then -3 else 0 }
  | .msort src _ n order =>
    if err then { o with code := -3 }
    else { o with bytes := (sortRecs order (recordsOf (s.bytes (lsKey core src) (16 * n)) n)).flatten }

/-- PLATEN_OP_START (R278): the head of the queue starts. -/
def State.platenStart (s : State) (core : Nat) : State :=
  match (s.core core).platenQ with
  | [] => s
  | o :: r =>
    if o.started then s
    else (s.updCore core (fun k => { k with platenQ := s.platenStarted core o :: r })).due (.platenOpEnd core)

/-- PLATEN_OP_START (R278). -/
def execPlatenOpStart (core : Nat) (s : State) : Host.Outcome State Fault Refusal := .next (s.platenStart core)

/-- The values of a set in row order. -/
def Core.setVals (k : Core) (c : Nat) : List Nat := (List.range 1024).map (fun n => k.accAt c (n / 32) (n % 32))

/-- A set whose elements are given in row order. -/
def Core.putSet (k : Core) (c : Nat) (vs : List Word) : Core :=
  { k with acc := (List.range 1024).foldl (fun m n => Map.set m (c * 1024 + n) (vs.getD n 0#64)) k.acc }

/-- A set whose every element is +0 (R283). -/
def Core.zeroSet (k : Core) (c : Nat) : Core :=
  { k with acc := k.acc.filter (fun e => !(decide (c * 1024 ≤ e.1) && decide (e.1 < c * 1024 + 1024))) }

/-- A set cleared, its poison with it (R282). -/
def Core.clearSet (k : Core) (c : Nat) : Core := { k.zeroSet c with accPoison := k.accPoison.filter (· ≠ c) }

/-- One element drained in a format (R141, R283). -/
def drainOne (f : Nat) (mode : RMode) (v : Nat) : Nat × Flags :=
  match f with
  | 0 => fmt64.convert fmt32 mode v
  | 1 => (v, 0#5)
  | _ => fmt64.convert fmt16 mode v

/-- The writes of a drain: one a row (R283). -/
def drainRows (core at_ d e : Nat) (vs : List Nat) : List (Nat × Nat × List Byte) :=
  (List.range 32).map (fun i =>
    let o := at_ + i * d
    (lsAddr core o, lsKey core o, (List.range 32).flatMap (fun j => leBytes e (vs.getD (32 * i + j) 0))))

/-- What an operation that has run its time does (R281 to R286): the state, the token's code, the flags, the stamp of its writes. -/
def State.platenDone (s : State) (core : Nat) (o : PlatenOp) : State × Int × Flags × Clock :=
  let c := o.clock.merge o.stamp
  match o.kind with
  | .mma =>
    (s.updCore core (fun k => if o.code = 0 then k.putSet o.set o.sums
      else if k.accPoison.contains o.set then k else { k with accPoison := o.set :: k.accPoison }), o.code, o.flags, c)
  | .mclr set => (s.updCore core (fun k => k.clearSet set), 0, 0#5, c)
  | .mdrain set f clr at_ =>
    let k := s.core core
    let bad := k.accPoison.contains set
    let rs := (k.setVals set).map (drainOne f (modeOf o.fpctl))
    let e := drainElem f
    let w := if bad then [] else drainRows core at_ (drainStride o.platecfg e) e (rs.map (·.1))
    let r := s.putAll (dieOf o.ctx) c w
    (if clr then r.1.updCore core (fun k => k.zeroSet set) else r.1, if bad then -3 else 0,
      if bad then 0#5 else rs.foldl (fun f r => f ||| r.2) 0#5, r.2)
  | .plld _ plate n =>
    (s.updCore core (fun k => { k with
      plate := (List.range (64 * n)).foldl (fun m i => Map.set m (plate + i) (o.bytes.getD i 0#8)) k.plate
      platePoison := k.platePoison.filter (fun b => !(decide (plate ≤ b) && decide (b < plate + 64 * n))) ++ o.bad }),
      o.code, 0#5, c)
  | .msort _ dst _ _ =>
    if o.code ≠ 0 then (s, o.code, 0#5, c)
    else
      let r := s.putAll (dieOf o.ctx) c [(lsAddr core dst, lsKey core dst, o.bytes)]
      (r.1, 0, 0#5, r.2)

/-- The cycles an operation runs for, the passes its program's energy estimate counts (R278, R409; log entry 7). -/
def PlatenKind.cycles : PlatenKind → Nat
  | .mma => 16
  | .mclr _ => 2
  | .plld _ _ n => n + 2
  | .mdrain _ f _ _ => if f = 1 then 64 else 32
  | .msort _ _ n _ => 64 + 2 * n

/-- PLATEN_OP_END (R278): the operation that has started ends; its token lands, its flags are ORed, the next starts. -/
def State.platenEnd (s : State) (core : Nat) : State :=
  match (s.core core).platenQ with
  | [] => s
  | o :: r =>
    if !o.started then s else
    let x := s.platenDone core o
    let s := (x.1.updCore core (fun k => { k with platenQ := r })).count (pkgOf o.ctx) o.prog 200 o.kind.cycles
    let s := if o.tok = 0 then s.raiseFor o.ctx o.epoch x.2.2.1
      else s.landToken o.ctx o.epoch o.tok x.2.1 x.2.2.1 x.2.2.2
    if r = [] then s else s.due (.platenOpStart core)

/-- PLATEN_OP_END (R278). -/
def execPlatenOpEnd (core : Nat) (s : State) : Host.Outcome State Fault Refusal := .next (s.platenEnd core)

/-- PLATEN_OP_START may happen: the stores before it to what it reads are applied (R420). -/
def State.platenMayStart (s : State) (core : Nat) : Bool :=
  match (s.core core).platenQ with
  | [] => true
  | o :: _ => s.readsClear core o.seq (o.reads.map (fun r => (lsKey core r.1, r.2)))

/-- PLATEN_OP_END may happen: the die knows what went before the operation's writes (R110). -/
def State.platenMayEnd (s : State) (core : Nat) : Bool :=
  match (s.core core).platenQ with
  | [] => true
  | o :: _ =>
    (match o.kind with
      | .mdrain .. => s.covers (dieOf o.ctx) (o.clock.merge o.stamp)
      | .msort .. => s.covers (dieOf o.ctx) (o.clock.merge o.stamp)
      | _ => true)

end Sys2Proof.Machine
end

