-- ==== Sys2Proof/Machine/Repart.lean ====
section
/-! DEFINITION. The package's repartition engine (spec/12_isa_engines.md R287 to R294; spec/17_programs_repart.md R335, R336; R123):
descriptors, the gathering of the ranks, keys, the weighted split, the movement and its status records. -/

namespace Sys2Proof.Machine

/-! ## Descriptors (R287) -/

/-- The group of a descriptor. -/
def RepOp.group (o : RepOp) : Nat := recNat o.descr 0 4
/-- The curve: 0 Morton, 1 Hilbert. -/
def RepOp.curve (o : RepOp) : Nat := recNat o.descr 4 1
/-- The coordinate type: 0 binary32, 1 binary64. -/
def RepOp.ctype (o : RepOp) : Nat := recNat o.descr 5 1
/-- The record base. -/
def RepOp.base (o : RepOp) : Nat := recNat o.descr 8 8
/-- The record count. -/
def RepOp.count (o : RepOp) : Nat := recNat o.descr 16 8
/-- The stride. -/
def RepOp.stride (o : RepOp) : Nat := recNat o.descr 24 4
/-- The coordinate offset. -/
def RepOp.coord (o : RepOp) : Nat := recNat o.descr 28 2
/-- The weight offset. -/
def RepOp.weight (o : RepOp) : Nat := recNat o.descr 30 2
/-- The receive base. -/
def RepOp.rbase (o : RepOp) : Nat := recNat o.descr 80 8
/-- The receive capacity. -/
def RepOp.cap (o : RepOp) : Nat := recNat o.descr 88 8
/-- The status address. -/
def RepOp.stat (o : RepOp) : Nat := recNat o.descr 96 8
/-- The key-write offset. -/
def RepOp.keyAt (o : RepOp) : Nat := recNat o.descr 104 2
/-- Bytes of a coordinate. -/
def RepOp.cbytes (o : RepOp) : Nat := if o.ctype = 1 then 8 else 4
/-- The record range. -/
def RepOp.records (o : RepOp) : Nat × Nat := (o.base, o.count * o.stride)
/-- The receive range. -/
def RepOp.receives (o : RepOp) : Nat × Nat := (o.rbase, o.cap * o.stride)

/-- Two ranges of offsets do not meet. -/
def apart (a n b m : Nat) : Bool := decide (a + n ≤ b) || decide (b + m ≤ a)

/-- The limits of the descriptor's table (R287). -/
def RepOp.limitsOk (o : RepOp) : Bool :=
  decide (o.curve ≤ 1) && decide (o.ctype ≤ 1) && recNat o.descr 6 2 == 0 && o.base % 8 == 0 && decide (o.count < 2 ^ 32) &&
  o.stride % 8 == 0 && decide (8 ≤ o.stride) && decide (o.stride ≤ 65528) && o.coord % o.cbytes == 0 &&
  decide (o.coord + 3 * o.cbytes ≤ o.stride) && o.weight % 4 == 0 && decide (o.weight + 4 ≤ o.stride) && o.rbase % 8 == 0 &&
  decide (o.cap < 2 ^ 32) && o.stat % 64 == 0 && (o.descr.drop 106).all (· == 0#8) &&
  (o.keyAt == 0xFFFF || (o.keyAt % 8 == 0 && decide (o.keyAt + 8 ≤ o.stride) && apart o.keyAt 8 o.coord (3 * o.cbytes) &&
    apart o.keyAt 8 o.weight 4)) &&
  (o.count * o.stride == 0 || o.cap * o.stride == 0 || apart o.base (o.count * o.stride) o.rbase (o.cap * o.stride))

/-- The package of an operation. -/
def RepOp.pkg (o : RepOp) : Nat := pkgOf o.ctx

/-- The operation for whom the engine acts: it translates from the tables. -/
def RepOp.agent (o : RepOp) : Agent := { ctx := o.ctx, job := o.job, seq := o.seq, refused := o.refused, tlb := false }

/-- The engine's die: the IOD (R110). -/
def RepOp.die (o : RepOp) : Nat := o.pkg * 8 + 4

/-- The operations of a group that run now: the head of each member's, in rank order. -/
def State.heads (s : State) (h : Nat) : List RepOp := (s.ranks h).filterMap (fun p => (s.group p h).queue.head?)

/-- A rank's next operation is to abort before its ranks have all issued: one of them is cancelled, or an abort is owed to it (R294). -/
def Group.struck (g : Group) : Bool := match g.queue with | o :: _ => o.cancel || g.owed != [] | [] => false

/-- Every rank has issued, or one that has is to abort, and none is past the gathering (R288, R294): the gathering is due. -/
def State.gather (s : State) (h : Nat) : State :=
  let gs := (s.ranks h).map (fun p => s.group p h)
  if gs ≠ [] ∧ gs.all (fun g => g.phase == 0) ∧ (gs.all (fun g => g.queue ≠ []) ∨ gs.any (·.struck)) then s.dueOnce (.repartRanksGathered h)
  else s

/-- A descriptor that has been read: an operation of a group this package does not belong to ends with −7 at once, the others
join their group in arrival order (R287, R288). -/
def State.repJoin (s : State) (o : RepOp) : State :=
  if !s.inGroup o.pkg o.group then s.landToken o.ctx o.epoch o.tok (-7) 0#5 {}
  else
    let o := if o.limitsOk then o else { o with code := -7 }
    (s.updGroup o.pkg o.group (fun g => { g with queue := g.queue ++ [o] })).gather o.group

/-- A fault record of a granule for the pager of package p, raised by its repartition engine, with the page-table error the walk has met
(R288, R367, R368). -/
def State.engineFault (s : State) (p space gran : Nat) : State :=
  let d := p * 8 + 4
  let err : Bool := match s.walk p space (gran * 65536) with | .fault e => e | .leaf .. => false
  if (s.die d).faulted space gran then s
  else ((s.updDie d (fun x => { x with faults := x.faults ++ [{ space := space, gran := gran, ptErr := err }] })).emit
    (.faultRecord d space gran err)).startFill p space gran

/-- A fault for the pager at which a granule lies, named by its package and space (R100, R288). -/
def State.faultAt (s : State) (x : Nat × Nat) : State := s.engineFault (x.1 / 2 ^ 40) (x.1 % 2 ^ 40) x.2

/-- The granule of a page an engine misses, with its package and space. -/
def missOf (g space va : Nat) : Nat × Nat := (onPkg (g / 128) space, va / 65536)

/-- The 16 doublewords of a descriptor at issue: the stores of the core before it are seen (R420, R119). -/
def State.readDescr (s : State) (w : Agent) (core : Nat) : Nat → Nat → Except (Int ⊕ (Nat × Nat)) (List Byte × Clock)
  | _, 0 => .ok ([], {})
  | a, n + 1 =>
    match s.engineAt w .load a 8 with
    | .code c => .error (.inl c)
    | .miss g sp va => .error (.inr (missOf g sp va))
    | .cell k =>
      if s.poisoned k 8 then .error (.inl (-3))
      else match s.readDescr w core (a + 8) n with
        | .error e => .error e
        | .ok r => .ok (s.readThrough core k 8 ++ r.1, (s.stampFor (pkgOf w.ctx) k 8).merge r.2)

/-- Every finite binary32 weight is a multiple of 2^−149: the denominator of the sums. -/
def weightUnit : Nat := 2 ^ 149

/-- A weight in its units, and whether it is bad (R289): negative, infinite and NaN count as 0 and are bad; −0 is not. -/
def weightOf (x : Nat) : Nat × Bool :=
  match fmt32.decode x with
  | .fin s n d => if s && n != 0 then (0, true) else (n * weightUnit / d, false)
  | _ => (0, true)

/-- What one record of an operation counts as at issue, where its pages are mapped: a NaN coordinate, a bad weight; the stores of the core
before it are seen (R335, R420). -/
def State.issueCount (s : State) (o : RepOp) (j : Nat) : Option (Bool × Bool) :=
  let at_ (a n : Nat) : Option Nat :=
    match s.engineAt o.agent .load (o.base + j * o.stride + a) n with
    | .cell k => some (leNat (s.readThrough (coreOf o.ctx) k n))
    | _ => none
  let f := if o.ctype = 1 then fmt64 else fmt32
  match at_ o.coord o.cbytes, at_ (o.coord + o.cbytes) o.cbytes, at_ (o.coord + 2 * o.cbytes) o.cbytes, at_ o.weight 4 with
  | some x, some y, some z, some v => some ((f.decode x).isNan || (f.decode y).isNan || (f.decode z).isNan, (weightOf v).2)
  | _, _, _, _ => none

/-- An operation with the counts of its records as they stand now, where they have not been taken before: at its issue, and of a record on
a page that had then to be mapped first, when it is (R335). -/
def State.counted (s : State) (o : RepOp) : RepOp :=
  if o.limitsOk then
    { o with counts := (List.range o.count).map (fun j => match o.counts.getD j none with | some c => some c | none => s.issueCount o j) }
  else o

/-- Memory with the stores of a core that are still under way, in their order (R420). -/
def State.memorySeen (s : State) (core : Nat) : List Host.Cell :=
  s.net.foldl (fun mem m =>
    if m.kind == .store && coreOf m.src == core && !m.drop then
      m.parts.foldl (fun mem p => if p.done then mem else match s.cellOf m p with
        | some k => Memory.writes mem k p.data
        | none => mem) mem
    else mem) s.mem

/-- The operations at the head of package p's line whose descriptors are read join their groups (R287), at most n of them. -/
def State.repDrain (s : State) (p : Nat) : Nat → State
  | 0 => s
  | n + 1 =>
    match (s.pkg p).repIn with
    | o :: r => if o.descr = [] then s else ((s.updPkg p (fun x => { x with repIn := r })).repJoin o).repDrain p n
    | [] => s

/-- The line of package p moves on. -/
def State.repAdvance (s : State) (p : Nat) : State := s.repDrain p (s.pkg p).repIn.length

/-- The counts of an operation whose descriptor has been read: of its records as they stood at issue, in the memory kept since then, or as
they stand (R335). -/
def State.countAtIssue (s : State) (o : RepOp) : RepOp :=
  match o.snap with
  | some mem => s.counted { State.counted { s with mem := mem, net := [] } o with snap := none }
  | none => s.counted o

/-- The engine reads the descriptor of an operation (R287): its faults end the operation with their code; a page that is not mapped
is for the pager, and the operation waits for it, with memory as it stands (R335). -/
def State.repTry (s : State) (o : RepOp) : State × Option RepOp :=
  match s.readDescr o.agent (coreOf o.ctx) o.at_.toNat 16 with
  | .ok r => (s, some (s.countAtIssue { o with descr := r.1, clock := o.clock.merge r.2, wait := none }))
  | .error (.inl c) => (s.landToken o.ctx o.epoch o.tok c 0#5 {}, none)
  | .error (.inr x) => (s.faultAt x, some { o with wait := some x, snap := some (o.snap.getD (s.memorySeen (coreOf o.ctx))) })

/-- A REPART reaches the engine: it joins the line of its package, behind those whose descriptors are still to be read (R287). -/
def State.repRead (s : State) (o : RepOp) : State :=
  match s.repTry o with
  | (s, none) => s
  | (s, some o) => (s.updPkg o.pkg (fun x => { x with repIn := x.repIn ++ [o] })).repAdvance o.pkg

/-- The operations of a line that wait for a granule read on, in place; f says how they go on (R287). -/
def State.repRetry (s : State) (x : Nat × Nat) (f : RepOp → RepOp) : List RepOp → State × List RepOp
  | [] => (s, [])
  | o :: r =>
    let a := if o.wait = some x then s.repTry (f { o with wait := none }) else (s, some o)
    let b := a.1.repRetry x f r
    (b.1, a.2.toList ++ b.2)

/-- The counts that had to wait for a granule are taken, of every operation that has joined its group or is in a line (R335). -/
def State.recount (s : State) : State :=
  { s with pkgs := s.pkgs.map (fun e => (e.1, { e.2 with
      repIn := e.2.repIn.map (fun o => if o.descr = [] then o else s.counted o)
      groups := e.2.groups.map (fun g => (g.1, { g.2 with queue := g.2.queue.map (fun o => s.counted o) })) })) }

/-- The current context's REPART. -/
def State.repOp (s : State) (t : Nat) (a : Word) : RepOp :=
  let x := s.me
  { ctx := s.cur, epoch := x.epoch, pc := x.pc, job := x.job, prog := x.program, tok := t, at_ := a, seq := s.nextId,
    clock := s.clockOf s.cur, time := (s.pkg (pkgOf s.cur)).time }

/-- REPART (R287): a misaligned descriptor is ALIGN at issue; else the token is pending and the engine has the descriptor. -/
def execRepart (t a : GIdx) (s : State) : Host.Outcome State Fault Refusal :=
  let u : Use := { lim := [(.g, t.toNat, 18), (.g, a.toNat, 11)], gsrc := [a.toNat], gdst := [t.toNat] }
  .next (s.withToken u t.toNat (fun s =>
    let ga := s.g a.toNat
    if ga.toNat % 8 ≠ 0 then s.trapAlign ga 3
    else
      let o := s.repOp t.toNat ga
      ((s.markG s.cur t.toNat .pending).finish u).repRead o))

/-- RPSTAT (R292): the context's one outstanding load. -/
def execRpstat (t a : GIdx) (s : State) : Host.Outcome State Fault Refusal :=
  let u : Use := { lim := [(.g, t.toNat, 18), (.g, a.toNat, 11)], gsrc := [a.toNat], gdst := [t.toNat] }
  .next (s.issue u (fun s =>
    let m := { s.msg (.rpstat ((s.g a.toNat).toNat % 2 ^ 32)) with dest := .g t.toNat 8 false }
    s.sendWaiting u m .load [t.toNat] [] .loadValueLands))

/-! ## Aborts and the gathering (R288) -/

/-- A status record (R291). -/
def statusOf (n32 : List Nat) (lo hi wt new : Nat) : List Byte :=
  n32.flatMap (fun v => leBytes 4 v) ++ leBytes 8 lo ++ leBytes 8 hi ++ leBytes 8 wt ++ leBytes 8 new

/-- The outcome word of an abort: bit 31, the rank where it arose, the code's magnitude (R291). -/
def abortWord (rank : Nat) (code : Int) : Nat := 2 ^ 31 + rank % 64 * 2 ^ 16 + code.natAbs % 256

/-- Rank i of an aborted operation takes its code and its status record: kept and new count are the count, the other counts 0; the
owned keys and weight of such a record are free values (R288; log entry 5). -/
def State.abortRank (s : State) (h out p : Nat) (code : Int) : State :=
  match (s.group p h).queue with
  | [] => s
  | o :: r =>
    let a := s.free
    let b := a.2.free
    let c := b.2.free
    let st := statusOf [o.count, 0, 0, 0, 0, 0, 0, out] a.1.toNat b.1.toNat c.1.toNat o.count
    c.2.updGroup p h (fun g => { g with queue := { o with code := code, status := st } :: r, phase := 3 })

/-- The ends of a group's ranks are due (R123). -/
def State.endsDue (s : State) (h n : Nat) : State := (List.range n).foldl (fun s r => s.due (.repartEnd h r)) s

/-- Some ranks of a group end with −6 and an outcome word, each of an abort before movement that it did not cause (R288, R294). -/
def State.abortSome (s : State) (h : Nat) (out : Nat → Nat) (hit : Nat → Bool) : State :=
  let ps := s.ranks h
  (List.range ps.length).foldl (fun s r =>
    if hit (ps.getD r 0) then (s.abortRank h (out (ps.getD r 0)) (ps.getD r 0) (-6)).due (.repartEnd h r) else s) s

/-- An abort before movement (R288): each rank that aborts ends with its code, every other with −6; one of them, by a free value, is
the one the records name. -/
def State.abortAll (s : State) (h : Nat) (codes : List Int) : State :=
  let ps := s.ranks h
  let bad := (List.range codes.length).filter (fun i => codes.getD i 0 ≠ 0)
  let f := s.free
  let i := bad.getD (f.1.toNat % bad.length) 0
  let out := abortWord i (codes.getD i 0)
  let s := (List.range ps.length).foldl (fun s r =>
    let c := codes.getD r 0
    s.abortRank h out (ps.getD r 0) (if c = 0 then -6 else c)) f.2
  s.endsDue h ps.length

/-- What must agree across ranks (R288). -/
def RepOp.agrees (a b : RepOp) : Bool :=
  a.curve == b.curve && a.ctype == b.ctype && a.stride == b.stride && recNat a.descr 6 2 == recNat b.descr 6 2 &&
    (a.descr.drop 32).take 48 == (b.descr.drop 32).take 48

/-- The cells of a range as pinned, by pieces (address, length, cell), or why not (R288). -/
def State.pinRange (s : State) (w : Agent) (acc : Acc) : List (Nat × Nat) → Except (Int ⊕ (Nat × Nat)) (List (Nat × Nat × Nat))
  | [] => .ok []
  | (a, n) :: r =>
    match s.engineAt w acc a n with
    | .code c => .error (.inl c)
    | .miss g sp va => .error (.inr (missOf g sp va))
    | .cell k =>
      match s.pinRange w acc r with
      | .ok l => .ok ((a, n, k) :: l)
      | .error e => .error e

/-- Everything an operation accesses is pinned and checked: the records read and written, the receive range and the status address
written; the cells written and those of the records read, or the code, or the granule that is for the pager (R288). -/
def State.pin (s : State) (o : RepOp) : Except (Int ⊕ (Nat × Nat)) (List (Nat × Nat × Nat) × List (Nat × Nat × Nat)) :=
  let w := o.agent
  let rs := linesOf o.base (o.count * o.stride)
  match s.pinRange w .load rs with
  | .error e => .error e
  | .ok l =>
    match s.pinRange w .store rs with
    | .error e => .error e
    | .ok a =>
      match s.pinRange w .store (linesOf o.rbase (o.cap * o.stride)) with
      | .error e => .error e
      | .ok b =>
        match s.pinRange w .store (linesOf o.stat 64) with
        | .error e => .error e
        | .ok c => .ok (a ++ b ++ c, l)

/-- The status address of an operation can be written (R288). -/
def State.statCells (s : State) (o : RepOp) : Option (List (Nat × Nat × Nat)) :=
  if o.stat % 64 ≠ 0 then none
  else match s.pinRange o.agent .store (linesOf o.stat 64) with | .ok l => some l | .error _ => none

/-- The page of its status address that an operation still waits for, when it is to be written although the operation aborts (R288). -/
def State.statMiss (s : State) (o : RepOp) : Option (Nat × Nat) :=
  if o.stat % 64 ≠ 0 then none
  else match s.pinRange o.agent .store (linesOf o.stat 64) with | .error (.inr x) => some x | _ => none

/-- The cell that some pinned pieces give an address. -/
def cellIn (cs : List (Nat × Nat × Nat)) (a : Nat) : Nat :=
  match cs.find? (fun c => decide (c.1 ≤ a) && decide (a < c.1 + c.2.1)) with
  | some c => c.2.2 + (a - c.1)
  | none => 0

/-- The cell a pinned address names for a write. -/
def RepOp.cell (o : RepOp) (a : Nat) : Nat := cellIn o.cells a

/-- The cell of a record's byte for a read. -/
def RepOp.readCell (o : RepOp) (a : Nat) : Nat := cellIn o.reads a

/-- n bytes a rank reads at an address it has pinned. -/
def State.repBytes (s : State) (o : RepOp) (a n : Nat) : List Byte := (List.range n).map (fun i => s.byte (o.readCell (a + i)))

/-- A byte a rank has pinned lies in a poisoned granule. -/
def State.repPoisoned (s : State) (o : RepOp) (a n : Nat) : Bool := (List.range n).any (fun i => s.poisoned (o.readCell (a + i)) 1)

/-- The box of a descriptor: axis i, low or high (R287). -/
def RepOp.box (o : RepOp) (i : Nat) : FVal := fmt64.decode (recNat o.descr (32 + 8 * i) 8)

/-- Record j of a rank. -/
def State.recInfo (s : State) (o : RepOp) (j : Nat) : RecInfo :=
  let a := o.base + j * o.stride
  let f := if o.ctype = 1 then fmt64 else fmt32
  let q (i : Nat) : FVal := f.decode (leNat (s.repBytes o (a + o.coord + i * o.cbytes) o.cbytes))
  let w := weightOf (leNat (s.repBytes o (a + o.weight) 4))
  { key := curveKey (o.curve == 1) (q 0, q 1, q 2) (o.box 0, o.box 1, o.box 2) (o.box 3, o.box 4, o.box 5),
    nan := (q 0).isNan || (q 1).isNan || (q 2).isNan, w := w.1, bad := w.2 }

/-- A record's place when it has none. -/
def noRec : RecInfo := ⟨0, false, 0, false⟩

/-- The key phase of a rank (R289, R292): each record's key is written into it. -/
def State.writeKeys (s : State) (o : RepOp) : State :=
  if o.keyAt = 0xFFFF then s
  else
    (s.putAll o.die o.clock ((List.range o.count).map (fun j =>
      let a := o.base + j * o.stride + o.keyAt
      (a, o.cell a, leBytes 8 (o.recs.getD j noRec).key)))).1

/-- A coordinate or weight of a record is poisoned: an uncorrectable error before movement (R294). -/
def State.keyError (s : State) (o : RepOp) : Bool :=
  (List.range o.count).any (fun j =>
    let a := o.base + j * o.stride
    s.repPoisoned o (a + o.coord) (3 * o.cbytes) || s.repPoisoned o (a + o.weight) 4)

/-- What the gathering finds of a rank: a code, a granule that is for the pager, or the operation with its cells pinned. -/
def State.gathered (s : State) (o : RepOp) : (Int ⊕ (Nat × Nat)) ⊕ RepOp :=
  if o.cancel then .inl (.inl (-6))
  else if o.code ≠ 0 then .inl (.inl o.code)
  else match s.pin o with
    | .error e => .inl e
    | .ok cs =>
      let o := { o with cells := cs.1, reads := cs.2 }
      if s.keyError o then .inl (.inl (-3)) else .inr { o with recs := (List.range o.count).map (fun j => s.recInfo o j) }

/-- The head of a rank's operations replaced. -/
def State.setHead (s : State) (h : Nat) (o : RepOp) : State :=
  s.updGroup o.pkg h (fun g => { g with queue := o :: g.queue.drop 1 })

/-- Each head knows whether its status record can be written, and where (R288). -/
def State.markStat (s : State) (h : Nat) : State :=
  (s.heads h).foldl (fun s o =>
    match s.statCells o with
    | some l => s.setHead h { o with statOk := true, cells := if o.cells = [] then l else o.cells }
    | none => s.setHead h { o with statOk := false }) s

/-- Ranks that need a page from the pager: each waits for its own, and the gathering is due again (R288). -/
def State.awaitPages (s : State) (h : Nat) (os : List RepOp) (xs : List (Option (Nat × Nat))) : State :=
  ((List.range os.length).foldl (fun s i => match xs.getD i none, os[i]? with
    | some x, some o => (s.faultAt x).setHead h { o with wait := some x }
    | _, _ => s) s).due (.repartRanksGathered h)

/-- An abort before movement, once every status address that can be mapped is (R288). -/
def State.abortGather (s : State) (h : Nat) (os : List RepOp) (codes : List Int) : State :=
  let xs := os.map (fun o => s.statMiss o)
  if xs.any (·.isSome) then s.awaitPages h os xs else (s.markStat h).abortAll h codes

/-- The ranks of a group that a cancel aborts before all have issued: those to whom an earlier abort is owed, else those that have issued
once one of them is cancelled (R294). -/
def State.struckRanks (s : State) (h : Nat) : List Nat :=
  let has := (s.ranks h).filter (fun p => (s.group p h).queue != [])
  let late := has.filter (fun p => (s.group p h).owed != [])
  if late ≠ [] then late
  else if has.length < (s.ranks h).length ∧ has.any (fun p => (s.group p h).struck) = true then has
  else []

/-- Some ranks abort before all have issued (R294): each that has issued now, the others with their next REPART of the group. -/
def State.strikeRanks (s : State) (h : Nat) (hit : List Nat) : State :=
  let ps := s.ranks h
  let rank := ((List.range ps.length).find? (fun r => match (s.group (ps.getD r 0) h).queue with | o :: _ => o.cancel | [] => false)).getD 0
  let out (p : Nat) : Nat := (s.group p h).owed.headD (abortWord rank (-6))
  let late := hit.any (fun p => (s.group p h).owed != [])
  let t := (s.markStat h).abortSome h out (fun p => hit.contains p)
  ps.foldl (fun t p => t.updGroup p h (fun g =>
    if hit.contains p then { g with owed := g.owed.drop 1 }
    else if late then g else { g with owed := g.owed ++ [abortWord rank (-6)] })) t

/-- REPART_RANKS_GATHERED (R288): an abort, a wait for the pager, or the pins and the key phase. -/
def State.ranksGathered (s : State) (h : Nat) : State :=
  let os := s.heads h
  let n := (s.ranks h).length
  let hit := s.struckRanks h
  if n = 0 ∨ (s.ranks h).any (fun p => (s.group p h).phase != 0) = true then s
  else if hit ≠ [] then
    let xs := os.map (fun o => if hit.contains o.pkg then s.statMiss o else none)
    if xs.any (·.isSome) then s.awaitPages h os xs else s.strikeRanks h hit
  else if os.length ≠ n then s
  else
    let gs := os.map (fun o => s.gathered o)
    let xs : List (Option (Nat × Nat)) := gs.map (fun g => match g with | .inl (.inr x) => some x | _ => none)
    if xs.any (·.isSome) then s.awaitPages h os xs
    else
      let codes : List Int := gs.map (fun g => match g with | .inl (.inl c) => c | _ => 0)
      if codes.any (· ≠ 0) then s.abortGather h os codes
      else if !os.all (fun o => (os.headD o).agrees o) then s.abortGather h os (List.replicate n (-7))
      else
        let ok := gs.filterMap (fun g => match g with | .inr o => some o | _ => none)
        let s := ok.foldl (fun s o => (s.writeKeys o).updGroup o.pkg h (fun g =>
          { g with queue := { o with statOk := true } :: g.queue.drop 1, phase := 1 })) s
        s.due (.repartMovement h)

/-- REPART_RANKS_GATHERED (R288). -/
def execRepartRanksGathered (group : Nat) (s : State) : Host.Outcome State Fault Refusal := .next (s.ranksGathered group)

/-! ## The split and the movement (R289 to R291) -/

/-- A record of the group: its key, rank and index there, its weight over the common denominator. -/
structure GRec where
  key  : Nat
  rank : Nat
  idx  : Nat
  w    : Nat
  deriving DecidableEq, Repr

/-- Whether one record comes before another in the group's order (R289). -/
def GRec.before (a b : GRec) : Bool :=
  if a.key ≠ b.key then decide (a.key < b.key) else if a.rank ≠ b.rank then decide (a.rank < b.rank) else decide (a.idx ≤ b.idx)

/-- A record put into its place. -/
def insertGRec (r : GRec) : List GRec → List GRec
  | [] => [r]
  | x :: l => if r.before x then r :: x :: l else x :: insertGRec r l

/-- The group's records in order (R289). -/
def sortGRecs (rs : List GRec) : List GRec := rs.foldr insertGRec []

/-- The records of a rank. -/
def RepOp.rankRecs (o : RepOp) (rank : Nat) : List GRec :=
  (List.range o.count).map (fun j => let x := o.recs.getD j noRec; { key := x.key, rank := rank, idx := j, w := x.w })

/-- The parts of the records in order (R290): S, the weight before the record; i, its position. -/
def splitFrom (parts total n : Nat) : Nat → Nat → List GRec → List (GRec × Nat)
  | _, _, [] => []
  | sum, i, r :: l =>
    let p := if total = 0 then parts * i / n else min (parts - 1) (parts * sum / total)
    (r, p) :: splitFrom parts total n (sum + r.w) (i + 1) l

/-- The records with their parts. -/
def splitParts (parts : Nat) (rs : List GRec) : List (GRec × Nat) :=
  splitFrom parts (rs.foldl (fun a r => a + r.w) 0) rs.length 0 0 rs

/-- The records a rank accepts, in the order of R289 up to its capacity (R291 step 1). -/
def accepted (ps : List (GRec × Nat)) (rank cap : Nat) : List GRec :=
  ((ps.filter (fun x => x.2 == rank && x.1.rank != rank)).map (·.1)).take cap

/-- Whether a record moves: some rank has accepted it (R291 step 1). -/
def moves (acc : List (List GRec)) (r : GRec) : Bool := acc.any (fun l => l.contains r)

/-- Where a rank's records stand after the movement (R291 steps 2 and 3): those it has received from its receive base on, those it keeps from
its record base on. -/
def RepOp.places (o : RepOp) (inc keep : List GRec) : List (Nat × GRec) :=
  let from_ (base : Nat) (l : List GRec) : List (Nat × GRec) := (List.range l.length).map (fun m => (base + m * o.stride, l.getD m ⟨0, 0, 0, 0⟩))
  from_ o.rbase inc ++ from_ o.base keep

/-- The image of record j of a rank, its key in it, with its poisoned granules as flags by byte (R289, R291). -/
def State.recImage (s : State) (o : RepOp) (j : Nat) : List (Byte × Bool) :=
  let key := leBytes 8 (o.recs.getD j noRec).key
  (List.range o.stride).map (fun i =>
    let k := o.readCell (o.base + j * o.stride + i)
    (if o.keyAt ≠ 0xFFFF ∧ o.keyAt ≤ i ∧ i < o.keyAt + 8 then key.getD (i - o.keyAt) 0#8 else s.byte k, s.poisoned k 1))

/-- A record's image written at an address a rank has pinned, its poison with it (R291, R294): byte by byte. -/
def imageWrites (o : RepOp) (a : Nat) (img : List (Byte × Bool)) : List (Nat × Nat × List Byte) :=
  (List.range img.length).map (fun i => (a + i, o.cell (a + i), [((img[i]?).map (·.1)).getD 0#8]))

/-- The granules an image poisons where it is written. -/
def imagePoison (o : RepOp) (a : Nat) (img : List (Byte × Bool)) : List Nat :=
  (List.range img.length).filterMap (fun i =>
    if ((img[i]?).map (·.2)).getD false then some (granule (o.cell (a + i))) else none)

/-- The movement of one rank (R291 steps 2 and 3): what it receives, by source rank and source order, and what it keeps, in its order, by
images taken before; `all` are the records of the group by rank and index. -/
def State.moveRank (s : State) (h : Nat) (all : List GRec) (ps : List (GRec × Nat)) (acc : List (List GRec))
    (imgs : List (List (List (Byte × Bool)))) (rank : Nat) (o : RepOp) : State :=
  let img (r : GRec) : List (Byte × Bool) := (imgs.getD r.rank []).getD r.idx []
  let mine := (ps.filter (fun x => x.1.rank == rank))
  let keep := (o.rankRecs rank).filter (fun r => !moves acc r)
  let got := acc.getD rank []
  let place := (o.places (all.filter (fun r => got.contains r)) keep).map (fun x => (x.1, img x.2))
  let ws := place.flatMap (fun x => imageWrites o x.1 x.2)
  let bad := place.flatMap (fun x => imagePoison o x.1 x.2)
  let s := (s.putAll o.die o.clock ws).1
  let s := { s with poison := s.poison ++ bad.filter (fun g => !s.poison.contains g) }
  let part := (ps.filter (fun x => x.2 == rank)).map (·.1)
  let own := (mine.filter (fun x => x.2 == rank)).length
  let sent := (mine.filter (fun x => moves acc x.1)).length
  let refused := (ps.filter (fun x => x.2 == rank && x.1.rank != rank)).length - got.length
  let lo := part.foldl (fun a r => min a r.key) (2 ^ 64 - 1)
  let hi := part.foldl (fun a r => max a r.key) 0
  let wt := (fmt64.round .rne (.fin false (part.foldl (fun a r => a + r.w) 0) weightUnit)).1
  let err := (imgs.getD rank []).any (fun i => i.any (·.2))
  let seen (f : Bool × Bool → Bool) (g : RecInfo → Bool) : Nat := ((List.range o.count).filter (fun j =>
    match o.counts.getD j none with | some c => f c | none => g (o.recs.getD j noRec))).length
  let nan := seen (·.1) (·.nan)
  let worse := seen (·.2) (·.bad)
  let st := statusOf [own, sent, got.length, refused, keep.length - own, nan, worse, 0] lo hi wt keep.length
  s.updGroup o.pkg h (fun g => { g with
    queue := { o with status := st, code := if err then -3 else 0 } :: g.queue.drop 1, phase := 2 })

/-- REPART_MOVEMENT (R291): a cancel that came before it aborts every rank (R294); else the records move. -/
def State.movement (s : State) (h : Nat) : State :=
  let os := s.heads h
  if os.any (·.cancel) then s.abortAll h (os.map (fun o => if o.cancel then -6 else 0))
  else
    let n := os.length
    let rank (i : Nat) : List GRec := match os[i]? with | some o => o.rankRecs i | none => []
    let all := (List.range n).flatMap rank
    let ps := splitParts n (sortGRecs all)
    let acc := (List.range n).map (fun i => accepted ps i (match os[i]? with | some o => o.cap | none => 0))
    let imgs := os.map (fun o => (List.range o.count).map (fun j => s.recImage o j))
    let s := (List.range n).foldl (fun s i => match os[i]? with
      | some o => s.moveRank h all ps acc imgs i o
      | none => s) s
    s.endsDue h n

/-- REPART_MOVEMENT (R291). -/
def execRepartMovement (group : Nat) (s : State) : Host.Outcome State Fault Refusal := .next (s.movement group)

/-- REPART_END (R123): the status record of rank r, where it can be written, then its token; the next of the group may gather. -/
def State.repEnd (s : State) (h r : Nat) : State :=
  match (s.ranks h)[r]? with
  | none => s
  | some p =>
    match (s.group p h).queue with
    | [] => s
    | o :: q =>
      let w := if o.statOk then [(o.stat, o.cell o.stat, o.status)] else []
      let x := s.putAll o.die o.clock w
      let s := x.1.markShadows o.pkg o.job ([o.records, o.receives] ++ (if o.statOk then [(o.stat, 64)] else [])) o.code
      let s := s.landToken o.ctx o.epoch o.tok o.code 0#5 x.2
      (s.updGroup p h (fun g => { g with queue := q, phase := 0 })).gather h

/-- REPART_END (R123). -/
def execRepartEnd (group r : Nat) (s : State) : Host.Outcome State Fault Refusal := .next (s.repEnd group r)

/-- The heads of a group may begin: no page they need is awaited, the stores before each to what it reads are applied, and their
homes know what went before, and what a release at system scope has ordered is there (R110, R119, R420). -/
def State.gatherReady (s : State) (h : Nat) : Bool :=
  (s.heads h).all (fun o =>
    !(match o.wait with | some x => (s.die (x.1 / 2 ^ 40 * 8 + 4)).faulted (x.1 % 2 ^ 40) x.2 | none => false) &&
    s.readsClear (coreOf o.ctx) o.seq (s.spansOf o.agent .load [o.records]).cells &&
    s.writesClear o.pkg o.clock ((s.spansOf o.agent .store [o.records, o.receives, (o.stat, 64)]).cells.map (·.1)) &&
    s.farClear o.ctx o.seq ((s.spansOf o.agent .store [o.records, o.receives, (o.stat, 64)]).cells.map (·.1)) &&
    !s.publishAhead o.pkg o.job o.seq [o.records, o.receives, (o.stat, 64)])

end Sys2Proof.Machine
end

