-- ==== Sys2Proof/Machine/Que.lean ====
section
/-! DEFINITION. The queue instructions at their issue (spec/11_isa_system.md R242 to R249; spec/03_queues.md R69, R70). What they do
at a queue's home is in Queues.lean. -/

namespace Sys2Proof.Machine

/-- The queue a handle register names: PROT reason 12 with a non-zero bit in [63:16] or an invalid handle (R56, R242). -/
def State.withQueue (s : State) (h : Word) (k : Nat → State) : State :=
  let q := s.me.qkey (h.toNat % 65536)
  if h.toNat / 65536 ≠ 0 ∨ s.badHandle (h.toNat % 65536) q then s.trapProt (h &&& 0xFFFF#64) 12 else k q

/-- PROT of a queue instruction: TRAPADDR holds the handle (R352). -/
def State.queueTrap (s : State) (q reason : Nat) : State := s.trapProt (BitVec.ofNat 64 (q % 65536)) reason

/-- A push from its residency on: a wait for the queue service or for the flow window, else the message leaves (R64, R67, R244). -/
def State.sendPush (s : State) (u : Use) (q : Nat) (e : QEntry) : State :=
  if !(s.queue q).resident then s.queueMiss q
  else if s.flowFull s.cur q then s.waitFor (.flow q)
  else (s.send (s.pushMsg q e) .queuePushAtHome).finish u

/-- QPUSH (R244): a word entry of class c. -/
def execQpush (c : BitVec 2) (a b : GIdx) (s : State) : Host.Outcome State Fault Refusal :=
  let u := useXAB a b
  .next (s.issue u (fun s => s.withQueue (s.g a.toNat) (fun q =>
    if (s.queue q).etype ≠ 0#2 then s.queueTrap q 11
    else s.sendPush u q { cls := c, payload := (s.g b.toNat).setWidth 512 })))

/-- QPUSHV (R244): a vector entry with the valid bits of mask k, or a record entry. -/
def execQpushv (k : MIdx) (c : BitVec 2) (a : GIdx) (b : VIdx) (s : State) : Host.Outcome State Fault Refusal :=
  let u : Use := { lim := [(.g, a.toNat, 11), (.v, b.toNat, 4)], gsrc := [a.toNat], vsrc := [b.toNat] }
  .next (s.issue u (fun s => s.withQueue (s.g a.toNat) (fun q =>
    let t := (s.queue q).etype
    if t = 0#2 ∨ t = 3#2 then s.queueTrap q 11
    else s.sendPush u q { cls := c, payload := s.v b.toNat,
                          valid := if t = 1#2 then s.me.mask k.toNat else 0xFFFF#16 })))

/-- QMARK (R248): cut mark k := g[b][31:0] with the mode. -/
def execQmark (md : BitVec 1) (a b : GIdx) (s : State) : Host.Outcome State Fault Refusal :=
  let u := useXAB a b
  .next (s.issue u (fun s => s.withQueue (s.g a.toNat) (fun q =>
    if (s.queue q).etype = 3#2 then s.queueTrap q 11
    else s.sendPush u q { kind := .mark ((s.g b.toNat).setWidth 32) (md == 1#1) })))

/-- QEND (R244, R248): the program's colophon; reason 32 when the program is not a listed producer. -/
def execQend (a : GIdx) (s : State) : Host.Outcome State Fault Refusal :=
  let u : Use := { lim := [(.g, a.toNat, 11)], gsrc := [a.toNat] }
  .next (s.issue u (fun s => s.withQueue (s.g a.toNat) (fun q =>
    if (s.queue q).etype = 3#2 then s.queueTrap q 11
    else if !(s.queue q).producers.contains (s.me.program.setWidth 16) then s.queueTrap q 32
    else s.sendPush u q { kind := .colophon })))

/-- A pop sent (R245): without a status register the context leaves rotation until the answer lands. -/
def State.sendPop (s : State) (u : Use) (q : Nat) (now vec : Bool) (t b : Nat) : State :=
  let m := { s.msg (.pop q now vec t b) with dest := .vals (MsgKind.pop q now vec t b).popDest, len := u.len }
  let gs := (if vec then [] else [t]) ++ (if b = 0 then [] else [b])
  let vs := if vec then [t] else []
  if b = 0 then s.sendWaiting u m (.pop q) gs vs .queuePopAtHome
  else
    let s := gs.foldl (fun s i => s.awaitG i) s
    let s := vs.foldl (fun s i => s.markV s.cur i .pending) s
    (s.send m .queuePopAtHome).finish u

/-- The checks of a pop after those of its registers (R242, R245): reasons 12, 11, 14, then a mapped status register. -/
def State.popChecks (s : State) (u : Use) (h : Word) (now vec : Bool) (t b : Nat) : State :=
  s.withQueue h (fun q =>
    let x := s.queue q
    if x.etype = 3#2 ∨ (x.etype = 0#2) = (vec = true) then s.queueTrap q 11
    else if !x.consumedBy s.me.program then s.queueTrap q 14
    else if (s.me.mapped b).isSome then s.queueTrap q 11
    else if !x.resident then s.queueMiss q
    else s.sendPop u q now vec t b)

/-- The destinations of a pop that take values: a mapped status register is refused later (R245). -/
def State.statusDst (s : State) (b : Nat) : List Nat := if (s.me.mapped b).isSome then [] else [b]

/-- QPOP and QTRY (R245): b naming t, when not g0, is ILL reason 4. -/
def State.wordPop (s : State) (now : Bool) (t a b : Nat) : State :=
  let u : Use := { lim := [(.g, t, 18), (.g, a, 11), (.g, b, 4)], gsrc := [a], gdst := t :: s.statusDst b }
  if b ≠ 0 ∧ b = t then s.trapIll 4
  else s.issue u (fun s => s.popChecks u (s.g a) now false t b)

/-- QPOP (R245). -/
def execQpop (t a b : GIdx) (s : State) : Host.Outcome State Fault Refusal :=
  .next (s.wordPop false t.toNat a.toNat b.toNat)

/-- QTRY (R245, R246). -/
def execQtry (t a b : GIdx) (s : State) : Host.Outcome State Fault Refusal :=
  .next (s.wordPop true t.toNat a.toNat b.toNat)

/-- QPOPV (R245). -/
def execQpopv (t : VIdx) (a b : GIdx) (s : State) : Host.Outcome State Fault Refusal :=
  let u : Use := { lim := [(.v, t.toNat, 18), (.g, a.toNat, 11), (.g, b.toNat, 4)], gsrc := [a.toNat],
                   gdst := s.statusDst b.toNat, vdst := [t.toNat] }
  .next (s.issue u (fun s => s.popChecks u (s.g a.toNat) false true t.toNat b.toNat))

/-- QSTAT (R249): a presence producer that raises no queue-miss event; k of 2 or more is ILL reason 2. -/
def execQstat (t a : GIdx) (k : BitVec 7) (s : State) : Host.Outcome State Fault Refusal :=
  let u : Use := { lim := [(.g, t.toNat, 18), (.g, a.toNat, 11)], gsrc := [a.toNat], gdst := [t.toNat] }
  .next (if 2 ≤ k.toNat then s.trapIll 2
    else s.issue u (fun s => s.withQueue (s.g a.toNat) (fun q =>
      let m := { s.msg (.qstat q k.toNat) with dest := .g t.toNat 8 false, len := u.len }
      ((s.awaitG t.toNat).send m .queuePopAtHome).finish u)))

/-! ## QMAP (R69, R247) -/

/-- Field `slot` of a QMAP value. -/
def slotOf (v : Word) (slot : Nat) : Half := v.extractLsb' (16 * slot) 16

/-- A QMAP value with one slot replaced. -/
def putSlot (v : Word) (slot : Nat) (h : Half) : Word :=
  (v &&& ~~~(0xFFFF#64 <<< (16 * slot))) ||| (h.setWidth 64 <<< (16 * slot))

/-- The slots in which two QMAP values differ. -/
def changedSlots (a b : Word) : List Nat := (List.range 4).filter (fun i => slotOf a i != slotOf b i)

/-- QMAP of the current context takes a value: the changed slots hold no landed value, and their homes report (R70, R186,
R247). -/
def State.setQmap (s : State) (v : Word) : State :=
  let ch := changedSlots s.me.ctl.qmap v
  let s := s.updCtx s.cur (fun x => { x with
    ctl := { x.ctl with qmap := v }
    held := x.held.filter (fun i => !ch.contains i)
    slotReady := ch.foldl (fun m i => Map.set m i false) x.slotReady })
  ch.foldl (fun s i => if slotOf v i = 0#16 then s else s.dueOnce (.queueStateReport s.cur (BitVec.ofNat 2 i))) s

/-- A changed slot whose register is not yet present: the write of QMAP waits for it (R247). -/
def State.slotBusy (s : State) (ch : List Nat) : Option Nat :=
  ch.find? (fun i => decide (124 + i < s.me.sg) && (s.gReg s.cur (124 + i)).st != .present)

/-- A write of QMAP by the current context, with what follows it (R247). -/
def State.writeQmap (s : State) (v : Word) (ch : List Nat) (k : State → State) : State :=
  match s.slotBusy ch with
  | some i => s.waitFor (.slot (124 + i))
  | none => k (s.setQmap v)

/-- QMAP (R247). -/
def execQmap (slot : BitVec 2) (a : GIdx) (s : State) : Host.Outcome State Fault Refusal :=
  let u : Use := { lim := [(.g, a.toNat, 11)], gsrc := [a.toNat] }
  .next (s.issue u (fun s => s.withQueue (s.g a.toNat) (fun q =>
    if (s.queue q).etype ≠ 0#2 then s.queueTrap q 11
    else if !(s.queue q).resident then s.queueMiss q
    else s.writeQmap (putSlot s.me.ctl.qmap slot.toNat ((s.g a.toNat).setWidth 16)) [slot.toNat] (fun s => s.finish u))))

/-- QUNMAP (R247). -/
def execQunmap (slot : BitVec 2) (s : State) : Host.Outcome State Fault Refusal :=
  .next (s.issue {} (fun s => s.writeQmap (putSlot s.me.ctl.qmap slot.toNat 0#16) [slot.toNat] (fun s => s.finish {})))

/-- QMAP_WRITE (R247): the current context writes QMAP by CTWR; it waits for every slot whose field changes. -/
def execQmapWrite (v : Word) (s : State) : Host.Outcome State Fault Refusal :=
  .next (s.writeQmap v (changedSlots s.me.ctl.qmap v) (fun s => s))

end Sys2Proof.Machine
end

