-- ==== Sys2Proof/Machine/Sys.lean ====
section
/-! DEFINITION. The instructions of work, the keeper, control registers, other contexts' registers and traps
(spec/11_isa_system.md R250 to R267), MIGRATE (spec/10_isa_memory.md R236, R237), and the events of a context's own slot
(spec/19_traps.md R355 to R357; spec/20_debug.md R374 to R379). -/

namespace Sys2Proof.Machine

/-! ## Work (R250 to R256) -/

/-- Fields of an S instruction without registers but a. -/
def useSA (a : GIdx) : Use := { lim := [(.g, a.toNat, 11)], gsrc := [a.toNat] }

/-- SPAWN (R251): the 64-byte image is read as the context's one outstanding load. -/
def execSpawn (a : GIdx) (s : State) : Host.Outcome State Fault Refusal :=
  let u := useSA a
  .next (s.issue u (fun s =>
    let ea := s.g a.toNat
    if misaligned .generic 64 ea then s.trapAlign ea 6
    else s.access .load .generic [{ ea := ea, size := 64 }] (fun ps =>
      s.sendWaiting u { s.msg .load with parts := ps, dest := .spawn } .load [] [] .memoryRequestAtHome)))

/-- The slug of a pooled strand goes to its squeue and the context is free (R252). -/
def State.suspendPooled (s : State) : State :=
  let x := s.me
  let q := x.squeueKey
  if s.badHandle x.squeue.toNat q then s.trapProt (x.squeue.setWidth 64) 12
  else if (s.queue q).etype ≠ 3#2 then s.trapProt (x.squeue.setWidth 64) 11
  else if s.reservationBound s.cur then s.trapProt 0#64 5
  else if !(s.queue q).resident then s.queueMiss q
  else if !s.quiet s.cur then s.waitFor .suspend
  else s.slugRead (
    let g := s.slugAt s.cur (x.pc + 4) false false
    (((s.send (s.pushMsg q { cls := g.prio, payload := g.bits }) .queuePushAtHome).useSlot).countTraps s.cur).leavePooled s.cur)

/-- The slug of a pinned strand is stored to its slot and the context is empty (R252). -/
def State.suspendPinned (s : State) (ea : Word) : State :=
  if ea = 0#64 then s.trapProt 0#64 26
  else if misaligned .generic 64 ea then s.trapAlign ea 6
  else if s.reservationBound s.cur then s.trapProt 0#64 5
  else
    let g := s.slugAt s.cur (s.me.pc + 4) true true
    s.accessSeen .store .generic [{ ea := ea, size := 64, data := leBytes 64 g.bits.toNat }] [] (fun ps =>
      if !s.quiet s.cur then s.waitFor .suspend
      else if !s.roomFor 1 then s.waitFor (.posted 1)
      else s.slugRead (
        let r := s.stamped { s.msg .store with parts := ps, posted := 1 }
        (((((((r.1.send r.2 .memoryRequestAtHome).post 1).park s.me.program (ps.map (·.loc))).useSlot).countTraps s.cur).leave s.cur .empty).releaseWindows s.cur)))

/-- SUSPEND (R252): of a pooled strand g[a] is not read. -/
def execSuspend (a : GIdx) (s : State) : Host.Outcome State Fault Refusal :=
  .next (if s.me.cond = .pooled then s.issue { lim := [(.g, a.toNat, 11)] } (fun s => s.suspendPooled)
    else s.issue (useSA a) (fun s => s.suspendPinned (s.g a.toNat)))

/-- The strand retires (R253). -/
def State.retire (s : State) : State :=
  let c := s.cur
  let p := s.me.program
  let s := (((s.doneReservations c).useSlot).countTraps c).updCtx c (fun x => { x with issued := x.issued + 1 })
  let s := if s.me.cond = .pooled then s.leavePooled c else s.leave c .finished
  s.retireChild (pkgOf c) p (s.clockOf c)

/-- DONE (R253). -/
def execDone (s : State) : Host.Outcome State Fault Refusal :=
  .next (s.issue {} (fun s => if !s.quiet s.cur then s.waitFor .suspend else s.retire))

/-- The key of the issuer's own level of a kind (R49, R254). -/
def Ctx.ownLevel (x : Ctx) (k : Nat) : Nat :=
  match k with
  | 1 => progKey x.program
  | 2 => levelKey 2 (x.program.toNat / 65536)
  | 3 => levelKey 3 x.run.toNat
  | _ => levelKey 4 x.job.toNat

/-- The level a handle register names (R254); bits above the handle's field are not looked at (DESIGN CHOICE, log entry 83). -/
def Ctx.namedLevel (x : Ctx) (k : Nat) (g : Word) : Nat :=
  if g = 0#64 then x.ownLevel k else levelKey k (if k = 1 then g.toNat % 2 ^ 32 else g.toNat % 65536)

/-- The level exists and belongs to the context's job (R254). -/
def State.levelOfJob (s : State) (x : Ctx) (l : Nat) : Bool := (s.level l).known && s.under (levelKey 4 x.job.toNat) 4 l

/-- CANCEL (R254): posted; a level outside 1–4 is ILL reason 2. -/
def execCancel (a : GIdx) (l : BitVec 3) (s : State) : Host.Outcome State Fault Refusal :=
  let u := useSA a
  .next (if l.toNat = 0 ∨ 5 ≤ l.toNat then s.trapIll 2
    else s.issue u (fun s =>
      let k := s.me.namedLevel l.toNat (s.g a.toNat)
      if !s.levelOfJob s.me k then s.trapProt 0#64 16
      else (s.due (.cancelService k)).finish u))

/-- LVLWAIT (R255): the context waits until the level is final. -/
def execLvlwait (d a : GIdx) (l : BitVec 3) (s : State) : Host.Outcome State Fault Refusal :=
  let u : Use := { lim := [(.g, d.toNat, 18), (.g, a.toNat, 11)], gsrc := [a.toNat], gdst := [d.toNat] }
  .next (if l.toNat = 0 ∨ 5 ≤ l.toNat then s.trapIll 2
    else s.issue u (fun s =>
      let g := s.g a.toNat
      let k := s.me.namedLevel l.toNat g
      if g = 0#64 then s.trapProt 0#64 17
      else if !s.levelOfJob s.me k then s.trapProt 0#64 16
      else if s.under k 4 (progKey s.me.program) then s.trapProt 0#64 17
      else
        let id := s.nextId
        let r := s.level k
        let fin := r.final
        let m := { s.msg (.lvlwait k) with dest := .g d.toNat 8 false, ans := if fin then leBytes 8 r.word.toNat else [] }
        let s := s.sendWaiting u (if fin then { m with seen := r.stampIn (pkgOf s.cur) } else m) .lvlwait [d.toNat] [] .loadValueLands
        if fin then s else s.setLevel k { r with waiters := r.waiters ++ [id] }))

/-- A slug of the galley that makes YIELD suspend (R256): valid, not deferred, its deadline before the strand's, fitting a free
context or the yielding one once it is freed. Of two deadlines that one is before whose Dist at the present TIME is less (DEDUCED, log
entry 82). -/
def State.yieldsTo (s : State) : Bool :=
  let c := s.cur
  let g := galOf c
  let t := s.time (g / 128)
  (s.slugs g).any (fun x => s.slugValid g x && !s.deferred g x.slug &&
    decide (dist x.slug.deadline t < dist (s.me.ctl.deadline.setWidth 48) t) &&
    ((s.placeFor g x).isSome || (s.inMask c && s.suits g c x)))

/-- YIELD (R256). -/
def execYield (s : State) : Host.Outcome State Fault Refusal :=
  .next (s.issue {} (fun s => if s.me.cond = .pooled ∧ s.yieldsTo = true then s.suspendPooled else s.finish {}))

/-! ## MIGRATE (R236, R237) -/

/-- The home core of a bank or HBM4 cell behind a shared virtual address (R97, R236). -/
def homeOfCell (p k va : Nat) : Nat :=
  if isBank k then
    let o := (k % 2 ^ 50 - bankBase) % 0x4000000
    let b := o / 64 % 256
    p * 4096 + homeDieNo k * 512 + b / 16 * 32 + 2 * (b % 16)
  else p * 4096 + homeDieNo k * 512 + va / 2 ^ 16 % 16 * 32 + va / 2 ^ 20 % 32

/-- MIGRATE toward the core of a key (R237). -/
def State.migrateTo (s : State) (u : Use) (ea : Word) (k : Nat) : State :=
  let c := s.cur
  if k = coreOf c then s.finish u
  else if s.me.cond ≠ .pooled then
    let r := s.free
    r.2.trap causePROT ea (r.1 &&& 0xFF#64)
  else if s.reservationBound c then s.trapProt 0#64 5
  else if 256 ≤ (s.galley (galOfCore k)).migr.length then s.waitFor (.migration (galOfCore k))
  else if !s.quiet c then s.waitFor .suspend
  else s.slugRead (
    let g := galOfCore k
    let l := s.slugAt c (s.me.pc + 4) false true
    let s := s.updGal g (fun y => { y with migr := y.migr ++ [(l, k, y.arrival)], arrival := y.arrival + 1 })
    let s := if pkgOf c = k / 4096 then s.learn (k / 512) (s.clockOf c) else s
    (((s.callDispatcher g).useSlot).countTraps c).leavePooled c)

/-- MIGRATE (R236, R237). Its address is translated as a load's is, and needs read permission (DESIGN CHOICE, log entry 80). -/
def execMigrate (a : GIdx) (s : State) : Host.Outcome State Fault Refusal :=
  let u : Use := { lim := [(.g, a.toNat, 11)], gsrc := [a.toNat] }
  .next (s.issue u (fun s =>
    let ea := s.g a.toNat
    match s.genericTarget s.cur s.me.job .load ea.toNat with
    | .bad c i => s.trap c ea (BitVec.ofNat 64 i)
    | .place (.priv o _) => if s.hasPkg (pkgOf o) then s.migrateTo u ea (coreOf o) else s.trap causeRKEY ea 5#64
    | .place (.local k _) => s.migrateTo u ea k
    | .place _ => s.trapProt ea 0
    | .virt sp va =>
      if 65536 ≤ sp then s.migrateTo u ea (coreOf s.cur)
      else match s.translate (galOf s.cur) sp va .load with
        | .miss => s.missAt sp va .load ea
        | .bad c i => s.trap c ea (BitVec.ofNat 64 i)
        | .cell k => s.migrateTo u ea (homeOfCell (pkgOf s.cur) k va)))

/-! ## The keeper's instructions (R257 to R261) -/

/-- A keeper-only instruction: PRIV for every other context (R38). -/
def State.keeper (s : State) (k : State → State) : State := if isKeeper s.cur then k s else s.trapPriv

/-- The target of a keeper's instruction. -/
def State.target16 (s : State) (c : BitVec 4) : Nat := coreOf s.cur * 16 + c.toNat

/-- CSTART (R258). -/
def execCstart (d a : GIdx) (c : BitVec 4) (s : State) : Host.Outcome State Fault Refusal :=
  let u : Use := { lim := [(.g, d.toNat, 18), (.g, a.toNat, 11)], gsrc := [d.toNat, a.toNat] }
  .next (s.keeper (fun s => s.issue u (fun s =>
    let t := s.target16 c
    let win := s.g d.toNat
    let ea := s.g a.toNat
    if c = 0#4 ∨ ((s.ctx t).cond ≠ .empty ∧ (s.ctx t).cond ≠ .emptyWin) then s.trapProt 0#64 18
    else if !(windowWordOk win && s.windowsFree t (windowsOf win)) then s.trapProt 0#64 19
    else if ea = 0#64 then ((s.giveWindows t (windowsOf win)).unoccupied t).finish u
    else if misaligned .generic 64 ea then s.trapAlign ea 6
    else s.access .load .generic [{ ea := ea, size := 64 }] (fun ps =>
      s.sendWaiting u { s.msg .load with parts := ps, dest := .cstart t win } .load [] [] .memoryRequestAtHome))))

/-- The private pages of a context are unmapped (R87): its root table is cleared and every TLB of the package drops them. -/
def State.unmapPrivate (s : State) (c : Nat) : State :=
  let root := (s.ctx c).ptab
  let s := if root = 0 then s else s.setBytes (physKey (pkgOf c) root) (List.replicate 32 0#8)
  let drop (g : Nat × Galley) : Nat × Galley := (g.1, { g.2 with tlb := g.2.tlb.filter (fun t => t.space != privSpace c) })
  { s with galleys := s.galleys.map drop }

/-- A reaped context is empty: arms, debug registers, private pages and windows are gone (R87, R239, R259, R374). -/
def State.reap (s : State) (t : Nat) : State :=
  let s := (s.leave t .empty).unmapPrivate t
  (s.updCtx t (fun x => { x with dbg := {} })).releaseWindows t

/-- CREAP of target t (R259): a held strand retires, as cancelled when a cancel is pending, else with an error. -/
def State.creap (s : State) (u : Use) (t : Nat) : State :=
  let x := s.ctx t
  if x.cond = .empty then s.finish u
  else if x.occupied && x.hold == .none then s.trapProt 0#64 20
  else
    let s := s.withdraw t
    if !s.enginesQuiet t then s.waitFor (.reap t)
    else
      let s := s.loseReservations t
      let s := if x.occupied then
          ((if x.cancel.isSome then s else s.countError (pkgOf t) (progKey x.program) 0x0301#16).retireChild (pkgOf t) x.program
            (s.clockOf t)).reapInstance t x.program
        else s
      (s.reap t).finish u

/-- CREAP (R259). -/
def execCreap (c : BitVec 4) (s : State) : Host.Outcome State Fault Refusal :=
  .next (s.keeper (fun s => s.issue {} (fun s => s.creap {} (s.target16 c))))

/-- The wait code of CSTAT (R261); the waits its table does not list read 1, a page walk 13 (DESIGN CHOICE, log entry 84). -/
def Wait.code : Wait → Nat
  | .none => 0 | .reg .. => 1 | .slot _ => 1 | .dst => 1 | .flow _ => 2 | .mapped _ => 3 | .pop _ => 3 | .reservation => 4
  | .load => 5 | .deposit => 6 | .depositRetry => 6 | .save => 7 | .suspend => 1 | .barrier => 8 | .waitv => 9 | .miss _ => 10
  | .lvlwait => 11 | .fence .. => 12 | .fault .. => 13 | .walk .. => 13 | .posted _ => 14 | .reap _ => 1 | .migration _ => 1

/-- The hold code of CSTAT (R261). -/
def Hold.code : Hold → Nat
  | .none => 0 | .chold => 1 | .brkpt _ => 2 | .watch _ => 3 | .step => 4 | .priv => 5 | .unhandled => 6

/-- The condition code of CSTAT (R261). -/
def Cond.code : Cond → Nat
  | .empty => 0 | .pinned => 1 | .pooledFree => 2 | .pooled => 3 | .finished => 4 | .emptyWin => 5

/-- The wait code of a SPAWN whose image has landed: its push is held by the flow window, or its queue is missing (R251, R261). -/
def State.spawnWait (s : State) (t code : Nat) : Nat :=
  match s.net.find? (fun m => m.src == t && s.live m && m.dest == .spawn && m.complete) with
  | none => code
  | some m => if (s.queue (m.job.toNat * 65536 + (slugOf (BitVec.ofNat 512 (leNat m.bytes))).squeue.toNat)).resident then 2 else 10

/-- What CSTAT reports of a context: a wait whose condition has cleared is none (R37, R55, R261). -/
def State.cstatWord (s : State) (t : Nat) : Word :=
  let x := s.ctx t
  let w := if s.saving t then 7 else if s.pushBlocked t then 2 else if s.waitOver t x.wait then 0 else s.spawnWait t x.wait.code
  let st := if !x.occupied then 0 else if x.hold ≠ .none then 3 else if w = 0 then 1 else 2
  BitVec.ofNat 64 ((if x.occupied then x.pc.toNat % 2 ^ 48 else 0) * 65536 + w * 4096 + x.hold.code * 256 + st * 16 + x.cond.code)

/-- CSTAT (R261). -/
def execCstat (d : GIdx) (c : BitVec 4) (s : State) : Host.Outcome State Fault Refusal :=
  .next (s.keeper (fun s => s.alu (useD d) d.toNat (fun s => s.cstatWord (s.target16 c))))

/-- The hold of the after form of a watchpoint (R377). -/
def State.strikeWatch (s : State) (c : Nat) (t : PendTrap) : State :=
  (s.updCtx c (fun x => { x with watchPend := none })).holdTrap c (.watch true) t (s.ctx c).pc

/-- The hold of a step (R378). -/
def State.strikeStep (s : State) (c : Nat) (pc : Word) : State :=
  (s.updCtx c (fun x => { x with stepPend := none })).holdTrap c .step ⟨false, causeSTEP, pc, 0#64, 0#64⟩ (s.ctx c).pc

/-- CHOLD of target t (R42, R260): a debug hold that is due at the same issue is the one recorded (R379). It has no effect on a finished
context or one that is pooled and free, or empty with windows: the rule names an empty one alone (DESIGN CHOICE, log entry 77). -/
def State.chold (s : State) (t : Nat) : State :=
  let x := s.ctx t
  if !x.occupied || x.hold != .none then s
  else match x.watchPend with
    | some w => s.strikeWatch t w
    | none => match x.stepPend with
      | some pc => s.strikeStep t pc
      | none => s.updCtx t (fun x => { x with hold := .chold })

/-- CHOLD (R260). -/
def execChold (c : BitVec 4) (s : State) : Host.Outcome State Fault Refusal :=
  .next (s.keeper (fun s => s.issue {} (fun s =>
    if c = 0#4 then s.trapProt 0#64 21 else (s.chold (s.target16 c)).finish {})))

/-- CRELEASE of target t (R260, R356, R379); a pending CANCEL is taken first. One held with cause 6, which R260's table does not list, goes on
at its next instruction (DESIGN CHOICE, log entry 77); no slot delivers the PRIV of a release, so that it ends no step (R378). -/
def State.crelease (s : State) (t : Nat) : State :=
  let x := s.ctx t
  let s' := s.setCtx t { x with hold := .none, wait := if x.wait.beforeIssue then .none else x.wait }
  if x.hold = .none then s
  else if x.cancel.isSome then s'
  else match x.hold with
    | .priv =>
      (s'.enterTrap t ⟨false, causePRIV, x.tr.pc, x.tr.addr, x.tr.info⟩ x.tr.pc).updCtx t (fun y => { y with stepPend := x.stepPend })
    | .brkpt true => s'.updCtx t (fun x => { x with pc := x.tr.pc + 4 })
    | .brkpt false => s'.updCtx t (fun x => { x with pc := x.tr.pc, skipBrk := true })
    | .watch false => s'.updCtx t (fun x => { x with pc := x.tr.pc, skipWatch := true })
    | _ => s'

/-- CRELEASE (R260). -/
def execCrelease (c : BitVec 4) (s : State) : Host.Outcome State Fault Refusal :=
  .next (s.keeper (fun s => s.issue {} (fun s => (s.crelease (s.target16 c)).finish {})))

/-! ## Control registers (R262) -/

/-- Debug register j of a context: number 0x100 + j (R262). -/
def DebugRegs.read (d : DebugRegs) (j : Nat) : Word :=
  match j with
  | 0 => d.ibrk0 | 1 => d.ibrk1 | 2 => d.ibrk2 | 3 => d.ibrk3 | 4 => d.w0a | 5 => d.w0c | 6 => d.w1a | 7 => d.w1c | _ => d.step

/-- Debug registers with register j written; zero bits ignore the write (R374, R376, R378). -/
def DebugRegs.write (d : DebugRegs) (j : Nat) (v : Word) : DebugRegs :=
  let b := v &&& 0x8000FFFFFFFFFFFE#64
  let a := v &&& 0x00FFFFFFFFFFFFFF#64
  let c := v &&& 0xF000FFFFFFFFFFFF#64
  match j with
  | 0 => { d with ibrk0 := b } | 1 => { d with ibrk1 := b } | 2 => { d with ibrk2 := b } | 3 => { d with ibrk3 := b }
  | 4 => { d with w0a := a } | 5 => { d with w0c := c } | 6 => { d with w1a := a } | 7 => { d with w1c := c }
  | _ => { d with step := v &&& 1#64 }

/-- LEVELS (R49). -/
def Ctx.levels (x : Ctx) : Word := x.job ++ x.run ++ x.program

/-- Access classes of control registers (R262). -/
inductive CtlAccess | ro | rw | ko
  deriving DecidableEq, Repr

/-- The access class of a control-register number, when the map has it (R262). -/
def ctlAccess (n : Nat) : Option CtlAccess :=
  if n ≤ 4 then some .ro
  else if 0x21 ≤ n ∧ n ≤ 0x24 then some .ro
  else if n = 0x10 ∨ n = 0x11 ∨ n = 0x20 ∨ n = 0x25 ∨ n = 0x30 ∨ n = 0x31 ∨ n = 0x50 ∨ (0x40 ≤ n ∧ n ≤ 0x44) then some .rw
  else if (0x100 ≤ n ∧ n ≤ 0x108) ∨ (0x200 ≤ n ∧ n ≤ 0x207) ∨ n = 0x210 ∨ n = 0x220 then some .ko
  else none

/-- The account of the current strand's program as a read in a cycle of its core sees it: as before the last tick, in the tick's cycle
(R410). -/
def State.energyRead (s : State) (cyc : Nat) : Nat :=
  let h := s.me.program.toNat
  let t := (s.pkg (pkgOf s.cur)).ticked
  let n := (s.program h).energy
  if cyc ≤ t.1 then Map.get t.2 h n else n

/-- The content of a control register as the current context reads it (R262). CTXID names the package by its number p from reset on, which
stands for the domain rank that step 9 gives it and that HSTATUS shows (R12, R339; DESIGN CHOICE, log entry 72). -/
def State.ctlRead (s : State) (n : Nat) : Word :=
  let x := s.me
  let k := s.core (coreOf s.cur)
  match n with
  | 0 => BitVec.ofNat 64 (s.cur % 2 ^ 22)
  | 1 => (s.time (pkgOf s.cur)).setWidth 64
  | 2 => x.issued
  | 3 => BitVec.ofNat 64 (s.energyRead k.cycle)
  | 4 => x.levels
  | 0x10 => x.ctl.fpctl
  | 0x11 => x.ctl.fpflags
  | 0x20 => x.tr.vec
  | 0x21 => x.tr.cause
  | 0x22 => x.tr.pc
  | 0x23 => x.tr.addr
  | 0x24 => x.tr.info
  | 0x25 => x.tr.save
  | 0x30 => x.ctl.deadline
  | 0x31 => x.ctl.prio
  | 0x40 => x.ctl.fmtb
  | 0x41 => x.ctl.scaleb
  | 0x42 => x.ctl.platecfg
  | 0x43 => x.ctl.fmta
  | 0x44 => x.ctl.scalea
  | 0x50 => x.ctl.qmap
  | 0x210 => k.poolmask
  | 0x220 => k.savearea
  | n => if 0x200 ≤ n then Map.get k.wins (n - 0x200) 0#64 else x.dbg.read (n - 0x100)

/-- A context with one of its own control registers written; bits marked zero ignore the write (R262). -/
def Ctx.ctlWrite (x : Ctx) (n : Nat) (v : Word) : Ctx :=
  match n with
  | 0x10 => { x with ctl := { x.ctl with fpctl := v &&& 0x1FF#64 } }
  | 0x11 => { x with ctl := { x.ctl with fpflags := v &&& 0x1F#64 } }
  | 0x20 => { x with tr := { x.tr with vec := v &&& 0xFFFFFFFFFFFE#64 } }
  | 0x25 => { x with tr := { x.tr with save := v &&& 0x1FFFFFFFFFFFE#64 } }
  | 0x30 => { x with ctl := { x.ctl with deadline := v &&& 0xFFFFFFFFFFFF#64 } }
  | 0x31 => { x with ctl := { x.ctl with prio := v &&& 3#64 } }
  | 0x40 => { x with ctl := { x.ctl with fmtb := v &&& 1#64 } }
  | 0x41 => { x with ctl := { x.ctl with scaleb := v &&& 0xFFFE#64 } }
  | 0x42 => { x with ctl := { x.ctl with platecfg := v &&& 0xFFFFF#64 } }
  | 0x43 => { x with ctl := { x.ctl with fmta := v &&& 1#64 } }
  | 0x44 => { x with ctl := { x.ctl with scalea := v &&& 0x3FFFE#64 } }
  | n => { x with dbg := x.dbg.write (n - 0x100) v }

/-- POOLMASK of core k is written (R40, R41). -/
def State.setPool (s : State) (k : Nat) (v : Word) : State :=
  let s := s.updCore k (fun x => { x with poolmask := v &&& 0xFFFE#64 })
  (List.range 16).foldl (fun s i =>
    let c := k * 16 + i
    match (s.ctx c).cond with
    | .emptyWin => if s.inMask c then s.unoccupied c else s
    | .pooledFree => if s.inMask c then s else s.unoccupied c
    | _ => s) s

/-- A 64 KiB granule of a save area in the shared space: a pinned page in bank memory of the core's die (R45). -/
def State.savePage (s : State) (k a : Nat) : Bool :=
  match s.walkCell (k / 4096) (s.ctx (16 * k)).job.toNat a with
  | some (cell, e) => isBank cell && homeDie cell == k / 512 && leafPin e
  | none => false

/-- The save area a value of SAVEAREA names may be used by core k (R45). -/
def State.saveAreaOk (s : State) (k : Nat) (v : Word) : Bool :=
  let n := (v.extractLsb' 56 8).toNat
  let a := (v.extractLsb' 8 48).toNat * 256
  let len := n * 9728
  decide (n ≤ 64) && (n == 0 ||
    (if a / 2 ^ 54 = 3 then a / 2 ^ 18 == 3 * 2 ^ 36 + k % 4096 && decide (a % 2 ^ 18 + len ≤ 2 ^ 18)
     else a / 2 ^ 54 == 0 && (List.range ((a + len - 1) / 65536 - a / 65536 + 1)).all (fun i => s.savePage k ((a / 65536 + i) * 65536))))

/-- SAVEAREA of core k is written (R45, R359). -/
def State.setSaveArea (s : State) (k : Nat) (v : Word) : State :=
  let w := if s.saveAreaOk k v then v &&& 0xFFFFFFFFFFFFFF00#64 else (s.core k).savearea &&& 0x00FFFFFFFFFFFFFF#64
  s.updCore k (fun x => { x with savearea := w, slots := x.slots.map (fun e => (e.1, { e.2 with poison := false })) })

/-- Window register r of core k is written (R94). -/
def State.setWindow (s : State) (k r : Nat) (v : Word) : State :=
  let w := if r % 2 = 0 then v &&& 0xEFFFFFFFFFFFFFC0#64 else v &&& 0x00FFFFFFFFFFFFC0#64
  s.updCore k (fun x => { x with wins := Map.set x.wins r w })

/-- CTRD (R262): within 8 cycles, without presence. -/
def execCtrd (d : GIdx) (r : BitVec 10) (s : State) : Host.Outcome State Fault Refusal :=
  let n := r.toNat
  .next (match ctlAccess n with
    | none => s.trapIll 7
    | some _ =>
      if isService s.cur && decide (0x40 ≤ n) && decide (n ≤ 0x44) then s.trapIll 8
      else s.alu (useD d) d.toNat (fun s => s.ctlRead n))

/-- What a CTWR writes (R262); flags that land in the cycle of a write of FPFLAGS are not lost (R135), and whether a step follows it is judged by STEPCTL as it stood at issue (R378). -/
def State.ctlWrite (s : State) (u : Use) (n : Nat) (v : Word) : State :=
  let k := coreOf s.cur
  if n = 0x50 then s.writeQmap v (changedSlots s.me.ctl.qmap v) (fun s => s.finish u)
  else if n = 0x210 then (s.setPool k v).finish u
  else if n = 0x220 then (s.setSaveArea k v).finish u
  else if 0x200 ≤ n then (s.setWindow k (n - 0x200) v).finish u
  else
    let v := if n = 0x11 then s.me.flagsAfter v (s.core k).cycle else v
    (s.finish u).updCtx s.cur (fun x => x.ctlWrite n v)

/-- CTWR (R262): an absent number or an RO register is ILL reason 7, a KO register written by another context PRIV. -/
def execCtwr (a : GIdx) (r : BitVec 10) (s : State) : Host.Outcome State Fault Refusal :=
  let n := r.toNat
  .next (match ctlAccess n with
    | none => s.trapIll 7
    | some .ro => s.trapIll 7
    | some acc =>
      if isService s.cur && decide (0x40 ≤ n) && decide (n ≤ 0x44) then s.trapIll 8
      else if acc = .ko ∧ ¬ isKeeper s.cur then s.trapPriv
      else s.issue (useSA a) (fun s => s.ctlWrite (useSA a) n (s.g a.toNat)))

/-- POOLMASK_WRITE (R41): the keeper of the current core writes POOLMASK. -/
def execPoolmaskWrite (v : Word) (s : State) : Host.Outcome State Fault Refusal := .next (s.setPool (coreOf s.cur) v)

/-- SAVEAREA_WRITE (R45): the keeper of the current core writes SAVEAREA. -/
def execSaveareaWrite (v : Word) (s : State) : Host.Outcome State Fault Refusal := .next (s.setSaveArea (coreOf s.cur) v)

/-- WINDOW_REGISTER_WRITE (R95): the keeper of the current core writes window register 0x200 + r. -/
def execWindowRegisterWrite (r : BitVec 3) (v : Word) (s : State) : Host.Outcome State Fault Refusal :=
  .next (s.setWindow (coreOf s.cur) r.toNat v)

/-! ## Another context's registers (R263, R264) -/

/-- The register index of an XREG instruction (R263). -/
def xIndex (k : RClass) (g : Word) : Nat := if k = .ox then g.toNat % 512 else g.toNat % 128

/-- The bits of g[a] an XREG class allows are the only ones set, and the index is one the class has (R263). -/
def xIndexOk (k : RClass) (g : Word) : Bool :=
  let i := xIndex k g
  match k with
  | .g => decide (g.toNat < 128)
  | .v => decide (g.toNat < 2048) && g.toNat / 128 % 2 == 0
  | .m => decide (g.toNat < 8)
  | .ox => decide (g.toNat < 512) && (decide (i < 8) || (decide (0x100 ≤ i) && decide (i ≤ 0x108)))

/-- The index lies in the target strand's window (R33, R263). -/
def Ctx.xInside (x : Ctx) (k : RClass) (i : Nat) : Bool :=
  match k with | .g => decide (i < x.sg) | .v => decide (i < x.sv) | _ => true

/-- The checks of an XREG instruction on its target (R263). -/
def State.xCheck (s : State) (k : RClass) (g : Word) (t : Nat) (write : Bool) (go : State → State) : State :=
  let x := s.ctx t
  if !xIndexOk k g then s.trapProt 0#64 23
  else if isKeeper t || x.cond == .empty || x.cond == .emptyWin then s.trapProt 0#64 21
  else if !x.xInside k (xIndex k g) then s.trapProt 0#64 23
  else if write && x.hold == .none then s.trapProt 0#64 22
  else go s

/-- The value XRD reads (R263). -/
def State.xRead (s : State) (k : RClass) (g : Word) (t : Nat) : Word :=
  let i := xIndex k g
  match k with
  | .g => (s.gReg t i).val
  | .v => (s.vReg t i).val.extractLsb' (64 * (g.toNat / 256 % 8)) 64
  | .m => ((s.ctx t).mask i).setWidth 64
  | .ox => if i < 8 then (s.ctx t).oxr i else (s.ctx t).dbg.read (i - 0x100)

/-- What XRD reads is poisoned: the register, or a lane of the doubleword (R371, R372). -/
def State.xPoison (s : State) (k : RClass) (g : Word) (t : Nat) : Option Nat :=
  let i := xIndex k g
  match k with
  | .g => if (s.gReg t i).poison then some i else none
  | .v => if ((s.vReg t i).poison &&& (3#16 <<< (2 * (g.toNat / 256 % 8)))) != 0#16 then some (i + 256) else none
  | _ => none

/-- XRD (R263); a poisoned register of the target is ECC, location 1 (R372). -/
def execXrd (d a : GIdx) (k : RClass) (c : BitVec 4) (s : State) : Host.Outcome State Fault Refusal :=
  let u : Use := { lim := [(.g, d.toNat, 18), (.g, a.toNat, 11)], gsrc := [a.toNat], gdst := [d.toNat] }
  .next (s.keeper (fun s => s.issue u (fun s =>
    let g := s.g a.toNat
    let t := s.target16 c
    s.xCheck k g t false (fun s =>
      match s.xPoison k g t with
      | some i => s.trap causeECC 0#64 (BitVec.ofNat 64 (1 + i * 256))
      | none => (s.writeG d.toNat (s.xRead k g t)).finish u))))

/-- One doubleword of a vector register written by the keeper: its two lanes lose their poison (R263, R373). -/
def VReg.putDw (r : VReg) (j : Nat) (v : Word) : VReg :=
  let m : VWord := 0xFFFFFFFFFFFFFFFF#512 <<< (64 * j)
  { val := (r.val &&& ~~~m) ||| (v.setWidth 512 <<< (64 * j)), st := .present, poison := r.poison &&& ~~~(3#16 <<< (2 * j)) }

/-- XWR's write (R263). -/
def State.xWrite (s : State) (k : RClass) (g : Word) (t : Nat) (v : Word) : State :=
  let i := xIndex k g
  match k with
  | .g => s.putG t i v
  | .v => s.setVReg t i ((s.vReg t i).putDw (g.toNat / 256 % 8) v)
  | .m => s.updCtx t (fun x => x.setMask i (v.setWidth 16))
  | .ox => s.updCtx t (fun x => if i < 8 then x.setOx i v else { x with dbg := x.dbg.write (i - 0x100) v })

/-- The producer of a target's register is pending, with its number in TRAPINFO (R263, R352). -/
def State.xPending (s : State) (k : RClass) (i t : Nat) : Option Nat :=
  match k with
  | .g => if (s.gReg t i).st == .pending then some i else none
  | .v => if (s.vReg t i).st == .pending then some (i + 256) else none
  | _ => none

/-- XWR (R263). -/
def execXwr (d a : GIdx) (k : RClass) (c : BitVec 4) (s : State) : Host.Outcome State Fault Refusal :=
  let u : Use := { lim := [(.g, d.toNat, 18), (.g, a.toNat, 11)], gsrc := [d.toNat, a.toNat] }
  .next (s.keeper (fun s => s.issue u (fun s =>
    let g := s.g a.toNat
    let t := s.target16 c
    s.xCheck k g t true (fun s =>
      match s.xPending k (xIndex k g) t with
      | some i => s.trap causePEND 0#64 (BitVec.ofNat 64 i)
      | none => (s.xWrite k g t (s.g d.toNat)).finish u))))

/-- The presence of a target's register (R264). -/
def State.xPresence (s : State) (k : RClass) (i t : Nat) : Presence :=
  match k with | .v => (s.vReg t i).st | _ => (s.gReg t i).st

/-- Presence and arm bits as XPRES reads them (R264). -/
def Presence.bits : Presence → Word | .present => 1#64 | .armed => 2#64 | _ => 0#64

/-- A target's register takes a presence (R264). -/
def State.xMark (s : State) (k : RClass) (i t : Nat) (p : Presence) : State :=
  match k with | .v => s.markV t i p | _ => s.markG t i p

/-- XPRES (R264): read, and with g[a][63] written; classes m and ox are ILL reason 3. Of reasons 23 and 24 that both apply, 23 is the one
(DESIGN CHOICE, log entry 27). -/
def execXpres (d a : GIdx) (k : RClass) (c : BitVec 4) (s : State) : Host.Outcome State Fault Refusal :=
  let u : Use := { lim := [(.g, d.toNat, 18), (.g, a.toNat, 11)], gsrc := [a.toNat], gdst := [d.toNat] }
  .next (if k = .m ∨ k = .ox then s.trapIll 3
    else s.keeper (fun s => s.issue u (fun s =>
      let w := s.g a.toNat
      let g := w &&& 0x1FFFFFFFFFFFFFFF#64
      let t := s.target16 c
      let i := xIndex k g
      let wr := w.getLsbD 63
      let pr := w.getLsbD 62
      let ar := w.getLsbD 61
      s.xCheck k g t wr (fun s =>
        let old := s.xPresence k i t
        if wr && ar && (pr || k == .v) then s.trapProt 0#64 23
        else if wr && old == .pending then s.trapProt 0#64 24
        else
          let s := if wr then s.xMark k i t (if pr then .present else if ar then .armed else .absent) else s
          (s.writeG d.toNat old.bits).finish u))))

/-! ## Traps and return (R265, R267) -/

/-- An instruction whose own effect is a trap issues: its slot is used and ISSUED counts it (R262, R267). -/
def State.issueTrap (s : State) : State := s.useSlot.updCtx s.cur (fun x => { x with issued := x.issued + 1 })

/-- TRAP (R265): TRAPI with the code; the resume address is pc + 4. -/
def execTrap (c : BitVec 9) (s : State) : Host.Outcome State Fault Refusal :=
  let pc := s.me.pc
  .next (s.issueTrap.enterTrap s.cur ⟨false, causeTRAPI, pc, 0#64, c.setWidth 64⟩ (pc + 4))

/-- TRET (R267). -/
def execTret (s : State) : Host.Outcome State Fault Refusal := .next s.tret

/-- BRK (R265): BRKPT holds the context for its keeper; TRAPINFO[14] is 0 (R375). -/
def execBrk (c : BitVec 9) (s : State) : Host.Outcome State Fault Refusal :=
  let pc := s.me.pc
  .next (s.issueTrap.holdTrap s.cur (.brkpt true) ⟨false, causeBRKPT, pc, 0#64, c.setWidth 64⟩ pc)

/-- NOP (R265). -/
def execNop (s : State) : Host.Outcome State Fault Refusal := .next (s.issue {} (fun s => s.finish {}))

/-! ## Events of a context's slot (R355, R374 to R379) -/

/-- ATTRIBUTED_IMPRECISE_TRAP (R355): the current context takes its oldest pending trap; the instruction about to issue is the
resume address (R96). -/
def execAttributedImpreciseTrap (s : State) : Host.Outcome State Fault Refusal :=
  .next (match s.me.imps with
    | [] => s
    | t :: r =>
      if s.me.tr.inh then s
      else
        let pc := if t.imp then s.me.pc else t.pc
        ((s.updCtx s.cur (fun x => { x with imps := r })).useSlot).enterTrap s.cur t pc)

/-- CANCEL_TRAP (R50): the current context takes its pending CANCEL, whatever TRAPSAVE.inh holds. -/
def execCancelTrap (s : State) : Host.Outcome State Fault Refusal :=
  .next (match s.me.cancel with
    | none => s
    | some l =>
      let pc := s.me.pc
      ((s.updCtx s.cur (fun x => { x with cancel := none })).useSlot).enterTrap s.cur
        ⟨false, causeCANCEL, pc, 0#64, l.setWidth 64⟩ pc)

/-- IBRK_MATCH (R375): the armed breakpoint i of the current context matches; watchpoint matches that are suppressed for its issue stay so
(R379). -/
def execIbrkMatch (i : BitVec 2) (s : State) : Host.Outcome State Fault Refusal :=
  let pc := s.me.pc
  let w := s.me.skipWatch
  .next ((s.useSlot.updCtx s.cur (fun x => { x with skipWatch := w })).holdTrap s.cur (.brkpt false)
    ⟨false, causeBRKPT, pc, 0#64, 0x4000#64 ||| (i.setWidth 64 <<< 12)⟩ pc)

/-- WATCHPOINT_MATCH (R377): the hold of a watchpoint of the current context. -/
def execWatchpointMatch (a : Word) (info : BitVec 3) (pc : Word) (s : State) : Host.Outcome State Fault Refusal :=
  let t : PendTrap := ⟨false, causeWATCH, pc, a, info.setWidth 64⟩
  .next ((s.updCtx s.cur (fun x => { x with watchPend := none })).holdTrap s.cur (.watch (info.getLsbD 2)) t s.me.pc)

/-- STEP_HOLD (R378): the current context is held after issuing the instruction at `pc`. -/
def execStepHold (pc : Word) (s : State) : Host.Outcome State Fault Refusal := .next (s.strikeStep s.cur pc)

/-- KEEPER_RESTART (R357): unless its galley is mapped out (R345), firmware restarts the stopped keeper of a core at its entry, with the window of R19 and the state of
a start (R18). -/
def execKeeperRestart (core : Nat) (entry : BitVec 48) (s : State) : Host.Outcome State Fault Refusal :=
  let c := core * 16
  .next (if !(s.core core).stopped || (s.pkg (core / 4096)).mappedOut.contains (core / 32 % 128) then s
    else
      let i := Ctx.initial c
      let s := (s.freshEpoch c).updCtx c (fun x => { i with
        pc := entry.setWidth 64, epoch := x.epoch, dbg := x.dbg, posted := x.posted, ptab := x.ptab, classes := x.classes
        job := x.job, run := x.run, program := x.program })
      (s.clearWindow c 128 32 0).updCore core (fun k => { k with stopped := false }))

end Sys2Proof.Machine
end

