-- ==== Sys2Proof/Machine/Service.lean ====
section
/-! DEFINITION. The cancel service (spec/02_strands.md R50, R419; spec/12_isa_engines.md R294; spec/13_isa_distributions.md R298)
and the pager's answers (spec/19_traps.md R369). -/

namespace Sys2Proof.Machine

/-! ## Levels, queues and slugs (R50 steps 1 and 2) -/

/-- A program lies under a level (R50). -/
def State.progUnder (s : State) (t : Nat) (p : BitVec 32) : Bool := s.under t 4 (progKey p)

/-- The records under a level whose state is 0 are cancelling (R50). -/
def State.markLevels (s : State) (t : Nat) : State :=
  (s.levels.map (·.1)).foldl (fun s l =>
    if s.under t 4 l && (s.level l).state == 0 then s.setLevel l { s.level l with state := 4 } else s) s

/-- The slug a waiting push carries is of a strand under the level. -/
def State.pushUnder (s : State) (t w : Nat) : Bool :=
  match s.message w with
  | some m => (match m.kind with | .push _ e => s.progUnder t (slugOf e.payload).program | _ => false)
  | none => false

/-- The slugs of a strand queue that lie under a level are discarded, those of waiting pushes first (R50). -/
def State.dropSlugs (s : State) (t q : Nat) : State :=
  let x := s.queue q
  if x.etype ≠ 3#2 then s
  else
    let hit (e : QEntry) : Bool := s.progUnder t (slugOf e.payload).program
    let ws := x.waitPush.filter (fun w => s.pushUnder t w)
    let gone := x.entries.filter hit
    if ws = [] ∧ gone = [] then s
    else
      let s := s.setQueue q { x with waitPush := x.waitPush.filter (fun w => !ws.contains w), entries := x.entries.filter (fun e => !hit e) }
      let s := gone.foldl (fun s e => s.discardEntry q e) s
      (s.discardPushes q ws).settleQueue q

/-- The slugs under a level in the migration lists are discarded (R50, R237; log entry 32). -/
def State.dropMigrations (s : State) (t : Nat) : State :=
  (s.galleys.map (·.1)).foldl (fun s g =>
    let l := (s.galley g).migr
    let hit (m : Slug × Nat × Nat) : Bool := s.progUnder t m.1.program
    if l.any hit then
      (l.filter hit).foldl (fun s m => s.retireSlug g m.1 (s.die (dieOfGal g)).clock)
        (s.updGal g (fun y => { y with migr := l.filter (fun m => !hit m) }))
    else s) s

/-- The slugs under a level that wait with the pager are discarded (R50, R360). -/
def State.dropFaulted (s : State) (t : Nat) : State :=
  (s.dies.map (·.1)).foldl (fun s d =>
    let fs := (s.die d).faults
    let hit (x : Slug × Nat × Nat) : Bool := s.progUnder t x.1.program
    let gone := fs.flatMap (fun f => f.slugs.filter hit)
    if gone = [] then s
    else gone.foldl (fun s x => s.retireSlug (galOf x.2.1) x.1 (s.clockOf x.2.1))
      (s.updDie d (fun y => { y with faults := fs.map (fun f => { f with slugs := f.slugs.filter (fun x => !hit x) }) }))) s

/-- The queues owned by a level and by the levels under it close (R50). -/
def State.closeUnder (s : State) (t : Nat) : State :=
  (s.queues.map (·.1)).foldl (fun s q =>
    let x := s.queue q
    if x.valid && !x.closed && s.under t 4 (levelKey 2 x.owner.toNat) then s.closeQueue q else s) s

/-! ## Contexts and engines (R50 step 3, R294, R298) -/

/-- Every context running a strand under the level takes CANCEL at its next slot; what it waits for is withdrawn (R50). -/
def State.strikeContexts (s : State) (t : Nat) : State :=
  (s.ctxs.map (·.1)).foldl (fun s c =>
    if (s.ctx c).occupied && s.progUnder t (s.ctx c).program then
      (s.withdraw c).updCtx c (fun x => { x with cancel := some (BitVec.ofNat 3 (t / 2 ^ 32)) })
    else s) s

/-- A binding that waits for an entry no longer waits; its FEEDQ_ENTRY ends it (R294). -/
def State.wakeBinding (s : State) (g i : Nat) : State :=
  match s.net.find? (fun m => match m.kind with | .feederPop _ a b => a == g && b == i | _ => false) with
  | none => s
  | some m =>
    let s := s.dropMsg m.id
    (match m.kind with
      | .feederPop q _ _ => s.setQueue q { s.queue q with waitPop := (s.queue q).waitPop.filter (· ≠ m.id) }
      | _ => s).due (.feedqEntry g i)

/-- The feeder operations of strands under the level stop (R294). -/
def State.strikeFeeders (s : State) (t : Nat) : State :=
  (s.galleys.map (·.1)).foldl (fun s g =>
    (s.galley g).feeder.foldl (fun s e =>
      if s.progUnder t e.2.prog then
        (s.updGal g (fun y => { y with feeder := Map.modify y.feeder e.1 e.2 (fun o => { o with abort := true }) })).wakeBinding g e.1
      else s) s) s

/-- A platen operation that has not started is discarded: its token is −6 (R294). -/
def State.discardPlaten (s : State) (o : PlatenOp) : State :=
  if o.tok = 0 then s else s.landToken o.ctx o.epoch o.tok (-6) 0#5 {}

/-- The platen operations under the level that have not started are discarded (R294). -/
def State.strikePlatens (s : State) (t : Nat) : State :=
  (s.cores.map (·.1)).foldl (fun s k =>
    let l := (s.core k).platenQ
    let hit (o : PlatenOp) : Bool := !o.started && s.progUnder t o.prog
    if !l.any hit then s
    else
      let rest := l.filter (fun o => !hit o)
      let s := (l.filter hit).foldl (fun s o => s.discardPlaten o) (s.updCore k (fun y => { y with platenQ := rest }))
      if rest = [] then { s with agenda := s.agenda.filter (· ≠ .platenOpStart k) } else s) s

/-- A condenser instruction that has not started is discarded: a vector destination is present again (R298). -/
def State.discardCond (s : State) (o : CondOp) : State :=
  match o.kind.vdest with
  | some v => if (s.ctx o.ctx).epoch = o.epoch ∧ (s.vReg o.ctx v).st = .pending then s.markV o.ctx v .present else s
  | none => s

/-- The condenser instructions under the level that have not started are discarded; the started one ends without effect (R298). -/
def State.strikeCondensers (s : State) (t : Nat) : State :=
  (s.cores.map (·.1)).foldl (fun s k =>
    let l := (s.core k).condQ
    let hit (o : CondOp) : Bool := !o.started && s.progUnder t o.prog
    if !l.any (fun o => s.progUnder t o.prog) then s
    else
      let rest := (l.filter (fun o => !hit o)).map (fun o => if s.progUnder t o.prog then { o with abort := true } else o)
      let s := (l.filter hit).foldl (fun s o => s.discardCond o) (s.updCore k (fun y => { y with condQ := rest }))
      if rest = [] then { s with agenda := s.agenda.filter (· ≠ .condenserOpStart k) } else s) s

/-- The REPARTs under the level are cancelled: one whose descriptor is awaited ends with −6, the others abort their group before
its movement, whether or not its other ranks have issued (R294). -/
def State.strikeReparts (s : State) (t : Nat) : State :=
  let mark (o : RepOp) : RepOp := if s.progUnder t o.prog then { o with cancel := true } else o
  (s.pkgs.map (·.1)).foldl (fun s p =>
    let unread (o : RepOp) : Bool := o.descr == [] && s.progUnder t o.prog
    let gone := (s.pkg p).repIn.filter unread
    let s := s.updPkg p (fun y => { y with
      repIn := (y.repIn.filter (fun o => !unread o)).map mark
      groups := y.groups.map (fun e => (e.1, { e.2 with queue := e.2.queue.map mark })) })
    let s := (gone.foldl (fun s o => s.landToken o.ctx o.epoch o.tok (-6) 0#5 {}) s).repAdvance p
    (s.pkg p).groups.foldl (fun s e => s.gather e.1) s) s

/-- The edition loads of jobs under the level are looked at again (R396). -/
def State.strikeEditions (s : State) (t : Nat) : State :=
  (s.pkgs.map (·.1)).foldl (fun s p => (s.pkg p).editions.foldl (fun s x =>
    if s.under t 4 (levelKey 4 x.job.toNat) then s.dueOnce (.editionOldSlotCheck p (x.job.toNat * 2 ^ 64 + recNat x.rcd 24 8)) else s) s) s

/-- The levels under t that are cancelling and have nothing live end, programs first (R50 step 6). -/
def State.settleUnder (s : State) (t : Nat) : State :=
  [1, 2, 3, 4].foldl (fun s k =>
    (s.levels.map (·.1)).foldl (fun s l =>
      if l / 2 ^ 32 = k ∧ (s.level l).state = 4 ∧ s.under t 4 l = true then s.settleLevel 4 l else s) s) s

/-- The cancel of a level (R50): no effect unless its state is 0. -/
def State.cancelLevel (s : State) (t : Nat) : State :=
  if !(s.level t).known || (s.level t).state != 0 then s
  else
    let s := s.markLevels t
    let s := (s.queues.map (·.1)).foldl (fun s q => s.dropSlugs t q) s
    let s := ((s.closeUnder t).dropMigrations t).dropFaulted t
    let s := (((s.strikeContexts t).strikeFeeders t).strikePlatens t).strikeCondensers t
    ((s.strikeReparts t).strikeEditions t).settleUnder t

/-- CANCEL_SERVICE (R50): the cancel of level `lvl` is carried to everything under it. -/
def execCancelService (lvl : Nat) (s : State) : Host.Outcome State Fault Refusal := .next (s.cancelLevel lvl)

/-! ## The pager (R369) -/

/-- The fault records of a granule leave the dies of package p. -/
def State.clearFaults (s : State) (p space gran : Nat) : State :=
  (List.range 8).foldl (fun s i => s.updDie (p * 8 + i) (fun d =>
    { d with faults := d.faults.filter (fun f => !(f.space == space && f.gran == gran)) })) s

/-- The fault records of a granule on package p, with their dies. -/
def State.faultsOf (s : State) (p space gran : Nat) : List FaultRec :=
  (List.range 8).flatMap (fun i => (s.die (p * 8 + i)).faults.filter (fun f => f.space == space && f.gran == gran))

/-- A saved slug returns to its strand queue (R360). -/
def State.pushSaved (s : State) (x : Slug × Nat × Nat) : State :=
  s.machinePush x.2.1 x.1.program x.2.2 { cls := x.1.prio, payload := x.1.bits, stamp := s.clockOf x.2.1 }

/-- REPARTs of any package that waited for a granule of package p to read their descriptors read on, in the order of their line (R287). -/
def State.retryReparts (s : State) (p space gran : Nat) (f : RepOp → RepOp) : State :=
  (s.pkgs.map (·.1)).foldl (fun s q =>
    let r := s.repRetry (onPkg p space, gran) f (s.pkg q).repIn
    (r.1.updPkg q (fun y => { y with repIn := r.2 })).repAdvance q) s

/-- The TLBs of package p that hold an entry of a range of granules are to drop it (R370). -/
def State.invalidate (s : State) (p space gran pages : Nat) : State :=
  (s.galleys.map (·.1)).foldl (fun s g =>
    if g / 128 = p ∧ (s.galley g).tlb.any (fun e => e.space == space && decide (e.base < (gran + pages) * 65536) &&
        decide (gran * 65536 < e.base + e.size)) = true then s.dueOnce (.tlbInvalidationAck g space gran pages) else s) s

/-- A TLB entry of package p is not what the tables say now (R370). -/
def State.stale (s : State) (p : Nat) (e : TlbEntry) : Bool :=
  match s.walk p e.space e.base with
  | .leaf base size k leaf => base != e.base || size != e.size || leaf != e.leaf || s.companion k size leaf != e.comp
  | .fault _ => true

/-- Every entry of a TLB of package p that the tables no longer give is to be dropped (R370). -/
def State.invalidateStale (s : State) (p : Nat) : State :=
  (s.galleys.filter (fun g => g.1 / 128 == p)).foldl (fun s g =>
    (g.2.tlb.filter (s.stale p)).foldl (fun s e => s.dueOnce (.tlbInvalidationAck g.1 e.space (e.base / 65536) (e.size / 65536))) s) s

/-- A TLB entry that galley g is to drop and has not acknowledged. -/
def State.leaving (s : State) (g : Nat) (e : TlbEntry) : Bool :=
  s.agenda.any (fun x => match x with
    | .tlbInvalidationAck h sp gr n =>
      h == g && sp == e.space && decide (e.base < (gr + n) * 65536) && decide (gr * 65536 < e.base + e.size)
    | _ => false)

/-- No TLB of package p has still to acknowledge an entry for the frame of n bytes at a (R370). -/
def State.frameFree (s : State) (p a n : Nat) : Bool :=
  (s.galleys.filter (fun g => g.1 / 128 == p)).all (fun g => g.2.tlb.all (fun e =>
    !(s.leaving g.1 e && decide (leafAddr e.leaf < a + n) && decide (a < leafAddr e.leaf + e.size))))

/-- The frame that entries written by the pager give a granule of a space may be used: every TLB has acknowledged what it mapped before
(R370). -/
def State.mayUse (s t : State) (p space gran : Nat) : Bool :=
  match t.walk p space (gran * 65536) with
  | .leaf _ size _ e => s.frameFree p (leafAddr e) size
  | .fault _ => true

/-- The fill of a granule of package p that is under way, with its number (R391). -/
def State.fillOf (s : State) (p space gran : Nat) : Option (Nat × StorageReq) :=
  (s.pkg p).storage.find? (fun r => r.2.fill == some (space, gran))

/-- A fill is over (R391). -/
def State.dropFill (s : State) (p space gran : Nat) : State :=
  s.updPkg p (fun x => { x with storage := x.storage.filter (fun r => !(r.2.fill == some (space, gran))) })

/-- The bytes a fill has read go into the granule's frame, and its leaf is read-only (R390, R391). -/
def State.placeFill (s : State) (p space gran : Nat) (data : List Byte) : State :=
  match s.walk p space (gran * 65536) with
  | .leaf base _ k e =>
    let frame := physKey p (leafAddr e + (gran * 65536 - base))
    (s.setBytes frame data).setBytes k (leBytes 8 (e &&& ~~~(1#64 <<< 60)).toNat)
  | .fault _ => s

/-- The services and the granules they wait for (R369, R388): one of package p less. -/
def State.svcResume (s : State) (p space gran : Nat) (refused : Bool) : State :=
  let e := (onPkg p space, gran)
  { s with pkgs := s.pkgs.map (fun y => (y.1, if y.2.svcWait.contains e then
      { y.2 with svcWait := y.2.svcWait.filter (· ≠ e), svcRefused := if refused then e :: y.2.svcRefused else y.2.svcRefused }
    else y.2)) }

/-- The leaves of page-cache granules of package p lose the write permission (R390). -/
def State.readOnlyCache (s : State) (p : Nat) : State :=
  (s.pkg p).pageCache.foldl (fun s x =>
    match s.walk p (x.1 / 2 ^ 40) (x.1 % 2 ^ 40 * 65536) with
    | .leaf _ _ k e => if leafWr e then s.setBytes k (leBytes 8 (e &&& ~~~(1#64 <<< 60)).toNat) else s
    | .fault _ => s) s

/-- A granule is mapped. -/
def State.granuleMapped (s : State) (p space gran : Nat) : Bool := (s.walkCell p space (gran * 65536)).isSome

/-- The pager's writes drop page-cache granules only in the order of their last use (R391). -/
def State.dropsInOrder (s t : State) (p : Nat) : Bool :=
  let mapped := (s.pkg p).cacheUse.filter (fun k => s.granuleMapped p (k / 2 ^ 40) (k % 2 ^ 40))
  let left := mapped.filter (fun k => t.granuleMapped p (k / 2 ^ 40) (k % 2 ^ 40))
  left == mapped.drop (mapped.length - left.length)

/-- The compute die whose HBM4 backs the private region of a context (R87). -/
def backingDie (c : Nat) : Nat := if isService c then galOf c % 16 else dieNo c

/-- What the pager may map at a granule (R87): a private page is of 64 KiB, in the HBM4 of its owner's die. -/
def State.mayMap (s : State) (p space gran : Nat) : Bool :=
  decide (space < 65536) ||
  (match s.walk p space (gran * 65536) with
    | .leaf _ size _ e => size == 65536 && decide (leafAddr e < bankBase) && leafAddr e / 0x1800000000 == backingDie (space - 65536)
    | .fault _ => true)

/-- The entries the pager writes; the first of a private region that has no table lies in its new root (R87, R366; log entry 67). -/
def State.writeEntries (s : State) (space gran : Nat) (p : Nat) (writes : List (Nat × Word)) : State :=
  let s := writes.foldl (fun s w => s.setBytes (physKey p w.1) (leBytes 8 w.2.toNat)) s
  match writes with
  | (a, _) :: _ =>
    if 65536 ≤ space ∧ (s.ctx (space - 65536)).ptab = 0 then
      s.updCtx (space - 65536) (fun x => { x with ptab := a - gran / 16384 % 4 * 8 })
    else s
  | [] => s

/-- The entries are written; a page that they change, the one named or another, leaves the TLBs (R370); the granule is walked once more for every waiting TLB, saved
slugs are pushed, and waiting contexts and engines go on (R369); a mapped granule takes the bytes its fill has read (R391). -/
def State.pagerMaps (s : State) (p space gran : Nat) (writes : List (Nat × Word)) : State :=
  let fs := s.faultsOf p space gran
  let s := s.writeEntries space gran p writes
  let s := match s.fillOf p space gran with
    | some (_, r) => (s.placeFill p space gran (r.data.getD [])).dropFill p space gran
    | none => s
  let s := s.readOnlyCache p
  let s := (((s.invalidate p space gran 1).invalidateStale p).clearFaults p space gran).svcResume p space gran false
  let s := (fs.flatMap (·.gals)).foldl (fun s g => s.startWalk g space gran) s
  let s := (fs.flatMap (·.prefs)).foldl (fun s g => s.startWalk g space gran true) s
  let s := (s.ctxs.map (·.1)).foldl (fun s c =>
    if pkgOf c = p ∧ (s.ctx c).wait = .fault space gran ∧ (s.die (dieOf c)).walking space gran = true then
      s.updCtx c (fun x => { x with wait := .walk space gran }) else s) s
  let s := (fs.flatMap (·.slugs)).foldl (fun s x => s.pushSaved x) s
  (s.retryReparts p space gran id).recount

/-- The initiator still reads the granule the pager would map (R391). -/
def State.fillPending (s : State) (p space gran : Nat) : Bool :=
  match s.fillOf p space gran with
  | some (_, r) => r.data.isNone && !r.failed
  | none => false

/-- The granule is a mapped file's that has no frame, and nothing has been read for it (R391). -/
def State.fillNeeded (s : State) (p space gran : Nat) : Bool :=
  (Map.find (s.pkg p).pageCache (cacheKey space gran)).isSome && !s.granuleMapped p space gran && (s.fillOf p space gran).isNone

/-- PAGER_MAP (R369): the pager writes table entries for a granule; a mapped file granule is first read (R391), and a frame
that a TLB has still to give up is waited for (R370). Entries that would break
R87 or the order of R391 the pager does not write. -/
def execPagerMap (p space granule : Nat) (writes : List (Nat × Word)) (s : State) : Host.Outcome State Fault Refusal :=
  .next (
    let t := s.writeEntries space granule p writes
    if s.fillPending p space granule then s.dueOnce (.pagerMap p space granule writes)
    else if s.fillNeeded p space granule ∧ t.granuleMapped p space granule then
      (s.startFill p space granule).dueOnce (.pagerMap p space granule writes)
    else if !t.mayMap p space granule ∨ !s.dropsInOrder t p then s
    else if !s.mayUse t p space granule then s.dueOnce (.pagerMap p space granule writes)
    else s.pagerMaps p space granule writes)

/-- A saved slug whose fault was refused: its slot remembers it, so that its strand takes the trap once it is restored (R369). -/
def State.refuseSaved (s : State) (space gran : Nat) (err : Bool) (x : Slug × Nat × Nat) : State :=
  match s.slotOfSlug (galOf x.2.1) x.1 with
  | some (k, i) => (s.updCore k (fun y => { y with
      slots := Map.modify y.slots i {} (fun z => { z with refused := some (space, gran, err) }) })).pushSaved x
  | none => s.pushSaved x

/-- An access at its home whose page the pager refuses is refused with XLATE (R369). -/
def State.refuseAccess (s : State) (space gran : Nat) (err : Bool) (m : Msg) : State :=
  match m.parts.find? (fun q => !q.done) with
  | none => s
  | some q =>
    match s.homeOf m.src m.job m.kind.acc q.loc q.size with
    | .miss g sp va =>
      if sp = space ∧ va / 65536 = gran ∧ ¬ (s.die (dieOfGal g)).faulted space gran ∧ ¬ (s.die (dieOfGal g)).walking space gran then
        let info := m.kind.acc.code + refuseReason err * 16
        if s.agenda.contains (.memoryRequestAtHome m.id) then
          ({ s with agenda := s.agenda.filter (· ≠ Instr.memoryRequestAtHome m.id) }).refusePart m q causeXLATE info
        else if s.agenda.contains (.bankAluOperation m.id) then
          ({ s with agenda := s.agenda.filter (· ≠ Instr.bankAluOperation m.id) }).bankRefuse m q causeXLATE info
        else s
      else s
    | _ => s

/-- A feeder operation that waited for a granule of package p, its own or one behind a remote key, goes on with it refused: its code will be −1 (R369). -/
def State.refuseFeeders (s : State) (p space gran : Nat) : State :=
  { s with galleys := s.galleys.map (fun e => (e.1, { e.2 with feeder := e.2.feeder.map (fun o =>
    if o.2.wait == some (onPkg p space, gran) then
      (o.1, { o.2 with wait := none, refused := (onPkg p space, gran) :: o.2.refused })
    else o) })) }

/-- A REPART with a granule refused. -/
def RepOp.refuse (x : Nat × Nat) (o : RepOp) : RepOp := { o with wait := none, refused := x :: o.refused }

/-- REPARTs at the gathering that waited for a granule go on with it refused (R288). -/
def State.refuseGroups (s : State) (p space gran : Nat) : State :=
  let x := (onPkg p space, gran)
  { s with pkgs := s.pkgs.map (fun y => (y.1, { y.2 with groups := y.2.groups.map (fun e => (e.1, { e.2 with queue := e.2.queue.map (fun o =>
    if o.wait = some x then o.refuse x else o) })) })) }

/-- The pager refuses a fault: every context that waits will trap XLATE, engine operations end with −1 (R369). -/
def State.pagerRefuses (s : State) (p space gran : Nat) : State :=
  let fs := s.faultsOf p space gran
  let err := fs.any (·.ptErr)
  let s := ((s.clearFaults p space gran).dropFill p space gran).svcResume p space gran true
  let s := { s with agenda := s.agenda.filter (fun e => match e with
    | .pagerMap q sp gr _ => !(q == p && sp == space && gr == gran)
    | _ => true) }
  let s := (s.ctxs.map (·.1)).foldl (fun s c =>
    if pkgOf c = p ∧ (s.ctx c).wait = .fault space gran then s.updCtx c (fun x => { x with refused := some (space, gran, err) }) else s) s
  let s := (fs.flatMap (·.slugs)).foldl (fun s x => s.refuseSaved space gran err x) s
  let s := if fs = [] then s else s.net.foldl (fun s m => s.refuseAccess space gran err m) s
  let s := if fs = [] then s else (s.refuseFeeders p space gran).refuseGroups p space gran
  s.retryReparts p space gran (RepOp.refuse (onPkg p space, gran))

/-- A fault the pager may refuse: its granule is no mapped file's, or the file could not be read (R391). -/
def State.refusable (s : State) (p space gran : Nat) : Bool :=
  (Map.find (s.pkg p).pageCache (cacheKey space gran)).isNone ||
  (match s.fillOf p space gran with | some (_, r) => r.failed | none => false)

/-- PAGER_REFUSE (R369): the pager refuses a fault. -/
def execPagerRefuse (p space granule : Nat) (s : State) : Host.Outcome State Fault Refusal :=
  .next (if s.refusable p space granule then s.pagerRefuses p space granule else s)

end Sys2Proof.Machine
end

