-- ==== Sys2Proof/Machine/Impose.lean ====
section
/-! DEFINITION. The imposer (spec/03_queues.md R72 to R75; spec/14_assembler.md R319 to R324): the checks of an image and its graph,
the load of a package's share, the gang start, the replacement of a program, and the unload of a forme (R57). -/

namespace Sys2Proof.Machine

/-! ## The image (R319 to R324) -/

/-- The word of 4 bytes at an offset. -/
def word32At (bs : List Byte) (o : Nat) : Nat := recNat bs o 4

/-- n zero bytes at an offset. -/
def zerosAt (bs : List Byte) (o n : Nat) : Bool := recNat bs o n == 0

/-- n records of a size at an offset lie inside the image (R324). -/
def insideImage (img : List Byte) (o n size : Nat) : Bool := decide (o + n * size ≤ img.length)

/-- A word has major LIMZ, or LIMZ or LIMH (R176, R323). -/
def limWord (w : Nat) (both : Bool) : Bool := w / 2 ^ 25 == 74 || (both && w / 2 ^ 25 == 75)

/-- The segment a relocation patches. -/
def relocSegment (r : Reloc) (g : ProgImage) : List Byte := if r.inData then g.data else g.code

/-- The first halfword of an instruction word lies at the lower address (R151): the word's two halves as stored. -/
def swapHalves (w : Nat) : Nat := w % 65536 * 65536 + w / 65536 % 65536

/-- A relocation is one of the kinds of R323, lies inside its segment and patches a word of the right kind (R324). -/
def relocOk (img : FormeImage) (r : Reloc) : Bool :=
  match img.programs[r.prog]? with
  | none => false
  | some g =>
    let seg := relocSegment r g
    let dw : Bool := r.inData && decide (r.offset + 8 ≤ seg.length)
    let lim (both : Bool) : Bool := !r.inData && decide (r.offset + 4 ≤ seg.length) && limWord (swapHalves (word32At seg r.offset)) both
    match r.kind with
    | 1 => dw && decide (r.target < img.programs.length)
    | 2 | 3 | 4 | 5 => lim true && decide (r.target < img.programs.length)
    | 6 => lim false && decide (r.target < img.queues.length)
    | 7 => dw && decide (r.target < img.queues.length)
    | 8 => dw && decide (r.target < img.programs.length)
    | 9 => dw && r.target == 0 && r.addend == 0#64
    | _ => false

/-- An offset within code is even and inside it (R320, R324). -/
def codeOffset (g : ProgImage) (o : Nat) : Bool := o % 2 == 0 && decide (o < g.code.length)

/-- The entries, trap offsets and relocations are as they must be (R324). -/
def contentsOk (img : FormeImage) : Bool :=
  img.programs.all (fun g => codeOffset g g.entry && (match g.trapOff with | some o => codeOffset g o | none => true)) &&
  img.relocs.all (fun r => relocOk img r)

/-- The program a folio record at an offset is of (R322). -/
def folioProgram (img : List Byte) (r : Nat) : Nat := recNat img r 2

/-- A folio record at an offset (R322): the node, the code's start and end, the loop register. -/
def parseFolio (img : List Byte) (r : Nat) : Nat × Nat × Nat × Option Nat :=
  let l := recNat img (r + 2) 1
  (word32At img (r + 4), word32At img (r + 8), word32At img (r + 12), if l = 255 then none else some l)

/-- A relocation record of program i at an offset (R323). -/
def parseReloc (img : List Byte) (i r : Nat) : Reloc :=
  { prog := i, offset := word32At img r, kind := recNat img (r + 4) 1, inData := recNat img (r + 5) 1 == 1, target := recNat img (r + 6) 2
    addend := BitVec.ofNat 64 (recNat img (r + 8) 8) }

/-- The offsets of the folio records of the program record at r: tf is their table (R320). -/
def folioOffsets (img : List Byte) (tf r : Nat) : List Nat :=
  (List.range (word32At img (r + 44))).map (fun j => tf + 16 * (word32At img (r + 40) + j))

/-- The offsets of its relocation records: tr is their table. -/
def relocOffsets (img : List Byte) (tr r : Nat) : List Nat :=
  (List.range (word32At img (r + 36))).map (fun j => tr + 16 * (word32At img (r + 32) + j))

/-- A program record names what lies inside the image, and its zero fields are 0 (R320, R324). -/
def progFormat (img : List Byte) (nf tr r : Nat) : Bool :=
  insideImage img (word32At img r) (word32At img (r + 4)) 1 && insideImage img (word32At img (r + 8)) (word32At img (r + 12)) 1 &&
  recNat img (r + 22) 2 / 8 == 0 && zerosAt img (r + 27) 1 && zerosAt img (r + 30) 2 && zerosAt img (r + 52) 12 &&
  decide (word32At img (r + 40) + word32At img (r + 44) ≤ nf) &&
  (word32At img (r + 36) == 0 || insideImage img tr (word32At img (r + 32) + word32At img (r + 36)) 16)

/-- The record of program i at an offset, with its segments, and those of the folio records it names that are its own (R320, R322). -/
def parseProg (img : List Byte) (tf i r : Nat) : ProgImage :=
  let seg (o : Nat) : List Byte := (img.drop (word32At img (r + o))).take (word32At img (r + o + 4))
  let flags := recNat img (r + 22) 2
  let trap := word32At img (r + 48)
  { code := seg 0, data := seg 8, entry := word32At img (r + 16), instances := recNat img (r + 20) 2
    pinned := flags.testBit 0, platen := flags.testBit 1, condenser := flags.testBit 2
    gwin := recNat img (r + 24) 1, vwin := recNat img (r + 25) 1, dwin := recNat img (r + 26) 1, group := recNat img (r + 28) 2
    trapOff := if trap = 0xFFFFFFFF then none else some trap
    folios := ((folioOffsets img tf r).filter (fun o => folioProgram img o == i)).map (parseFolio img) }

/-- A queue record has an etype of R58 and the counts of R321, more than 8 consumers or any of a slug queue being for the graph's checks to
refuse (R73); its zero fields are 0 (R324; log entry 39). -/
def queueFormat (img : List Byte) (r : Nat) : Bool :=
  let et := recNat img r 1
  let np := recNat img (r + 1) 1
  decide (et ≤ 3) && decide (1 ≤ np) && decide (np ≤ 15) && (et == 3 || recNat img (r + 2) 1 != 0) &&
  zerosAt img (r + 3) 1 && zerosAt img (r + 7) 1 && zerosAt img (r + 9) 7 && zerosAt img (r + 46) 2

/-- A queue record at an offset (R321). -/
def parseQueue (img : List Byte) (r : Nat) : QueueImage :=
  let idx (o n : Nat) : List Half := (List.range n).map (fun j => BitVec.ofNat 16 (recNat img (r + o + 2 * j) 2))
  { etype := BitVec.ofNat 2 (recNat img r 1), cap := word32At img (r + 4), flow := recNat img (r + 8) 1
    producers := idx 16 (recNat img (r + 1) 1), consumers := idx 48 (min (recNat img (r + 2) 1) 8), ncons := recNat img (r + 2) 1 }

/-- The header says what R319 lays out: magic, version, the counts, the image's length, tables inside it, zero fields (R324). -/
def headerOk (img : List Byte) : Bool :=
  let w (o : Nat) : Nat := word32At img o
  decide (64 ≤ img.length) && w 0 == 0x464D4B53 && recNat img 4 2 == 1 && zerosAt img 6 2 && zerosAt img 20 4 && zerosAt img 44 20 &&
  decide (1 ≤ w 8) && decide (w 8 ≤ 65535) && decide (w 12 ≤ 65534) &&
  insideImage img (w 24) (w 8) 64 && insideImage img (w 28) (w 12) 64 && insideImage img (w 32) (w 16) 16 && insideImage img (w 36) 0 16

/-- The bytes of an image: as many as its header says. -/
def imageBytes (b : List Byte) : List Byte := b.take (word32At b 40)

/-- The contents of an image, unless it is to be refused (R319 to R324; that R319's alignment is not among the reasons, log entry 39). -/
def parseImage (b : List Byte) : Option FormeImage :=
  let img := imageBytes b
  let w (o : Nat) : Nat := word32At img o
  if !(headerOk img && decide (word32At b 40 ≤ b.length)) then none
  else
    let rp := (List.range (w 8)).map (fun i => w 24 + 64 * i)
    let rq := (List.range (w 12)).map (fun i => w 28 + 64 * i)
    if !(rp.all (progFormat img (w 16) (w 36)) && rq.all (queueFormat img)) then none
    else
      let rs := rp.zipIdx.flatMap (fun e => (relocOffsets img (w 36) e.1).map (fun r => (e.2, r)))
      let f : FormeImage := { programs := rp.zipIdx.map (fun e => parseProg img (w 32) e.2 e.1), queues := rq.map (parseQueue img),
                              relocs := rs.map (fun e => parseReloc img e.1 e.2) }
      if (List.range (w 16)).all (fun j => zerosAt img (w 32 + 16 * j + 3) 1) &&
          rs.all (fun e => decide (recNat img (e.2 + 5) 1 ≤ 1)) && contentsOk f then some f
      else none

/-- A well-formed image (R324). -/
def imageOk (b : List Byte) : Bool := (parseImage b).isSome

/-! ## The checks of the graph (R73, R79) -/

/-- A consumer set is bad: more than 8, on a slug queue, or the host on a queue that is not of words (R73, R79, R340). -/
def hasBadConsumers (q : QueueImage) : Bool :=
  decide (8 < q.ncons) || (q.etype == 3#2 && decide (q.ncons ≠ 0)) || (q.etype != 0#2 && q.consumers.contains 0xFFFE#16)

/-- The first queue with a bad consumer set. -/
def badConsumer (qs : List (QueueImage × Nat)) : Option (QueueImage × Nat) := qs.find? (fun q => hasBadConsumers q.1)

/-- The programs one step of zero-capacity queues takes a set of programs to. -/
def zeroStep (qs : List QueueImage) (ps : List Half) : List Half :=
  (qs.flatMap (fun q => if q.cap = 0 ∧ q.producers.any (fun p => ps.contains p) = true then q.consumers else [])).eraseDups

/-- The length of the shortest cycle of zero-capacity queues that returns to one of the producers `goal`, looking n queues far. -/
def zeroCycle (qs : List QueueImage) (goal : List Half) : Nat → Nat → List Half → Option Nat
  | 0, _, _ => none
  | n + 1, d, ps => if ps.any (fun p => goal.contains p) then some d else zeroCycle qs goal n (d + 1) (zeroStep qs ps)

/-- The first queue that lies on a cycle of queues whose capacities sum to 0, and the cycle's length (R73). -/
def imageCycle (img : FormeImage) : Option (Nat × Nat) :=
  img.queues.zipIdx.findSome? (fun (q, i) =>
    if q.cap ≠ 0 then none
    else (zeroCycle img.queues q.producers (img.programs.length + 1) 1 q.consumers).map (fun n => (i, n)))

/-- The cores the plan gives the instances of a program. -/
def planCores (pl : FormePlan) (i : Nat) : List Nat := (pl.places.filter (fun e => e.1 == i)).map (·.2)

/-- A compute core the grid map lists as usable, or a service core it lists as free (R73, R345). -/
def State.usable (s : State) (k : Nat) : Bool :=
  let die := k / 512 % 8
  !(s.pkg (k / 4096)).mappedOut.contains (k / 32 % 128) &&
    (decide (die < 4) || (die == 4 && decide (k / 32 % 16 < 2) && (Config.serviceFree (k / 4096)).getLsbD (k % 64)))

/-- A core can serve a program (R12, R73): a usable core of the placement, a compute core when it needs a platen or condenser. -/
def State.coreServes (s : State) (pl : FormePlan) (g : ProgImage) (k : Nat) : Bool :=
  pl.packages.contains (k / 4096) && s.usable k && (decide (k / 512 % 8 < 4) || (!g.platen && !g.condenser))

/-- The windows of the instances a plan places on core k fit beside the keeper's (R16, R19). -/
def coreFits (img : FormeImage) (pl : FormePlan) (k : Nat) : Bool :=
  let gs := (pl.places.filter (fun e => e.2 == k)).filterMap (fun e => img.programs[e.1]?)
  let sum (f : ProgImage → Nat) : Nat := gs.foldl (fun n g => n + f g) 0
  decide (gs.length ≤ 15) && decide (sum (·.gwin) ≤ 1920) && decide (sum (·.vwin) ≤ 480) && decide (sum (·.dwin) ≤ 64)

/-- A program's instances that the plan places as R73 asks. -/
def State.placedInstances (s : State) (img : FormeImage) (pl : FormePlan) (i : Nat) (g : ProgImage) : Nat :=
  ((planCores pl i).filter (fun k => s.coreServes pl g k && coreFits img pl k)).length

/-- The programs of a core group share their cores (R72, R73). -/
def groupShares (img : FormeImage) (pl : FormePlan) (i : Nat) (g : ProgImage) : Bool :=
  g.group == 0 || img.programs.zipIdx.all (fun (h, j) => h.group != g.group || !h.pinned ||
    ((planCores pl j).all (fun k => (planCores pl i).contains k) && (planCores pl i).all (fun k => (planCores pl j).contains k)))

/-- Some core of the placement can serve a pooled program (R73). -/
def State.poolServes (s : State) (pl : FormePlan) (g : ProgImage) : Bool :=
  pl.packages.any (fun p => (List.range 66).any (fun j => (List.range 32).any (fun c => s.coreServes pl g (p * 4096 + j * 32 + c))))

/-- The first program whose demands exceed the grid, with its instances placed (R73). -/
def State.exceedsGrid (s : State) (img : FormeImage) (pl : FormePlan) : Option (Nat × Nat) :=
  img.programs.zipIdx.findSome? (fun (g, i) =>
    let n := s.placedInstances img pl i g
    if (if g.pinned then decide (n < g.instances) || !groupShares img pl i g else !s.poolServes pl g) then some (i, n) else none)

/-- The cause, and what its status record says of program, a0 and a1, of a rejection (R73, R78, R79): a disagreement of types is one the
imposer has found (log entry 39). -/
def State.rejection (s : State) (img : FormeImage) (pl : FormePlan) : Option (Nat × BitVec 32 × Nat × Nat) :=
  let handle (i : Nat) : Nat := pl.handles.getD i 0
  let prog (i : Nat) : BitVec 32 := BitVec.ofNat 32 (pl.forme * 65536 + i)
  match badConsumer img.queues.zipIdx with
  | some (q, i) => some (0x13, 0#32, handle i, q.ncons)
  | none =>
    match pl.clash with
    | some (q, i) => some (0x12, prog i, handle q, i)
    | none =>
      match imageCycle img with
      | some (i, n) => some (0x10, 0#32, handle i, n)
      | none => (s.exceedsGrid img pl).map (fun e => (0x11, prog e.1, e.1, e.2))

/-! ## Queue homes (R71, R73) -/

/-- An initial slug from its eight doublewords. -/
def slugOfWords (ws : List Word) : Slug :=
  let w (i : Nat) : Word := ws.getD i 0#64
  ⟨w 0, w 1, w 2, w 3, w 4, w 5, w 6, w 7⟩

/-- The lowest-ranked of some packages (R74). -/
def leastOf (ps : List Nat) : Nat := ps.foldl min (ps.headD 0)

/-- A home as the plan gives it. -/
def planHome (pl : FormePlan) (i : Nat) : Nat × Nat × Nat := pl.homes.getD i (leastOf pl.packages, 0, 0)

/-- The programs whose initial slugs go to queue i. -/
def runsIn (pl : FormePlan) (i : Nat) : List Nat :=
  ((pl.slugs.map slugOfWords).filter (fun l => l.squeue.toNat == pl.handles.getD i 0)).map (fun l => l.program.toNat % 65536)

/-- A galley can run the pooled programs of strand queue i (R73). -/
def State.galleyServes (s : State) (img : FormeImage) (pl : FormePlan) (i : Nat) (h : Nat × Nat × Nat) : Bool :=
  let k := h.1 * 4096 + h.2.1 * 512 + h.2.2 * 32
  (List.range 32).any (fun c => pl.packages.contains h.1 && decide (h.2.2 < 16) && s.usable (k + c)) &&
    (runsIn pl i).all (fun j => match img.programs[j]? with
      | some g => decide (h.2.1 < 4) || (!g.platen && !g.condenser)
      | none => true)

/-- The home of a strand queue: the plan's galley when it can run the program, else the first of the placement that can (R73). -/
def State.slugQueueHome (s : State) (img : FormeImage) (pl : FormePlan) (i : Nat) : Nat × Nat × Nat :=
  let h := planHome pl i
  if s.galleyServes img pl i h then h
  else ((pl.packages.flatMap (fun p => (List.range 66).map (fun g => (p, g / 16, g % 16)))).find? (fun h => s.galleyServes img pl i h)).getD h

/-- The dies on which the instances of program j run: those of its pinned instances, or of the galleys of the strand queues its initial
slugs go to (R73). -/
def State.diesOf (s : State) (img : FormeImage) (pl : FormePlan) (j : Nat) : List (Nat × Nat) :=
  match img.programs[j]? with
  | none => []
  | some g =>
    if g.pinned then (planCores pl j).map (fun k => (k / 4096, k / 512 % 8))
    else (List.range img.queues.length).filterMap (fun i =>
      if (runsIn pl i).contains j then
        let h := s.slugQueueHome img pl i
        some (h.1, h.2.1)
      else none)

/-- The home of queue i, with a galley only when it is of slugs (R57, R71, R73): on the die of consumer 0, which of several being the plan's choice. -/
def State.queueHome (s : State) (img : FormeImage) (pl : FormePlan) (q : QueueImage) (i : Nat) : Nat × Nat × Nat :=
  if q.etype = 3#2 then s.slugQueueHome img pl i
  else
    let h := planHome pl i
    match s.diesOf img pl (q.consumers.headD 0xFFFF#16).toNat with
    | [] => (h.1, h.2.1, 0)
    | d :: r => if (d :: r).contains (h.1, h.2.1) then (h.1, h.2.1, 0) else (d.1, d.2, 0)

/-- The plan with the homes the imposer gives the queues. -/
def State.homed (s : State) (img : FormeImage) (pl : FormePlan) : FormePlan :=
  { pl with homes := img.queues.zipIdx.map (fun e => s.queueHome img pl e.1 e.2) }

/-! ## The imposition cache (R73) -/

/-- n bits as bytes, from one truth for each. -/
def bitBytes (n : Nat) (f : Nat → Bool) : List Byte := leBytes (n / 8) (bitsNat f n)

/-- The grid map: of each package of the placement its usable compute cores, its free service cores and the links given up (R73, R345). -/
def State.gridMap (s : State) (ps : List Nat) : List Byte :=
  ps.flatMap (fun p => bitBytes 2048 (fun i => s.usable (p * 4096 + i)) ++ bitBytes 64 (fun i => s.usable (p * 4096 + 2048 + i)) ++
    bitBytes 16 (fun l => (s.pkg p).lostLinks.contains l))

/-- The name of an imposition: the SHA-384 of the image followed by the grid map (R73, R350). -/
def State.imposition (s : State) (b : List Byte) (pl : FormePlan) : BitVec 384 := Config.sha384 (imageBytes b ++ s.gridMap pl.packages)

/-! ## Relocation (R323) -/

/-- The address a relocation of kind 1 to 5 names. -/
def relocAddress (r : Reloc) (pl : FormePlan) : Nat :=
  let o := r.addend.toNat % 2 ^ 63
  (if r.addend.getLsbD 63 then (pl.dataAt.getD r.target 0#64).toNat else (pl.codeAt.getD r.target 0#64).toNat) + o

/-- The value of a relocation. -/
def relocValue (r : Reloc) (pl : FormePlan) : Nat :=
  match r.kind with
  | 1 => relocAddress r pl
  | 2 | 3 | 4 | 5 => relocAddress r pl / 2 ^ (16 * (r.kind - 2)) % 65536
  | 6 | 7 => pl.handles.getD r.target 0
  | 8 => pl.forme * 65536 + r.target
  | _ => pl.quiesceAt.toNat

/-- Bytes with some of them replaced. -/
def patchBytes (bs : List Byte) (o : Nat) (p : List Byte) : List Byte := bs.take o ++ p ++ bs.drop (o + p.length)

/-- A relocation applied to its segment: a doubleword of data, or the imm16 of an instruction word, its second halfword. -/
def relocPatch (r : Reloc) (pl : FormePlan) (bs : List Byte) : List Byte :=
  if r.inData then patchBytes bs r.offset (leBytes 8 (relocValue r pl)) else patchBytes bs (r.offset + 2) (leBytes 2 (relocValue r pl))

/-- A segment of program i with its relocations. -/
def relocated (img : FormeImage) (pl : FormePlan) (i : Nat) (data : Bool) (bs : List Byte) : List Byte :=
  (img.relocs.filter (fun r => r.prog == i && r.inData == data)).foldl (fun bs r => relocPatch r pl bs) bs

/-! ## The load of a package's share (R73, R319) -/

/-- The entry that maps a granule is written where the tables have a level-0 table for it (R366, R367). -/
def State.mapGranule (s : State) (p job va : Nat) (e : Word) : State :=
  let slot : List (Nat × Nat) → Nat → Option Nat := fun ls t0 =>
    ls.foldl (fun (t : Option Nat) l =>
      match t with
      | none => none
      | some t =>
        let x := BitVec.ofNat 64 (s.load (physKey p (t + va / 2 ^ l.1 % l.2 * 8)) 8)
        if leafValid x && !leafLeaf x then some (leafAddr x) else none) (some t0)
  match Map.find s.jobs (p * 65536 + job) with
  | none => s
  | some root =>
    match slot [(42, 4096), (30, 4096), (21, 512)] root with
    | none => s
    | some t => s.setBytes (physKey p (t + va / 65536 % 32 * 8)) (leBytes 8 e.toNat)

/-- A segment is mapped and its bytes stored (R319): read-only code, read-write data. -/
def State.mapSegment (s : State) (p job va pa : Nat) (bs : List Byte) (wr : Bool) : State :=
  let flags : Word := if wr then 0xF000000000000000#64 else 0xE000000000000000#64
  let s := (List.range ((va % 65536 + bs.length + 65535) / 65536)).foldl (fun s i =>
    s.mapGranule p job (va / 65536 * 65536 + i * 65536) (flags ||| BitVec.ofNat 64 (pa / 65536 * 65536 + i * 65536))) s
  s.setBytes (physKey p pa) bs

/-- n pages of a spill ring become engine-only, and no TLB holds them as they were (R68, R370). -/
def State.takePages (s : State) (p job va : Nat) : Nat → State
  | 0 => s
  | n + 1 =>
    let s := match s.walk p job va with
      | .leaf base _ k e => (s.setBytes k (leBytes 8 (e ||| 0x0800000000000000#64).toNat)).dropPage p job base
      | .fault _ => s
    s.takePages p job (va + 65536) n

/-- Whether a queue's capacity exceeds its segment (R66, R68). -/
def queueSpills (q : QueueImage) : Bool := if q.etype == 0#2 then decide (64 < q.cap) else decide (12 < q.cap)

/-- A queue's descriptor is written; its home holds it while there is room (R57, R66, R73). -/
def State.writeQueue (s : State) (key : Nat) (q : QueueImage) (home : Nat × Nat × Nat) (owner ring : Nat) : State :=
  let d := home.1 * 8 + home.2.1
  let room : Bool := decide ((s.die d).resident.length < residentMax)
  let x : Queue :=
    { valid := true, etype := q.etype, flow := q.flow, cap := q.cap, homePkg := home.1, homeDie := home.2.1
      homeGal := if q.etype = 3#2 then home.2.2 else 0, owner := BitVec.ofNat 16 owner, ring := if queueSpills q then ring else 0
      producers := q.producers, consumers := q.consumers, resident := room }
  let s := s.setQueue key x
  if room then s.updDie d (fun y => { y with resident := y.resident.filter (· ≠ key) ++ [key] }) else s

/-- The queues of a forme, once for its placement; the status queue, a record queue without a producer or consumer among the
programs (R78; log entry 40). -/
def State.writeQueues (s : State) (img : FormeImage) (pl : FormePlan) (homes : List (Nat × Nat × Nat)) : State :=
  let s := img.queues.zipIdx.foldl (fun s (q, i) =>
    s.writeQueue (pl.job * 65536 + pl.handles.getD i 0) q (homes.getD i (0, 0, 0)) pl.forme (pl.rings.getD i 0)) s
  if pl.statusQ = 0 ∨ (s.queue (pl.job * 65536 + pl.statusQ)).valid = true then s
  else s.writeQueue (pl.job * 65536 + pl.statusQ) ⟨2#2, 12, 0, [], [0xFFFE#16], 1⟩ (leastOf pl.packages, 4, 0) pl.forme 0

/-- A level record comes to be, with its parent (R46). -/
def State.newLevel (s : State) (l parent live home : Nat) : State :=
  s.setLevel l { known := true, parent := parent, live := BitVec.ofNat 32 live, home := home }

/-- A level record is there and not final. -/
def Level.open_ (l : Level) : Bool := l.known && !l.final

/-- A level's record lies on the lowest-ranked package that holds a part of it (R419). -/
def State.lowerHome (s : State) (l home : Nat) : State := s.setLevel l { s.level l with home := min (s.level l).home home }

/-- A level that holds one more child; it comes to be with its first, and anew when the old record is final (R46, R419). -/
def State.addChild (s : State) (l parent home : Nat) : State :=
  if (s.level l).open_ then (s.setLevel l { s.level l with live := (s.level l).live + 1 }).lowerHome l home
  else s.newLevel l parent 1 home

/-- The level records of a forme, its run and its job (R46 to R48, R419): a program counts its initial slugs (DESIGN CHOICE, log entry 71),
the forme one live count a program. -/
def State.writeLevels (s : State) (img : FormeImage) (pl : FormePlan) : State :=
  let home := leastOf pl.packages
  let f := levelKey 2 pl.forme
  let r := levelKey 3 pl.run
  let j := levelKey 4 pl.job
  let s := if (s.level r).open_ then s.lowerHome j home else s.addChild j 0 home
  let s := (s.addChild r j home).newLevel f r img.programs.length home
  (List.range img.programs.length).foldl (fun s i =>
    let h := pl.forme * 65536 + i
    s.newLevel (levelKey 1 h) f ((pl.slugs.map slugOfWords).filter (fun l => l.program.toNat == h)).length home) s

/-- The queues program i consumes, or produces: their handles; strand queues are none of them (R54, R75; log entry 68). -/
def queuesOf (img : FormeImage) (pl : FormePlan) (i : Nat) (consumes : Bool) : List Nat :=
  (img.queues.zipIdx.filter (fun e =>
    e.1.etype != 3#2 && (if consumes then e.1.consumers else e.1.producers).contains (BitVec.ofNat 16 i))).map (fun e => pl.handles.getD e.2 0)

/-- The record of loaded program i. -/
def progRecord (img : FormeImage) (pl : FormePlan) (i : Nat) (g : ProgImage) (codeAt : Word) : Program :=
  { codeAt := codeAt, entry := g.entry, pinned := g.pinned, gwin := g.gwin, vwin := g.vwin, dwin := g.dwin, instances := g.instances,
    trapVec := (match g.trapOff with | some o => codeAt + BitVec.ofNat 64 o | none => 0#64),
    toStart := if g.pinned then planCores pl i else [],
    inputs := queuesOf img pl i true, outputs := queuesOf img pl i false, folios := g.folios }

/-- The program records of a forme. -/
def State.writePrograms (s : State) (img : FormeImage) (pl : FormePlan) : State :=
  img.programs.zipIdx.foldl (fun s (g, i) =>
    s.updProgram (pl.forme * 65536 + i) (fun _ => progRecord img pl i g (pl.codeAt.getD i 0#64))) s

/-- The code and data of a forme's programs on package p. -/
def State.writeSegments (s : State) (p : Nat) (img : FormeImage) (pl : FormePlan) : State :=
  let s := { s with jobs := Map.set s.jobs (p * 65536 + pl.job) ((Map.find s.jobs (p * 65536 + pl.job)).getD pl.root) }
  let s := pl.tables.foldl (fun s w => s.setBytes (physKey p w.1) (leBytes 8 w.2.toNat)) s
  img.programs.zipIdx.foldl (fun s (g, i) =>
    let s := s.mapSegment p pl.job (pl.codeAt.getD i 0#64).toNat (pl.codePhys.getD i 0) (relocated img pl i false g.code) false
    if g.data = [] then s
    else s.mapSegment p pl.job (pl.dataAt.getD i 0#64).toNat (pl.dataPhys.getD i 0) (relocated img pl i true g.data) true) s

/-- The spill rings of the forme's queues that are homed on package p become engine-only there (R68). -/
def State.takeRings (s : State) (p : Nat) (img : FormeImage) (pl : FormePlan) : State :=
  (List.range img.queues.length).foldl (fun s i =>
    let x := s.queue (pl.job * 65536 + pl.handles.getD i 0)
    if x.ring ≠ 0 ∧ x.homePkg = p then s.takePages p pl.job x.ring x.ringPages else s) s

/-- The quiesce word, in the memory of the lowest-ranked package, holds 0 until a replacement (R75). -/
def State.clearQuiesce (s : State) (p : Nat) (pl : FormePlan) : State :=
  if p ≠ leastOf pl.packages then s
  else match s.walkCell p pl.job pl.quiesceAt.toNat with
    | some (k, _) => s.setBytes k (leBytes 8 0)
    | none => s

/-- The request queues the services of the queues' home packages are given (R388, R396; log entry 48). -/
def State.giveServices (s : State) (pl : FormePlan) : State :=
  pl.services.foldl (fun s e =>
    let h := pl.handles.getD e.2 0
    s.updPkg (s.queue (pl.job * 65536 + h)).homePkg (fun x => { x with services := Map.set x.services (pl.job * 4 + e.1) h })) s

/-- The package on which the strand queue of a slug is homed. -/
def State.slugHome (s : State) (job : Nat) (l : Slug) : Nat := (s.queue (job * 65536 + l.squeue.toNat)).homePkg

/-- The initial slugs of a forme that package p starts: each, counted at the load, is pushed to its strand queue (R48, R74). -/
def State.startSlugs (s : State) (p job : Nat) (ls : List Slug) : State :=
  ls.foldl (fun s l => s.machinePush (p * 65536 + 4 * 8192) l.program (job * 65536 + l.squeue.toNat)
    { cls := l.prio, payload := l.bits, stamp := (s.die (p * 8 + 4)).clock }) s

/-- The gang tick the lowest-ranked package chooses: the plan's when it lies 200,000 ns ahead of its TIME, else that (R74). -/
def State.gangTick (s : State) (pl : FormePlan) (t : Word) : Word :=
  let p := leastOf pl.packages
  if 200000 ≤ dist (t.setWidth 48) (s.time p) then t else (s.time p + 200000#48).setWidth 64

/-- The 64 impositions a package remembers, the latest first (R73). -/
def remember (l : List (BitVec 384 × List (Nat × Nat) × List (Nat × Nat × Nat))) (d : BitVec 384) (pl : List (Nat × Nat))
    (hs : List (Nat × Nat × Nat)) : List (BitVec 384 × List (Nat × Nat) × List (Nat × Nat × Nat)) :=
  ((d, pl, hs) :: l.filter (fun e => e.1 != d)).take 64

/-- The plan with the placements of the cached imposition of a name, which is repeated exactly, or with the homes the imposer now gives
(R73). -/
def State.placed (s : State) (p : Nat) (key : BitVec 384) (img : FormeImage) (pl : FormePlan) : FormePlan :=
  match (s.pkg p).impose.find? (fun e => e.1 == key) with
  | some (_, places, homes) => { pl with places := places, homes := homes }
  | none => s.homed img pl

/-- The forme's own records, written with the first share that is loaded (R73, R46). -/
def State.formeRecords (s : State) (img : FormeImage) (pl : FormePlan) (n : Nat) : State :=
  if (s.forme pl.forme).loaded then s
  else
    let s := (((s.writeQueues img pl pl.homes).writeLevels img pl).writePrograms img pl).giveServices pl
    let t := if pl.packages.length ≤ 1 then none else some (s.gangTick pl (pl.gang.getD 0#64))
    let x : Forme :=
      { job := BitVec.ofNat 16 pl.job, run := BitVec.ofNat 16 pl.run, nprog := img.programs.length, statusQ := pl.statusQ
        quiesceAt := pl.quiesceAt, packages := pl.packages, gang := t, loaded := true, number := n }
    s.updForme pl.forme (fun _ => x)

/-- The start of a loaded share: at once on one package, else at the gang tick, for which the package reports ready (R74). -/
def State.startShare (s : State) (p : Nat) (pl : FormePlan) : State :=
  let ls := (pl.slugs.map slugOfWords).filter (fun l => s.slugHome pl.job l == p)
  match (s.forme pl.forme).gang with
  | none => s.startSlugs p pl.job ls
  | some _ =>
    let s := s.updForme pl.forme (fun f => { f with pending := f.pending ++ ls.map (fun l => (p, l)) })
    (s.due (.gangReadyReport pl.forme p)).dueOnce (.gangReadyDeadline pl.forme)

/-- A forme that is rejected still has its status queue, for the record (R73, R78). -/
def State.reject (s : State) (p : Nat) (pl : FormePlan) (r : Nat × BitVec 32 × Nat × Nat) : State :=
  let s := if (s.forme pl.forme).loaded then s
    else (s.writeQueues ⟨[], [], []⟩ pl []).updForme pl.forme (fun f => { f with job := BitVec.ofNat 16 pl.job, statusQ := pl.statusQ })
  s.pushStatus p pl.forme r.1 r.2.1 (BitVec.ofNat 64 r.2.2.1) (BitVec.ofNat 64 r.2.2.2)

/-- The share of package p of a forme that is placed: its records, segments, rings and quiesce word, and its start (R73, R74). -/
def State.loadShare (s : State) (p : Nat) (key : BitVec 384) (b : List Byte) (img : FormeImage) (pl : FormePlan) : State :=
  let n := (s.pkg p).loads + 1
  let s := s.updPkg p (fun x => { x with
    impose := remember x.impose key pl.places pl.homes, loads := n, lastImage := Config.sha384 (imageBytes b) })
  let s := (((s.formeRecords img pl n).writeSegments p img pl).takeRings p img pl).clearQuiesce p pl
  (s.startShare p pl).emit (.loadDone p key)

/-- The imposer of package p loads its share of a forme (R73, R319, R324): a malformed image ends with −7 and loads nothing, a graph
that fails is rejected with a status record. -/
def State.formeLoad (s : State) (p : Nat) (b : List Byte) (pl : FormePlan) : State :=
  match parseImage b with
  | none => s.emit (.answer p (-7))
  | some img =>
    let key := s.imposition b pl
    let pl := s.placed p key img pl
    match s.rejection img pl with
    | some r => s.reject p pl r
    | none => s.loadShare p key b img pl

/-- FORME_LOAD (R73): the imposer of package p loads an image by the plan given. -/
def execFormeLoad (p : Nat) (img : List Byte) (plan : FormePlan) (s : State) : Host.Outcome State Fault Refusal :=
  .next (s.formeLoad p img plan)

/-! ## The gang start (R74, R408) -/

/-- The deadline of a forme's gang tick, 10,000 ns before it, has passed, by the TIME of its lowest-ranked package (R74). -/
def State.tooLate (s : State) (f : Nat) : Bool :=
  match (s.forme f).gang with
  | some t => decide (dist ((t - 10000#64).setWidth 48) (s.time (leastOf (s.forme f).packages)) < 0)
  | none => false

/-- GANG_READY_REPORT (R74): package p reports ready for forme f; a first report after the deadline holds the tick in force back. -/
def execGangReadyReport (f p : Nat) (s : State) : Host.Outcome State Fault Refusal :=
  .next (s.updForme f (fun x =>
    if x.ready.contains p then x
    else { x with ready := x.ready ++ [p], tardy := if x.tardy.isNone && s.tooLate f then some p else x.tardy }))

/-- The first package that keeps a gang start back: ready too late, not ready, or unsynchronised (R74, R408). -/
def State.holdsBack (s : State) (f : Nat) : Option Nat :=
  let x := s.forme f
  x.tardy.or (x.packages.find? (fun p => !x.ready.contains p || !(s.pkg p).synced))

/-- A new gang tick of forme f: 200,000 ns ahead of the TIME of package h, with its own deadline; what was due at the old one is not (R74). -/
def State.newGang (s : State) (f h : Nat) : State :=
  let s := { s with agenda := s.agenda.filter (fun e => match e with | .gangStartTick g _ => g != f | _ => true) }
  (s.updForme f (fun y => { y with gang := some ((s.time h + 200000#48).setWidth 64), tardy := none })).dueOnce (.gangReadyDeadline f)

/-- The gang start of forme f is withdrawn for package p: a status record with the tick and the rank, and a new tick (R74, R408). -/
def State.withdrawGang (s : State) (f p : Nat) : State :=
  let x := s.forme f
  let h := leastOf x.packages
  (s.pushStatus h f 0x14 0#32 (x.gang.getD 0#64) (BitVec.ofNat 64 p)).newGang f h

/-- 10,000 ns before the tick (R74): every package begins at T, or the start is withdrawn and a new T chosen. -/
def State.gangDeadline (s : State) (f : Nat) : State :=
  let x := s.forme f
  match x.gang with
  | none => s
  | some _ =>
    match s.holdsBack f with
    | none => x.packages.foldl (fun s p => s.due (.gangStartTick f p)) s
    | some p => s.withdrawGang f p

/-- GANG_READY_DEADLINE (R74). -/
def execGangReadyDeadline (f : Nat) (s : State) : Host.Outcome State Fault Refusal := .next (s.gangDeadline f)

/-- A forme has not begun on any package, and a package of its placement is unsynchronised (R408). -/
def State.withheld (s : State) (f : Nat) : Bool :=
  (s.forme f).started == [] && (s.forme f).packages.any (fun p => !(s.pkg p).synced)

/-- GANG_START_TICK (R74, R408): package p's TIME has reached forme f's gang tick; its starts begin. -/
def execGangStartTick (f p : Nat) (s : State) : Host.Outcome State Fault Refusal :=
  .next (
    let x := s.forme f
    if x.started.contains p || !x.loaded || s.withheld f then s
    else (s.updForme f (fun y => { y with started := y.started ++ [p], pending := y.pending.filter (fun e => e.1 != p) })).startSlugs p
      x.job.toNat ((x.pending.filter (fun e => e.1 == p)).map (·.2)))

/-! ## The replacement of a program (R75) -/

/-- PROGRAM_REPLACEMENT (R75): the imposer writes mark k to the quiesce word of the program's forme. -/
def execProgramReplacement (prog : BitVec 32) (k : BitVec 32) (s : State) : Host.Outcome State Fault Refusal :=
  .next (
    let f := s.forme (prog.toNat / 65536)
    let p := leastOf f.packages
    match s.walkCell p f.job.toNat f.quiesceAt.toNat with
    | none => s
    | some (cell, _) =>
      let d := p * 8 + 4
      (s.putAll d (s.die d).clock [(f.quiesceAt.toNat, cell, leBytes 8 k.toNat)]).1.updProgram prog.toNat (fun x => { x with quiesced := some k }))

/-- Some queues of a job as a program declares them: handle, etype and cap (R75). -/
def State.declares (s : State) (job : Nat) (hs : List Nat) : List (Nat × BitVec 2 × Nat) :=
  hs.map (fun h => (h, (s.queue (job * 65536 + h)).etype, (s.queue (job * 65536 + h)).cap))

/-- A new program declares what program `prog` did (R75): its queues, its instances, its kind. -/
def State.replaceable (s : State) (prog : Nat) (g : NewProgram) : Bool :=
  let x := s.program prog
  let job := (s.forme (prog / 65536)).job.toNat
  g.inputs.isPerm (s.declares job x.inputs) && g.outputs.isPerm (s.declares job x.outputs) && x.instances == g.prog.instances &&
    x.pinned == g.prog.pinned

/-- Program P has taken mark k from a queue, or its colophon, behind which nothing comes. -/
def Queue.marksTo (x : Queue) (P : Half) (k : BitVec 32) : Bool := x.marked.contains (P, k) || x.endTaken.contains P

/-- Mark k has reached every sink of forme f, a program without outputs or a feeder bound as consumer, on each of its inputs (R54, R75). -/
def State.markReached (s : State) (f : Nat) (k : BitVec 32) : Bool :=
  let job := (s.forme f).job.toNat
  s.programs.all (fun e => e.1 / 65536 != f || e.2.outputs != [] ||
    e.2.inputs.all (fun h => (s.queue (job * 65536 + h)).marksTo (BitVec.ofNat 16 e.1) k)) &&
  s.galleys.all (fun g => g.2.feeder.all (fun o => match o.2.kind with
    | .bind q _ => o.2.prog.toNat / 65536 != f || (s.queue q).marksTo (o.2.prog.setWidth 16) k
    | .copy _ => true))

/-- Every instance of a program has suspended: no strand of it runs, is saved, migrates or waits with the pager, and no store of it is
unacknowledged (R75; DEDUCED, log entry 41: a fresh slug takes the place of a suspension slug). -/
def State.suspended (s : State) (prog : BitVec 32) : Bool :=
  !s.ctxs.any (fun e => (e.2.cond == .pinned || e.2.cond == .pooled) && e.2.program == prog) &&
  !s.cores.any (fun k => k.2.slots.any (fun e => e.2.used && e.2.program == prog)) &&
  !s.galleys.any (fun g => g.2.migr.any (fun m => m.1.program == prog)) &&
  !s.dies.any (fun d => d.2.faults.any (fun f => f.slugs.any (fun x => x.1.program == prog))) &&
  !s.net.any (fun m => m.prog == prog && m.posted != 0)

/-- The fresh slug that takes the place of a suspension slug (R75, R258): the new entry and windows; deadline, class, program and queue
stay, the live values are 0 (log entry 41); that of a pinned instance is to be resumed by CSTART. -/
def freshSlug (l : Slug) (g : ProgImage) (codeAt : Word) : Slug :=
  let pc := codeAt.toNat + g.entry
  { dw0 := BitVec.ofNat 64 ((if g.pinned then 2 ^ 63 else 0) + g.dwin % 8 * 2 ^ 60 + g.vwin / 2 % 16 * 2 ^ 56 + g.gwin * 2 ^ 48 + pc % 2 ^ 48),
    dw1 := l.dw1, dw2 := BitVec.ofNat 64 ((if g.pinned then 2 ^ 48 else 0) + l.squeue.toNat * 2 ^ 32 + l.program.toNat) }

/-- An entry of a strand queue with the suspension slug of a program replaced. -/
def QEntry.refresh (e : QEntry) (prog : BitVec 32) (g : ProgImage) (codeAt : Word) : QEntry :=
  if (slugOf e.payload).program = prog then { e with payload := (freshSlug (slugOf e.payload) g codeAt).bits } else e

/-- The suspension slugs of a program in the strand queues, and on their way to one, are replaced by fresh ones (R75). -/
def State.refreshQueues (s : State) (prog : BitVec 32) (g : ProgImage) (codeAt : Word) : State :=
  let slug (q : Queue) : Queue := if q.etype = 3#2 then { q with entries := q.entries.map (fun e => e.refresh prog g codeAt) } else q
  let sent (m : Msg) : Msg := match m.kind with
    | .push q e => if (s.queue q).etype = 3#2 then { m with kind := .push q (e.refresh prog g codeAt) } else m
    | _ => m
  { s with net := s.net.map sent, queues := s.queues.map (fun e => (e.1, slug e.2)) }

/-- The suspension slug of a pinned instance, at the place it was stored to, is replaced by a fresh one (R75). -/
def State.refreshPinned (s : State) (p : Nat) (job : Half) (g : ProgImage) (codeAt : Word) (l : Loc) : State :=
  match s.homeOf (p * 65536) job .store (match l with | .priv c o => .owned c o | .local c o => .cell (lsKey c o) | l => l) 64 with
  | .cell k =>
    let old := slugOf (BitVec.ofNat 512 (s.load k 64))
    s.setBytes k (leBytes 64 (freshSlug old g codeAt).bits.toNat)
  | _ => s

/-- The new code is written where the job's tables map it (R75). -/
def State.writeCode (s : State) (p job va : Nat) (bs : List Byte) : State :=
  bs.zipIdx.foldl (fun s (b, i) => match s.walkCell p job (va + i) with
    | some (k, _) => s.setBytes k [b]
    | none => s) s

/-- The region is drained (R75): the new program is checked, and installed or refused with cause 0x15. -/
def State.installProgram (s : State) (prog k : BitVec 32) (new : NewProgram) (codeAt : Word) : State :=
  let n := prog.toNat
  let f := s.forme (n / 65536)
  let p := leastOf f.packages
  let g := new.prog
  if !s.replaceable n new then
    (s.pushStatus p (n / 65536) 0x15 prog (BitVec.ofNat 64 (n % 65536)) (k.setWidth 64)).updProgram n (fun y => { y with quiesced := none })
  else
    let s := f.packages.foldl (fun s p => s.writeCode p f.job.toNat codeAt.toNat g.code) s
    let s := (s.program n).parked.foldl (fun s l => s.refreshPinned p f.job g codeAt l) (s.refreshQueues prog g codeAt)
    let vec : Word := match g.trapOff with | some o => codeAt + BitVec.ofNat 64 o | none => 0#64
    s.updProgram n (fun y => { y with
      codeAt := codeAt, entry := g.entry, gwin := g.gwin, vwin := g.vwin, dwin := g.dwin, folios := g.folios, trapVec := vec
      quiesced := none })

/-- REPLACEMENT_REGION_DRAINED (R75): nothing happens unless the mark is the one asked for, it has reached every sink, and the program's
instances have suspended. -/
def execReplacementRegionDrained (prog k : BitVec 32) (new : NewProgram) (codeAt : Word) (s : State) : Host.Outcome State Fault Refusal :=
  .next (if (s.program prog.toNat).quiesced = some k ∧ s.markReached (prog.toNat / 65536) k = true ∧ s.suspended prog = true then
      s.installProgram prog k new codeAt
    else s)

/-! ## The unload of a forme (R57) -/

/-- A forme is unloaded: its queues close, and its programs, queues and places are given back (R57). -/
def State.unload (s : State) (f : Nat) : State :=
  let own := (s.queues.filter (fun e => e.2.valid && e.2.owner.toNat == f && e.1 / 65536 == (s.forme f).job.toNat)).map (·.1)
  let s := own.foldl (fun s q => s.closeQueue q) s
  let s := { s with programs := s.programs.filter (fun e => e.1 / 65536 != f) }
  let s := s.updForme f (fun x => { x with loaded := false, pending := [], gang := none })
  { s with pkgs := s.pkgs.map (fun e => (e.1, { e.2 with allots := Map.del e.2.allots f })) }

/-- FORME_UNLOAD (R57): forme f is unloaded. -/
def execFormeUnload (f : Nat) (s : State) : Host.Outcome State Fault Refusal := .next (s.unload f)

end Sys2Proof.Machine
end

