-- ==== Sys2Proof/Machine/Attach.lean ====
section
/-! DEFINITION. The host link (spec/18_attach_boot.md R338 to R343, R347): accesses of the HDM range, the queue ports, HSTATUS, the
wait and wake ports, attestation. -/

namespace Sys2Proof.Machine

/-! ## The host as an agent (R106, R338) -/

/-- The number the host of package p takes as a source: above every device CTXID (R106). -/
def hostCtx (p : Nat) : Nat := p * 65536 + 65535

/-- The size of the HDM range (R337). -/
def hdmSize : Nat := 384 * 2 ^ 30

/-- A sticky bit of HSTATUS is set (R339). -/
def State.hostSet (s : State) (p bit : Nat) : State := s.updPkg p (fun x => { x with hstatus := x.hstatus ||| BitVec.ofNat 64 (2 ^ bit) })

/-- A host access was refused (R339). -/
def State.hostBad (s : State) (p : Nat) : State := s.hostSet p 1

/-- The cells behind n bytes at a shared virtual address of the bound job, as the host may use them: mapped, not engine-only, with the
permission (R338). -/
def State.hostCells (s : State) (p a n : Nat) (acc : Acc) : Option (List (Nat × Nat)) :=
  let job := (s.pkg p).hjob.toNat
  if job = 0 ∨ 2 ^ 54 < a + n then none
  else (linesOf a n).mapM (fun x =>
    match s.walkCell p job x.1 with
    | none => none
    | some (k, e) => if leafEo e || (acc.reads && !leafRd e) || (acc.writes && !leafWr e) then none else some (k, x.2))

/-- A host read of some cells. -/
def State.hostRead (s : State) (ks : List (Nat × Nat)) : List Byte := ks.flatMap (fun x => s.bytes x.1 x.2)

/-- A host write of some cells, with the stamp of the IOD (R338, R110). -/
def State.hostWrite (s : State) (p a : Nat) (ks : List (Nat × Nat)) (bs : List Byte) : State :=
  let d := p * 8 + 4
  let ws := ks.foldl (fun (r : List (Nat × Nat × List Byte) × Nat) x => (r.1 ++ [(a + r.2, x.1, (bs.drop r.2).take x.2)], r.2 + x.2)) ([], 0)
  let n := (s.die d).clock.get 4 + 1
  let s := s.updDie d (fun x => { x with clock := x.clock.put 4 n })
  let c := (s.die d).clock
  (ws.1.foldl (fun s w => (s.setBytes w.2.1 w.2.2).setStamp w.2.1 w.2.2.length c) s).applied d n

/-- All-ones of n bytes. -/
def allOnes (n : Nat) : List Byte := List.replicate n 0xFF#8

/-- HOST_HDM_ACCESS (R338): an access at an offset of the HDM range; one that fails completes with poisoned data and writes nothing. -/
def execHostHdmAccess (p off n : Nat) (wr : Option (List Byte)) (s : State) : Host.Outcome State Fault Refusal :=
  .next (
    let a := (s.pkg p).hwinbase.toNat % 2 ^ 56 + off
    let len := match wr with | some bs => bs.length | none => n
    match (if hdmSize < off + len then none else s.hostCells p a len (if wr.isSome then .store else .load)) with
    | none => s.emit (.hostAnswer p (allOnes len) true)
    | some ks =>
      match wr with
      | none => s.emit (.hostAnswer p (s.hostRead ks) (ks.any (fun x => s.poisoned x.1 x.2)))
      | some bs => s.hostWrite p a ks bs)

/-! ## Queue ports (R340, R341) -/

/-- The queue a handle of the bound job names, when the host may use it (R341). -/
def State.hostQueue (s : State) (p : Nat) (h : Half) : Option Nat :=
  let q := (s.pkg p).hjob.toNat * 65536 + h.toNat
  if (s.pkg p).hjob = 0#16 ∨ h = 0#16 ∨ !(s.queue q).valid ∨ (s.queue q).etype = 3#2 then none else some q

/-- The program index of the host (R340). -/
def hostProg : BitVec 32 := 0xFFFE#32

/-- The host pushes of package p that are in flight (R341). -/
def State.hostInFlight (s : State) (p : Nat) : Nat := (s.net.filter (fun m => m.src == hostCtx p)).length

/-- HOST_QUEUE_PUSH (R341): one class-0 entry; refused, discarded for want of a place, or pushed, waiting at a full queue. -/
def execHostQueuePush (p : Nat) (handle : Half) (data : List Byte) (s : State) : Host.Outcome State Fault Refusal :=
  .next (match s.hostQueue p handle with
    | none => s.hostBad p
    | some q =>
      let x := s.queue q
      if data.length ≠ 64 ∨ !x.producers.contains 0xFFFE#16 then s.hostBad p
      else if 256 ≤ s.hostInFlight p then s.hostSet p 0
      else
        let v := if x.etype = 0#2 then leNat (data.take 8) else leNat data
        (s.bringIn q).machinePush (hostCtx p) hostProg q
          { payload := BitVec.ofNat 512 v, valid := 0xFFFF#16, stamp := (s.die (p * 8 + 4)).clock })

/-- The 16 bytes a host pop returns. -/
def popBytes (val : Nat) (st : Word) : List Byte := leBytes 8 val ++ leBytes 8 st.toNat

/-- A refused host read: all-ones, and HSTATUS.bad. -/
def State.hostReadBad (s : State) (p n : Nat) : State := (s.hostBad p).emit (.hostAnswer p (allOnes n) false)

/-- An entry a host pop takes (R341); a marker is refused and stays. -/
def State.hostTake (s : State) (p q : Nat) (e : QEntry) (taken : State) : State :=
  if e.kind ≠ .data then s.hostReadBad p 16
  else ((taken.tookEntry q e 0).settleQueue q).emit
    (.hostAnswer p (popBytes (popValue (s.queue q).etype e) (popStatus (s.queue q).etype 0 e)) e.poison)

/-- The host pops a queue as QTRY does; it never waits (R341). -/
def State.hostPop (s : State) (p : Nat) (handle : Half) : State :=
  match s.hostQueue p handle with
  | none => s.hostReadBad p 16
  | some q =>
    let x := s.queue q
    if x.etype ≠ 0#2 ∨ !x.consumers.contains 0xFFFE#16 then s.hostReadBad p 16
    else match s.meet q 0xFFFE#16 with
      | .closed => s.emit (.hostAnswer p (popBytes 0 3#64) false)
      | .ended => s.emit (.hostAnswer p (popBytes 0 1#64) false)
      | .nothing => s.emit (.hostAnswer p (popBytes 0 4#64) false)
      | .entry i e => s.hostTake p q e (s.setQueue q (x.take 0xFFFE#16 i))
      | .waiting id e => s.hostTake p q e (s.takeWaiting q id e 0xFFFE#16)

/-- HOST_QUEUE_POP (R341): a 16-byte read of BAR2. -/
def execHostQueuePop (p : Nat) (handle : Half) (s : State) : Host.Outcome State Fault Refusal := .next (s.hostPop p handle)

/-! ## BAR0 (R339) -/

/-- HSTATUS_WRITE (R339): a 1 written to bad or drop clears it. -/
def execHstatusWrite (p : Nat) (v : Word) (s : State) : Host.Outcome State Fault Refusal :=
  .next (s.updPkg p (fun x => { x with hstatus := x.hstatus &&& ~~~(v &&& 3#64) }))

/-- The register at an offset of BAR0 that the host may read (R339). -/
def Pkg.bar0 (x : Pkg) : Nat → Option Word
  | 0 => some x.hstatus
  | 8 => some (x.hjob.setWidth 64)
  | 16 => some x.hwinbase
  | _ => none

/-- The queue handle an access of BAR2 names when it is a pop: 16 bytes at 0x40_0000 + 64 × handle (R341). -/
def barPop (a : BarAccess) : Option Half :=
  if a.isRead ∧ a.n = 16 ∧ a.off % 64 = 0 ∧ 0x400000 ≤ a.off ∧ a.off < 0x800000 then some (BitVec.ofNat 16 ((a.off - 0x400000) / 64)) else none

/-- HOST_BAD_ACCESS (R339, R341): a read of a register is answered, and a 16-byte read of BAR2's pop window pops; any other access of BAR0,
and one of another size or place of BAR2, is discarded, or answered all-ones, and HSTATUS.bad is set. -/
def execHostBadAccess (p : Nat) (req : BarAccess) (s : State) : Host.Outcome State Fault Refusal :=
  .next (if req.bar2 then
      (match barPop req with
        | some h => s.hostPop p h
        | none => if req.isRead then s.hostReadBad p req.n else s.hostBad p)
    else match (if req.isRead ∧ req.n = 8 then (s.pkg p).bar0 req.off else none) with
    | some v => s.emit (.hostAnswer p (leBytes 8 v.toNat) false)
    | none => if req.isRead then s.hostReadBad p req.n else s.hostBad p)

/-- HOST_FUNCTION_JOB_BIND (R338): firmware names the bound job and the window base. -/
def execHostFunctionJobBind (p : Nat) (job : Half) (base : Word) (s : State) : Host.Outcome State Fault Refusal :=
  .next (s.updPkg p (fun x => { x with hjob := job, hwinbase := base &&& 0x00FFFFFFFFFFFFFF#64 }))

/-! ## Wait and wake ports (R342, R343) -/

/-- Bytes of a request from an offset on are zero. -/
def zeroFrom (r : List Byte) (o : Nat) : Bool := (r.drop o).all (· == 0#8)

/-- A host wait (R342): the steps of R234 for a waiter that names the host. -/
def State.hostWaits (s : State) (p : Nat) (addr val deadline : Nat) (at_ : Word) : State :=
  let job := (s.pkg p).hjob
  if tableFull (s.pkg p).waiters job addr then s.hostComplete p at_ 3
  else match s.hostCells p addr 8 .load with
    | none => s.hostBad p
    | some ks =>
      if leNat (s.hostRead ks) ≠ val then s.hostComplete p at_ 1
      else
        let w : Waiter := { job := job, addr := addr, msg := s.nextId, hostAt := some at_, deadline := BitVec.ofNat 64 deadline }
        let s := { s with nextId := s.nextId + 1 }
        let s := s.updPkg p (fun x => { x with waiters := x.waiters ++ [w] })
        if deadline = 0 then s else s.due (.waitDeadlineExpiry p w.msg)

/-- HWAIT (R342). -/
def execHwait (p : Nat) (req : List Byte) (s : State) : Host.Outcome State Fault Refusal :=
  .next (
    let a := recNat req 0 8
    let c := recNat req 24 8
    if (s.pkg p).hjob = 0#16 ∨ req.length ≠ 64 ∨ !zeroFrom req 32 ∨ a % 8 ≠ 0 ∨ c % 8 ≠ 0 then s.hostBad p
    else s.hostWaits p a (recNat req 8 8) (recNat req 16 8) (BitVec.ofNat 64 c))

/-- HWAKE (R342): waiters are woken in entry order; the number woken is written where asked. -/
def execHwake (p : Nat) (req : List Byte) (s : State) : Host.Outcome State Fault Refusal :=
  .next (
    let c := recNat req 16 8
    if (s.pkg p).hjob = 0#16 ∨ req.length ≠ 64 ∨ !zeroFrom req 24 then s.hostBad p
    else
      let r := s.wake p (s.pkg p).hjob (recNat req 0 8) (recNat req 8 8)
      if c = 0 then r.1 else r.1.hostComplete p (BitVec.ofNat 64 c) r.2)

/-! ## Attestation (R347) -/

/-- The bytes of a value of 384 bits, as stored. -/
def digestBytes (d : BitVec 384) : List Byte := leBytes 48 d.toNat

/-- The ten step entries of the boot record, 64 bytes each (R344). -/
def bootEntries (m : Map BootStep) : List Byte :=
  (List.range 10).flatMap (fun i =>
    let e := Map.get m (i + 1) {}
    leBytes 1 (i + 1) ++ leBytes 1 e.outcome ++ leBytes 2 e.attempts ++ leBytes 4 e.path.toNat ++ leBytes 8 e.round.toNat ++ digestBytes e.digest)

/-- The boot record copy in use: its header and entries (R344). -/
def Pkg.bootRecord (x : Pkg) : List Byte :=
  leBytes 16 (x.boot.seq % 2 ^ 64) ++ digestBytes (Config.sha384 (bootEntries x.boot.steps)) ++ bootEntries x.boot.steps

/-- The entry of a boot step. -/
def Pkg.step (x : Pkg) (n : Nat) : BootStep := Map.get x.boot.steps n {}

/-- The firmware image in use: that of the flash slot step 2 has recorded (R345, R346). -/
def Pkg.firmware (x : Pkg) (p : Nat) : Config.Firmware := Config.firmware p (x.step 2).path.toNat

/-- The first 224 bytes of an attestation report (R347). -/
def State.attestBody (s : State) (p : Nat) (nonce : List Byte) : List Byte :=
  let x := s.pkg p
  leBytes 4 0x41545347 ++ leBytes 4 1 ++ leBytes 8 (Config.serial p).toNat ++ leBytes 8 (x.firmware p).version.toNat ++
  leBytes 8 (s.time p).toNat ++ nonce ++ digestBytes (x.firmware p).digest ++ digestBytes (Config.sha384 x.bootRecord) ++
  digestBytes x.lastImage

/-- HATTEST (R347): the report, signed, is written to the host address. -/
def execHattest (p : Nat) (req : List Byte) (s : State) : Host.Outcome State Fault Refusal :=
  .next (
    let a := recNat req 48 8
    if (s.pkg p).hjob = 0#16 ∨ req.length ≠ 64 ∨ !zeroFrom req 56 ∨ a % 64 ≠ 0 then s.hostBad p
    else
      let body := s.attestBody p (req.take 48)
      let sig := Config.ecdsaSign (Config.serial p) (Config.sha384 body)
      s.emit (.hostWrite p (BitVec.ofNat 64 a) (body ++ leBytes 96 sig.toNat)))

end Sys2Proof.Machine
end

