-- ==== Sys2Proof/Machine/Boot.lean ====
section
/-! DEFINITION. Boot (spec/18_attach_boot.md R344 to R346; spec/23_power.md R413, R416), leadership (R348 to R350), remote keys, pod
groups and the pod's time (spec/22_pod.md R404 to R408). -/

namespace Sys2Proof.Machine

/-! ## Boot (R344, R345) -/

/-- A key of a table by context, core, galley or die lies outside package p, with n such keys to a package. -/
def outside {α : Type} (p n : Nat) (m : Map α) : Map α := m.filter (fun e => e.1 / n != p)

/-- Package p in reset: its contexts, cores, galleys, dies and queue homes are as after reset, what it had under way is gone, and the poison
of its local stores with it (R373); its flash and fuses stay, and what it has given up. -/
def State.resetPkg (s : State) (p : Nat) : State :=
  let x := s.pkg p
  let y : Pkg := { boot := x.boot, bootOther := x.bootOther, minVersion := x.minVersion, booterr := x.booterr, spared := x.spared
                   mappedOut := x.mappedOut, spareLanes := x.spareLanes, lostLinks := x.lostLinks
                   fellDown := x.fellDown, links := (x.lostLinks ++ x.fellDown).foldl (fun m l => Map.set m l { down := true }) [] }
  { s with
    ctxs := outside p 65536 s.ctxs, cores := outside p 4096 s.cores, galleys := outside p 128 s.galleys, dies := outside p 8 s.dies
    queues := s.queues.filter (fun e => e.2.homePkg != p), net := s.net.filter (fun m => pkgOf m.src != p)
    resvs := s.resvs.filter (fun e => e.1 / 2 ^ 56 != p), bwaits := s.bwaits.filter (fun e => e.1 / 2 ^ 56 != p)
    stamps := s.stamps.filter (fun e => e.1 / 2 ^ 56 != p), poison := s.poison.filter (fun g => g / 2 ^ 56 != p || !isLs g), jobs := outside p 65536 s.jobs
    pkgs := Map.set s.pkgs p y }

/-- The last boot step begun and its outcome in HSTATUS (R339). -/
def withStep (h : Word) (step outcome : Nat) : Word :=
  (h &&& ~~~0xFFFF0000#64) ||| BitVec.ofNat 64 (step % 256 * 2 ^ 24 + outcome % 256 * 2 ^ 16)

/-- The rank and the leader bit in HSTATUS (R339). -/
def withRank (h : Word) (rank : Nat) (leads : Bool) : Word :=
  (h &&& ~~~0xFF00000004#64) ||| BitVec.ofNat 64 (rank % 256 * 2 ^ 32 + (if leads then 4 else 0))

/-- The boot record is written anew, over the copy not in use (R344). -/
def Pkg.writeRecord (x : Pkg) (f : BootCopy → BootCopy) : Pkg :=
  { x with boot := { f x.boot with seq := x.boot.seq + 1 }, bootOther := x.boot }

/-- A step entry of the boot record is written (R344). -/
def Pkg.putStep (x : Pkg) (n : Nat) (e : BootStep) : Pkg :=
  { x.writeRecord (fun b => { b with steps := Map.set b.steps n e }) with bootStep := n, hstatus := withStep x.hstatus n e.outcome }

/-- The copy a start uses, and the other: the one written last, whose sequence number is the higher, if its digest matches, else the other if
that one does, else a record of steps never run (R344). -/
def Pkg.chooseRecord (x : Pkg) (good other : Bool) : BootCopy × BootCopy :=
  if good then (x.boot, x.bootOther) else if other then (x.bootOther, x.boot) else ({}, {})

/-- The path a step begins on at try t of this start (R345, R346): its alternate from the second try on. Of step 2 it is the slot, A first
unless the record shows it failed; of step 3 the speed bin; of steps 7 and 8, 1 for the alternate (log entry 44). -/
def beginPath (n t : Nat) (e : BootStep) : BitVec 32 :=
  match n with
  | 2 => if t = 0 then (if e.outcome = 2 ∧ e.path = 0#32 then 1#32 else 0#32) else if t = 1 then 1#32 - e.path else e.path
  | 3 => BitVec.ofNat 32 t
  | 7 | 8 => if t = 0 then 0#32 else 1#32
  | _ => if t = 0 then 0#32 else e.path

/-- A step is skipped (R345): done, its inputs as recorded; never steps 1 and 9. -/
def Pkg.skips (x : Pkg) (n : Nat) : Bool :=
  let e := x.step n
  n != 1 && n != 9 && (e.outcome == 1 || e.outcome == 4) && x.inputs[n - 1]? == some e.digest

/-- Step n begins: outcome 3 and one more attempt are recorded first (R345); step 9 listens (R348), and until it is done the package has no
rank and leads nothing (R339). -/
def State.beginStep (s : State) (p n : Nat) : State :=
  let e := (s.pkg p).step n
  let s := s.updPkg p (fun x => x.putStep n { e with outcome := 3, attempts := e.attempts + 1, path := beginPath n x.tries e })
  if n = 9 then s.updPkg p (fun x => { x with hstatus := withRank x.hstatus 0xFF false, lead := { highest := x.lead.highest, done := x.lead.done, listening := true } }) else s

/-- The boot is over: an accepted image with a higher version raises the fused minimum (R346). -/
def State.bootDone (s : State) (p : Nat) : State :=
  s.updPkg p (fun x => { x with
    booting := false, minVersion := if x.minVersion.ult (x.firmware p).version then (x.firmware p).version else x.minVersion })

/-- The boot goes on from step n, over those that are skipped, of at most f (R345). -/
def State.bootFrom (s : State) (p : Nat) : Nat → Nat → State
  | 0, _ => s.bootDone p
  | f + 1, n =>
    if 10 < n then s.bootDone p
    else if (s.pkg p).skips n then
      (s.updPkg p (fun x => { x with bootStep := n, hstatus := withStep x.hstatus n (x.step n).outcome })).bootFrom p f (n + 1)
    else (s.updPkg p (fun x => { x with tries := 0 })).beginStep p n

/-- A boot record in which a step found in progress has failed (R345). -/
def BootCopy.settled (b : BootCopy) : BootCopy :=
  { b with steps := b.steps.map (fun e => (e.1, if e.2.outcome = 3 then { e.2 with outcome := 2 } else e.2)) }

/-- POWER_ON_BOOT (R344, R345): the package starts from its boot record. -/
def execPowerOnBoot (p : Nat) (found : PowerOn) (s : State) : Host.Outcome State Fault Refusal :=
  .next (((s.resetPkg p).updPkg p (fun x =>
    let r := x.chooseRecord found.good found.other
    { x with boot := r.1.settled, bootOther := r.2, inputs := found.inputs, booting := true, booterr := false, reset := false })).bootFrom p 11 1)

/-- The boot stops at a step (R345): the record names it, BOOTERR_N is low; for step 1 the package holds reset. -/
def State.bootStops (s : State) (p n : Nat) : State :=
  let s := s.updPkg p (fun x => { x with booting := false, booterr := true })
  if n = 1 then (s.resetPkg p).updPkg p (fun x => { x with reset := true }) else s

/-- The outcome of a step done at attempt t of this start with a path (R344, R345): 4 on an alternate. -/
def doneOutcome (n t : Nat) (path : BitVec 32) : Nat :=
  if n = 8 ∧ path = 0xFFFFFFFF#32 then 1 else if t = 0 ∧ path = 0#32 then 1 else 4

/-- The path a step is recorded done with: what steps 4 to 6 have found, no partner for step 8, else the one it began on (R345). -/
def donePath (n : Nat) (e : BootStep) (path : BitVec 32) : BitVec 32 :=
  if n = 4 ∨ n = 5 ∨ n = 6 ∨ (n = 8 ∧ path = 0xFFFFFFFF#32) then path else e.path

/-- How many failed cores a core test has found in a galley. -/
def failedIn (found : List (Nat × Nat)) (g : Nat) : Nat := (found.filter (fun e => e.1 == g)).length

/-- What a step has found needs its alternate path: spare lanes, a galley with more than one failed core, a failed link (R345). -/
def needsAlternate (n : Nat) (found : List (Nat × Nat)) : Bool :=
  match n with
  | 4 | 6 => found != []
  | 5 => found.any (fun e => decide (1 < failedIn found e.1))
  | _ => false

/-- A package that has taken in what a step has found: the spare lanes in use; the core each galley with one failed core spares and the
galleys mapped out; the links marked down (R345, R397). -/
def Pkg.takeIn (x : Pkg) (n : Nat) (found : List (Nat × Nat)) : Pkg :=
  match n with
  | 4 => { x with spareLanes := found.foldl (fun m e => Map.modify m e.2 0 (· + e.1)) [] }
  | 5 => { x with
    spared := (found.filter (fun e => failedIn found e.1 == 1)).foldl (fun m e => Map.set m e.1 e.2) []
    mappedOut := ((found.map (·.1)).filter (fun g => decide (1 < failedIn found g))).eraseDups }
  | 6 =>
    let lost := (found.map (·.1)).eraseDups
    { x with
      lostLinks := lost, fellDown := []
      links := lost.foldl (fun m l => Map.modify m l {} (fun y => { y with down := true })) (x.links.map (fun e => (e.1, { e.2 with down := false }))) }
  | _ => x

/-- The key a certificate chain from a key ends in, when every signature of it verifies (R346). -/
def chainKey (k : BitVec 768) : List Config.Certificate → Option (BitVec 768)
  | [] => some k
  | c :: r => if Config.ecdsaVerify k (Config.sha384 c.body) c.sig then chainKey c.key r else none

/-- Step 2 accepts an image: its root key is the fused one, its chain and its signature verify, and its security version is at least the fused
minimum (R346). -/
def Pkg.accepts (x : Pkg) (f : Config.Firmware) : Bool :=
  Config.sha384 (leBytes 96 f.root.toNat) == Config.rootDigest && !f.version.ult x.minVersion &&
  (match chainKey f.root f.chain with | some k => Config.ecdsaVerify k f.digest f.sig | none => false)

/-- What a step has found, for step 6 with the links that have been marked down since the last one (R345, R401). -/
def Pkg.findings (x : Pkg) (n : Nat) (found : List (Nat × Nat)) : List (Nat × Nat) :=
  if n = 6 then found ++ x.fellDown.map (fun l => (l, 0)) else found

/-- BOOT_STEP_END (R345, R346): step 2 ends well only with an image it accepts, a first try only without what needs the alternate; a failed
step is tried again, three times in all. -/
def State.bootStepEnds (s : State) (p : Nat) (ok : Bool) (path : BitVec 32) (digest : BitVec 384) (found : List (Nat × Nat)) : State :=
  let x := s.pkg p
  let n := x.bootStep
  let e := x.step n
  let found := x.findings n found
  let ok := ok && (n != 2 || x.accepts (x.firmware p)) && !(x.tries == 0 && needsAlternate n found)
  if !x.booting then s
  else if ok then
    let q := donePath n e path
    let s := s.updPkg p (fun x => (x.takeIn n found).putStep n
      { e with outcome := doneOutcome n x.tries q, attempts := 0, path := q, digest := digest, round := if n = 9 then e.round else 0#64 })
    let s := if n = 9 then s.updPkg p (fun x => { x with hstatus := withRank x.hstatus (x.rank.getD p) x.lead.leads }) else s
    s.bootFrom p 11 (n + 1)
  else
    let s := s.updPkg p (fun x => ({ x with tries := x.tries + 1 } : Pkg).putStep n { e with outcome := 2 })
    if n = 1 ∨ 3 ≤ x.tries + 1 then s.bootStops p n else s.beginStep p n

/-- BOOT_STEP_END (R345). -/
def execBootStepEnd (p : Nat) (ok : Bool) (path : BitVec 32) (digest : BitVec 384) (found : List (Nat × Nat)) (s : State) :
    Host.Outcome State Fault Refusal := .next (s.bootStepEnds p ok path digest found)

/-- RAIL_FAULT (R413, R345): a rail out of range holds the package in reset with BOOTERR_N low. -/
def execRailFault (p : Nat) (s : State) : Host.Outcome State Fault Refusal :=
  .next (((s.updPkg p (fun x => if x.booting && x.bootStep == 1 then x.putStep 1 { x.step 1 with outcome := 2 } else x)).bootStops p 1))

/-- THERMAL_TRIP (R416): the package enters reset, and the boot record marks step 1 failed. -/
def execThermalTrip (p : Nat) (s : State) : Host.Outcome State Fault Refusal :=
  .next (((s.updPkg p (fun x => x.putStep 1 { x.step 1 with outcome := 2 })).resetPkg p).updPkg p (fun x => { x with reset := true }))

/-! ## Leadership (R348, R349) -/

/-- Candidacy a beats candidacy b (R348). -/
def beats (a b : Word × Word) : Bool := b.1.ult a.1 || (a.1 == b.1 && a.2.ult b.2)

/-- Message kinds the packages send one another on every scale-up link. -/
def msgCandidacy : Nat := 1
/-- A LEAD. -/
def msgLead : Nat := 2
/-- A heartbeat. -/
def msgHeartbeat : Nat := 3
/-- A request for the leader's current LEAD. -/
def msgAsk : Nat := 5

/-- The state of package p's leadership changed. -/
def State.updLead (s : State) (p : Nat) (f : Leadership → Leadership) : State := s.updPkg p (fun x => { x with lead := f x.lead })

/-- The greater of two rounds. -/
def maxRound (a b : Word) : Word := if a.ult b then b else a

/-- A serial joins those heard, in ascending order (R348: ranks follow ascending serial). -/
def joinSerial (l : List Word) (x : Word) : List Word :=
  if l.contains x then l else l.filter (fun y => y.ult x) ++ [x] ++ l.filter (fun y => !y.ult x)

/-- The round of a candidacy is recorded in the entry of step 9 (R344, R348). -/
def Pkg.recordRound (x : Pkg) (r : Word) : Pkg :=
  x.writeRecord (fun b => { b with steps := Map.set b.steps 9 { x.step 9 with round := r } })

/-- A package announces the candidacy of the round after the highest it has recorded or heard (R348). -/
def State.announce (s : State) (p : Nat) : State :=
  let r := maxRound (s.pkg p).lead.highest ((s.pkg p).step 9).round + 1
  let c := (r, Config.serial p)
  ((s.updLead p (fun l => { l with
    listening := false, announced := true, withdrawn := false, best := c, highest := r, leads := false, leader := none
    members := joinSerial l.members c.2, seen := (msgCandidacy, c.1, c.2) :: l.seen })).updPkg p (fun x => x.recordRound r)).emit
    (.message p msgCandidacy r c.2)

/-- HEARTBEAT_LISTEN_TIMEOUT (R348): 20 ms without a heartbeat. -/
def execHeartbeatListenTimeout (p : Nat) (s : State) : Host.Outcome State Fault Refusal :=
  .next (let l := (s.pkg p).lead; if l.listening && !l.heard then s.announce p else s)

/-- CANDIDACY_RECEIVED (R348): forwarded once; a better one makes the package withdraw and follow it. -/
def execCandidacyReceived (p : Nat) (round serial : Word) (s : State) : Host.Outcome State Fault Refusal :=
  .next (
    let l := (s.pkg p).lead
    if l.seen.contains (msgCandidacy, round, serial) then s
    else
      let s := s.updLead p (fun l => { l with
        seen := (msgCandidacy, round, serial) :: l.seen, highest := maxRound l.highest round, members := joinSerial l.members serial })
      let s := s.emit (.message p msgCandidacy round serial)
      if beats (round, serial) l.best then
        (s.updLead p (fun l => { l with best := (round, serial), withdrawn := true })).updPkg p (fun x => x.recordRound round)
      else s)

/-- Step 9 of this start has completed (R339). -/
def Pkg.joined (x : Pkg) : Bool :=
  decide (9 < x.bootStep) || (x.bootStep == 9 && ((x.step 9).outcome == 1 || (x.step 9).outcome == 4))

/-- HSTATUS with a rank, which it shows only once step 9 has completed, and the leader bit (R339). -/
def Pkg.shown (x : Pkg) (rank : Nat) (leads : Bool) : Word := withRank x.hstatus (if x.joined then rank else 0xFF) leads

/-- The LEAD of package p: it names the candidacy it leads by (R348). -/
def State.leadOf (s : State) (p : Nat) : LeadMsg :=
  let l := (s.pkg p).lead
  let c := l.leader.getD l.best
  { round := c.1, serial := c.2, members := l.members, coords := l.coords, dims := l.dims, epoch := l.epoch, signed := true }

/-- What the signature of a LEAD is over: round and serial, the certificate, the membership list, the TIME epoch (R348; their order, log
entry 45). -/
def leadBytes (m : LeadMsg) (c : Config.Certificate) : List Byte :=
  leBytes 8 m.round.toNat ++ leBytes 8 m.serial.toNat ++ leBytes 96 c.key.toNat ++ c.body ++ leBytes 96 c.sig.toNat ++
    m.members.flatMap (fun x => leBytes 8 x.toNat) ++ leBytes 8 m.epoch.toNat

/-- Package p sends its LEAD, with its certificate and signed with its identity key (R348). -/
def State.sendLead (s : State) (p : Nat) : State :=
  let m := s.leadOf p
  s.emit (.lead p m (Config.certificate p) (Config.ecdsaSign m.serial (Config.sha384 (leadBytes m (Config.certificate p)))))

/-- A forme that has not begun on any package has a new gang tick, chosen by the leader p (R74, R350). -/
def State.newTick (s : State) (p f : Nat) : State :=
  let x := s.forme f
  if x.gang.isNone || x.started != [] then s
  else s.newGang f p

/-- A load that some package has performed is ordered of the packages of its placement that have not, and its forme has a new gang tick
(R350). -/
def State.reissue (s : State) (p : Nat) (o : BitVec 384 × List Byte × FormePlan) : State :=
  let l := (s.pkg p).lead
  let left := o.2.2.packages.filter (fun q => !(s.pkg q).lead.done.any (fun e => e.1 == o.1))
  (left.foldl (fun s q => s.dueOnce (.formeLoadOrder q ⟨l.best.1, l.best.2, true⟩ o.2.1 o.2.2)) s).newTick p o.2.2.forme

/-- The packages a registration ordered of package q is for (R405, R406). -/
def targetsOf (c : PodCommand) (q : Nat) : List Nat := match c with | .registerGroup _ _ ms => ms | _ => [q]

/-- A registration that package q was ordered to make is ordered of the packages it is for that have not made it (R350). -/
def State.reissueCommand (s : State) (p q : Nat) (c : BitVec 384 × PodCommand) : State :=
  let l := (s.pkg p).lead
  ((targetsOf c.2 q).filter (fun t => !(s.pkg t).lead.done.any (fun e => e.1 == c.1))).foldl (fun s t =>
    s.dueOnce (.leaderCommand t l.best.1 l.best.2 true c.2)) s

/-- A new leader collects the step entries and load digests of every other package, and orders the loads and registrations that are not done
(R350). -/
def State.takeOver (s : State) (p : Nat) : State :=
  let others := s.pkgs.filter (fun e => e.1 != p)
  let s := s.updLead p (fun l => { l with collected := others.map (fun e => (e.1, e.2.boot.steps, e.2.lead.done.map (·.1))) })
  let s := (s.pkgs.flatMap (fun e => e.2.orders)).foldl (fun s o => s.reissue p o) s
  (s.pkgs.flatMap (fun e => e.2.commands.map (fun c => (e.1, c)))).foldl (fun s c => s.reissueCommand p c.1 c.2) s

/-- The sizes of the torus, 1 to 4 (R401). -/
def torusDims : Nat × Nat × Nat := (1 + Config.torus.1 % 4, 1 + Config.torus.2.1 % 4, 1 + Config.torus.2.2 % 4)
/-- The coordinates of the package of a serial number (R401). -/
def torusOf (serial : Word) : Nat × Nat × Nat :=
  let c := Config.torusPlace serial
  (c.1 % torusDims.1, c.2.1 % torusDims.2.1, c.2.2 % torusDims.2.2)
/-- A LEAD gives each rank its coordinates in a torus with dimensions of 1 to 4 (R401). -/
def torusOk (m : LeadMsg) : Bool :=
  let size (n : Nat) : Bool := decide (1 ≤ n) && decide (n ≤ 4)
  size m.dims.1 && size m.dims.2.1 && size m.dims.2.2 && m.coords.length == m.members.length &&
    m.coords.all (fun c => decide (c.1 < m.dims.1) && decide (c.2.1 < m.dims.2.1) && decide (c.2.2 < m.dims.2.2))

/-- CANDIDACY_QUIET_TIMEOUT (R348, R350): a package not withdrawn leads, and sends its LEAD. -/
def execCandidacyQuietTimeout (p : Nat) (s : State) : Host.Outcome State Fault Refusal :=
  .next (
    let l := (s.pkg p).lead
    if !l.announced || l.withdrawn || l.leads then s
    else
      let rank := l.members.findIdx (· == l.best.2)
      let s := s.updPkg p (fun x => { x with
        rank := some rank, timed := true, hstatus := x.shown rank true
        lead := { x.lead with
          leads := true, leader := some x.lead.best, dims := torusDims, coords := x.lead.members.map torusOf
          epoch := (BitVec.ofNat 48 x.time).setWidth 64 } })
      (s.sendLead p).takeOver p)

/-- A LEAD is accepted (R348): its members in ascending serial give the ranks. -/
def State.acceptLead (s : State) (p : Nat) (m : LeadMsg) : State :=
  s.updPkg p (fun x =>
    let ms := m.members.foldl joinSerial []
    let rank := ms.findIdx (· == Config.serial p)
    ({ x with
      rank := some rank, hstatus := x.shown rank false
      lead := { x.lead with
        leader := some (m.round, m.serial), leads := false, listening := false, announced := false, withdrawn := true
        best := (m.round, m.serial), highest := maxRound x.lead.highest m.round, members := ms, epoch := m.epoch
        coords := m.coords, dims := m.dims } } : Pkg).recordRound m.round)

/-- What the signature of a YIELD is over: the winner's round and serial (R349; log entry 45). -/
def yieldBytes (round serial : Word) : List Byte := leBytes 8 round.toNat ++ leBytes 8 serial.toNat

/-- A package that leads sends its followers the signed YIELD when a LEAD beats its own (R349). -/
def State.yieldTo (s : State) (p : Nat) (c : Word × Word) : State :=
  let l := (s.pkg p).lead
  if l.leads && beats c (l.leader.getD l.best) then
    s.emit (.yields p c.1 c.2 (Config.ecdsaSign (Config.serial p) (Config.sha384 (yieldBytes c.1 c.2))))
  else s

/-- LEAD_RECEIVED (R348, R349, R401): accepted only if signed, with a torus that may be, and not beaten by a candidacy heard; a beaten leader
stops commanding and sends a YIELD. -/
def execLeadReceived (p : Nat) (lead : LeadMsg) (s : State) : Host.Outcome State Fault Refusal :=
  .next (
    let l := (s.pkg p).lead
    if !lead.signed || !torusOk lead || beats l.best (lead.round, lead.serial) then s
    else
      let s := s.yieldTo p (lead.round, lead.serial)
      if l.leads && lead.serial == Config.serial p then s else s.acceptLead p lead)

/-- HEARTBEAT_SEND (R349): the leader's heartbeat on every scale-up link. -/
def execHeartbeatSend (p : Nat) (s : State) : Host.Outcome State Fault Refusal :=
  .next (match (s.pkg p).lead.leader with
    | some (r, n) => if (s.pkg p).lead.leads then s.emit (.message p msgHeartbeat r n) else s
    | none => s)

/-- A copy of a heartbeat that the package has forwarded, or a later one of the same leader (R349). -/
def Leadership.knows (l : Leadership) (round serial : Word) (beat : Nat) : Bool :=
  l.forwarded.any (fun e => e.1 == round && e.2.1 == serial && decide (beat ≤ e.2.2))

/-- A heartbeat is the last of its leader's that the package has forwarded (R349). -/
def Leadership.forward (l : Leadership) (round serial : Word) (beat : Nat) : Leadership :=
  { l with forwarded := (round, serial, beat) :: l.forwarded.filter (fun e => !(e.1 == round && e.2.1 == serial)) }

/-- Package p asks the leader for its LEAD: the leader sends it (R348). -/
def State.askLead (s : State) (p : Nat) (round serial : Word) : State :=
  let s := s.emit (.message p msgAsk round serial)
  match s.pkgs.find? (fun e => e.2.lead.leads && e.2.lead.leader == some (round, serial)) with
  | some e => (s.sendLead e.1).due (.leadReceived p (s.leadOf e.1))
  | none => s

/-- HEARTBEAT_RECEIVED (R348, R349): each heartbeat is forwarded once; a package that listens asks the leader for its LEAD. -/
def execHeartbeatReceived (p : Nat) (leader : Word × Word) (beat : Nat) (s : State) : Host.Outcome State Fault Refusal :=
  .next (
    let round := leader.1
    let serial := leader.2
    let l := (s.pkg p).lead
    let s := if serial = Config.serial p ∨ l.knows round serial beat = true then s
      else (s.updLead p (fun l => l.forward round serial beat)).emit (.message p msgHeartbeat round serial)
    let s := s.updLead p (fun l => { l with heard := true, highest := maxRound l.highest round })
    if l.listening then
      (s.updLead p (fun l => { l with
        listening := false, best := if beats (round, serial) l.best then (round, serial) else l.best, withdrawn := true })).askLead p round serial
    else s)

/-- LEADER_LOSS_TIMEOUT (R349): a follower whose leader is silent, or whose step makes no progress, announces a new round. -/
def execLeaderLossTimeout (p : Nat) (s : State) : Host.Outcome State Fault Refusal :=
  .next (if (s.pkg p).lead.leads then s else s.announce p)

/-- YIELD_RECEIVED (R349): a follower will accept the winner's LEAD. -/
def execYieldReceived (p : Nat) (signed : Bool) (round serial : Word) (s : State) : Host.Outcome State Fault Refusal :=
  .next (if signed && beats (round, serial) (s.pkg p).lead.best then
      (s.updLead p (fun l => { l with best := (round, serial), highest := maxRound l.highest round, leader := none })).updPkg p (fun x => x.recordRound round)
    else s)

/-! ## Remote keys (R99, R404, R405) -/

/-- The bytes a key number covers (R404). -/
def keySpan : Nat := 4 * 2 ^ 20

/-- The base of a registration lies on a 4 MiB boundary of the shared virtual or direct local store space, and so does each key number's, for
the region stays inside that space (R99, R404). -/
def keyRequestOk (r : KeyRequest) : Bool :=
  let b := r.base.toNat
  b % keySpan == 0 && (b / 2 ^ 54 == 0 || b / 2 ^ 54 == 3) && decide (r.len ≠ 0) && (b + r.len - 1) / 2 ^ 54 == b / 2 ^ 54 &&
    decide (r.job < 65536)

/-- The lowest run of n key numbers none of which holds an entry in force, or one of a region that `busy` names (R405). -/
def freeKeys (m : Map KeyEntry) (busy : Nat → Bool) (n : Nat) : Option Nat :=
  (List.range (65536 + 1 - min n 65537)).find? (fun b => m.all (fun e =>
    !((e.2.flags.getLsbD 0 || busy e.2.region) && decide (b ≤ e.1) && decide (e.1 < b + n))))

/-- A region of package p is being revoked, and its revocation has not answered (R405). -/
def State.revoking (s : State) (p region : Nat) : Bool := s.agenda.contains (.keyRevoke p region)

/-- The entry of key number b + j of a region (R404). -/
def keyEntryOf (r : KeyRequest) (b j : Nat) : KeyEntry :=
  { base := r.base + BitVec.ofNat 64 (j * keySpan), len := min keySpan (r.len - j * keySpan), job := BitVec.ofNat 16 r.job
    flags := BitVec.ofNat 16 (1 + (if r.read then 2 else 0) + (if r.write then 4 else 0)), region := b }

/-- A registration (R405, R350): idempotent under the command's digest; −7 when malformed, −2 when the table lacks room. -/
def State.registerKey (s : State) (p : Nat) (digest : BitVec 384) (r : KeyRequest) : State :=
  match (s.pkg p).lead.done.find? (fun e => e.1 == digest) with
  | some (_, a, n) => s.emit (.keyAnswer p a n 0)
  | none =>
    let n := (r.len + keySpan - 1) / keySpan
    if !keyRequestOk r then s.emit (.keyAnswer p 0 0 (-7))
    else match freeKeys (s.pkg p).keys (s.revoking p) n with
      | none => s.emit (.keyAnswer p 0 0 (-2))
      | some b =>
        (s.updPkg p (fun x => { x with
          keys := (List.range n).foldl (fun m j => Map.set m (b + j) (keyEntryOf r b j)) x.keys
          lead := { x.lead with done := (digest, b, n) :: x.lead.done } })).emit (.keyAnswer p b n 0)

/-- KEY_REGISTER (R405). -/
def execKeyRegister (p : Nat) (digest : BitVec 384) (req : KeyRequest) (s : State) : Host.Outcome State Fault Refusal :=
  .next (s.registerKey p digest req)

/-- A key of package p belongs to a region. -/
def State.inRegion (s : State) (p region key : Nat) : Bool :=
  key / 2 ^ 26 == p && (match Map.find (s.pkg p).keys (key % 2 ^ 26) with | some e => e.region == region | none => false)

/-- An address of a REPART uses a key of a region of package p (R405). -/
def State.usesRegion (s : State) (p region : Nat) (o : RepOp) (a : Nat) : Bool :=
  match s.genericTarget o.ctx o.job .load a with
  | .place (.remote key _) => s.inRegion p region key
  | _ => false

/-- A REPART past its checks holds a key of the region, or a request that the region has accepted is not acknowledged at the home
(R288, R405). -/
def State.regionHeld (s : State) (p region : Nat) : Bool :=
  s.net.any (fun m => m.parts.any (fun q => !q.done && (match q.loc with | .accepted key _ => s.inRegion p region key | _ => false))) ||
  s.pkgs.any (fun x => x.2.groups.any (fun g => g.2.phase != 0 && (match g.2.queue with
    | o :: _ => [o.base, o.rbase, o.stat].any (fun a => s.usesRegion p region o a)
    | [] => false)))

/-- A region of package p still has an entry in force. -/
def State.regionValid (s : State) (p region : Nat) : Bool := (s.pkg p).keys.any (fun e => e.2.region == region && e.2.flags.getLsbD 0)

/-- KEY_REVOKE (R405): valid is cleared in every entry of the region in one step; the answer waits for a REPART that holds a key of it. -/
def execKeyRevoke (p region : Nat) (s : State) : Host.Outcome State Fault Refusal :=
  .next (
    let n := ((s.pkg p).keys.filter (fun e => e.2.region == region)).length
    let s := s.updPkg p (fun x => { x with
      keys := x.keys.map (fun e => if e.2.region = region then (e.1, { e.2 with flags := e.2.flags &&& ~~~1#16 }) else e) })
    if n = 0 then s.emit (.keyAnswer p region 0 (-7))
    else if s.regionHeld p region then s.due (.keyRevoke p region) else s.emit (.keyAnswer p region n 0))

/-! ## Pod groups (R406) -/

/-- GROUP_REGISTER (R406, R350): idempotent under the digest of its request; −7 when the limits are broken or the handle is in use. -/
def execGroupRegister (p : Nat) (digest : BitVec 384) (req : GroupRequest) (s : State) : Host.Outcome State Fault Refusal :=
  .next (
    let x := s.pkg p
    let members := req.members
    if x.lead.done.any (fun e => e.1 == digest) then s.emit (.answer p 0) else
    let ok : Bool := decide (1 ≤ members.length) && decide (members.length ≤ 64) && members.eraseDups.length == members.length &&
      members.contains p && decide (x.groups.length < 256) && (Map.find x.groups req.handle.toNat).isNone
    if ok then
      (s.updPkg p (fun x => { x with
        groups := Map.set x.groups req.handle.toNat { members := members }
        lead := { x.lead with done := (digest, 0, 0) :: x.lead.done } })).emit (.answer p 0)
    else s.emit (.answer p (-7)))

/-- No REPART of a group runs or waits on package p (R406). -/
def State.groupIdle (s : State) (p h : Nat) : Bool := (s.group p h).queue == []

/-- GROUP_DEREGISTER (R406): it waits until no REPART of the group runs or waits on the package. -/
def execGroupDeregister (p : Nat) (handle : BitVec 32) (s : State) : Host.Outcome State Fault Refusal :=
  .next (
    if (Map.find (s.pkg p).groups handle.toNat).isNone then s.emit (.answer p (-7))
    else if s.groupIdle p handle.toNat then
      (s.updPkg p (fun x => { x with groups := Map.del x.groups handle.toNat })).emit (.answer p 0)
    else s.due (.groupDeregister p handle))

/-! ## Commands and ordered loads (R349, R350) -/

/-- The step a command orders. -/
def commandStep (p : Nat) : PodCommand → Instr
  | .registerKey d r => .keyRegister p d r
  | .revokeKey n => .keyRevoke p n
  | .registerGroup d h ms => .groupRegister p d ⟨h, ms⟩
  | .deregisterGroup h => .groupDeregister p h

/-- A command is obeyed: signed, and of the current round's leader (R349). -/
def State.obeys (s : State) (p : Nat) (round serial : Word) (signed : Bool) : Bool :=
  signed && (s.pkg p).lead.leader == some (round, serial)

/-- A command that is not obeyed is discarded and counted in the boot record (R349). -/
def State.discardCommand (s : State) (p : Nat) : State :=
  s.updPkg p (fun x => x.writeRecord (fun b => { b with discarded := b.discarded + 1 }))

/-- The registrations among commands, by their digests (R350). -/
def registrations (c : PodCommand) : List (BitVec 384 × PodCommand) :=
  match c with | .registerKey d _ | .registerGroup d _ _ => [(d, c)] | _ => []

/-- LEADER_COMMAND (R349, R350): obeyed only when signed and of the current round's leader; any other is discarded and counted. A registration
that is obeyed is remembered as ordered. -/
def execLeaderCommand (p : Nat) (round serial : Word) (signed : Bool) (cmd : PodCommand) (s : State) : Host.Outcome State Fault Refusal :=
  .next (if s.obeys p round serial signed then
      (s.updPkg p (fun x => { x with commands := x.commands ++ (registrations cmd).filter (fun c => !x.commands.contains c) })).due (commandStep p cmd)
    else s.discardCommand p)

/-- FORME_LOAD_ORDER (R349, R350): obeyed as a command is; a load recorded done under its name is reported done without repeating it. -/
def execFormeLoadOrder (p : Nat) (by_ : OrderBy) (img : List Byte) (plan : FormePlan) (s : State) : Host.Outcome State Fault Refusal :=
  .next (
    let key := s.imposition img plan
    if !s.obeys p by_.round by_.serial by_.signed then s.discardCommand p
    else if (s.pkg p).lead.done.any (fun e => e.1 == key) then s.emit (.loadDone p key)
    else
      let n := (s.pkg p).loads
      let s := s.formeLoad p img plan
      if (s.pkg p).loads = n then s
      else s.updPkg p (fun x => { x with
        orders := x.orders ++ [(key, img, plan)], lead := { x.lead with done := (key, 0, 0) :: x.lead.done } }))

/-! ## Time (R407, R408) -/

/-- A follower's TIME set once to the leader's epoch plus the measured one-way delay, and never backward (R407, R76). -/
def Pkg.setTime (x : Pkg) (delay : Nat) : Pkg :=
  let to_ := x.lead.epoch.setWidth 48 + BitVec.ofNat 48 delay
  { x with timed := true, time := x.time + (dist to_ (BitVec.ofNat 48 x.time)).toNat }

/-- TIME_SYNC_EXCHANGE (R407): of a follower; the first, once it follows a leader, gives the measured delay and sets TIME; from then on what it
gives corrects the rate, by at most 200 ppm, against the package's parent (DESIGN CHOICE, log entry 75: the exchange names no parent). -/
def execTimeSyncExchange (p : Nat) (offset : Int) (s : State) : Host.Outcome State Fault Refusal :=
  .next (s.updPkg p (fun x =>
    if x.lead.leads || x.lead.leader.isNone then x
    else if x.timed then { x with rate := max (-200) (min 200 offset) }
    else x.setTime offset.toNat))

/-- A forme whose gang start is still to come includes package p (R408). -/
def Forme.awaits (f : Forme) (p : Nat) : Bool := f.loaded && f.gang.isSome && f.started == [] && f.packages.contains p

/-- UNSYNC_REPORT (R408): package p reports itself unsynchronised, and every gang start that includes it is withdrawn; or resynchronised. -/
def execUnsyncReport (p : Nat) (lost : Bool) (s : State) : Host.Outcome State Fault Refusal :=
  .next (
    let s := (s.updPkg p (fun x => { x with synced := !lost })).emit (.unsynced p lost)
    if lost then (s.formes.filter (fun e => e.2.awaits p)).foldl (fun s e => s.withdrawGang e.1 p) s else s)

end Sys2Proof.Machine
end

