-- ==== Sys2Proof/Machine/Fabric.lean ====
section
/-! DEFINITION. The router grid and the scale-up links (spec/22_pod.md R397 to R402): how a router assigns its flits, injection and the
side buffer, the resend of a message, the packets between packages. -/

namespace Sys2Proof.Machine

/-! ## Flits (R397, R398) -/

/-- A flit: header in the upper 32 bits, payload in the lower 128. -/
abbrev Flit := BitVec 160

/-- Deflections suffered. -/
def flitAge (f : Flit) : Nat := (f.extractLsb' 152 8).toNat
/-- Destination column. -/
def flitCol (f : Flit) : Nat := (f.extractLsb' 146 6).toNat
/-- Destination row. -/
def flitRow (f : Flit) : Nat := (f.extractLsb' 141 5).toNat
/-- The destination is the IOD port at the column. -/
def flitIod (f : Flit) : Bool := f.getLsbD 140
/-- What the flit's message is (R398): 1 a response, 2 an acknowledgement or refusal; 6 and 7 are not sent. -/
def flitKind (f : Flit) : Nat := (f.extractLsb' 137 3).toNat
/-- Flit index within its message. -/
def flitSeq (f : Flit) : Nat := (f.extractLsb' 133 4).toNat
/-- The message's last flit. -/
def flitLast (f : Flit) : Bool := f.getLsbD 132
/-- The source router's column. -/
def flitSrcCol (f : Flit) : Nat := (f.extractLsb' 122 6).toNat
/-- The source router's row. -/
def flitSrcRow (f : Flit) : Nat := (f.extractLsb' 117 5).toNat
/-- The message id. -/
def flitId (f : Flit) : Nat := (f.extractLsb' 105 12).toNat
/-- The check matches bits [31:4] of the header (R398). -/
def flitOk (f : Flit) : Bool := Config.crc4 (f.extractLsb' 132 28) == f.extractLsb' 128 4

/-- The message of a flit by its source router and id (R398). -/
def flitMsg (f : Flit) : Nat := (flitSrcRow f * 64 + flitSrcCol f) * 4096 + flitId f

/-- A flit with its age, and the check that goes with it. -/
def withAge (f : Flit) (age : Nat) : Flit :=
  let h : BitVec 28 := BitVec.ofNat 8 age ++ f.extractLsb' 132 20
  h ++ Config.crc4 h ++ f.extractLsb' 0 128

/-- The order of R399: greater age, then lower source router, message id, seq. -/
def flitBefore (a b : Flit) : Bool :=
  let sa := flitSrcRow a * 64 + flitSrcCol a
  let sb := flitSrcRow b * 64 + flitSrcCol b
  if flitAge a ≠ flitAge b then decide (flitAge b < flitAge a)
  else if sa ≠ sb then decide (sa < sb)
  else if flitId a ≠ flitId b then decide (flitId a < flitId b)
  else decide (flitSeq a < flitSeq b)

/-- Insertion into a list in that order. -/
def insertFlit (f : Flit) : List Flit → List Flit
  | [] => [f]
  | x :: r => if flitBefore f x then f :: x :: r else x :: insertFlit f r

/-- Flits in the order of R399. -/
def sortFlits (fs : List Flit) : List Flit := fs.foldr insertFlit []

/-! ## Ports (R397, R399): 0 E, 1 W, 2 S, 3 N -/

/-- The productive ports of one dimension of n positions from a to b: the forward port, the backward port, or both at half the ring. -/
def ringPorts (n a b fwd back : Nat) : List Nat :=
  let d := (b + n - a) % n
  if d = 0 then [] else if 2 * d = n then [fwd, back] else if 2 * d < n then [fwd] else [back]

/-- The wrapped distance in a dimension. -/
def ringDist (n a b : Nat) : Nat := let d := (b + n - a) % n; min d (n - d)

/-- The productive ports of a flit at a position, those of the dimension with the greater remaining distance first, E or W first on equal
distances (R399). -/
def productive (pos : Nat) (f : Flit) : List Nat :=
  let c := pos % 64
  let r := pos / 64
  let h := ringPorts 64 c (flitCol f) 0 1
  let v := ringPorts 32 r (flitRow f) 2 3
  if ringDist 64 c (flitCol f) < ringDist 32 r (flitRow f) then v ++ h else h ++ v

/-- The position beyond a port. -/
def beyond (pos port : Nat) : Nat :=
  let c := pos % 64
  let r := pos / 64
  match port with
  | 0 => r * 64 + (c + 1) % 64
  | 1 => r * 64 + (c + 63) % 64
  | 2 => (r + 1) % 32 * 64 + c
  | _ => (r + 31) % 32 * 64 + c

/-- A hop crosses between dies (R397, R400). -/
def crosses (a b : Nat) : Bool := a % 64 / 32 != b % 64 / 32 || a / 64 / 16 != b / 64 / 16

/-- The flit is at its destination. -/
def arrivedAt (pos : Nat) (f : Flit) : Bool := flitCol f == pos % 64 && flitRow f == pos / 64

/-- What a router does with its flits in a cycle: those ejected, those sent by port. -/
structure Routed where
  out   : List Flit := []
  sent  : List (Nat × Flit) := []
  deriving DecidableEq, Repr

/-- A port is free. -/
def Routed.free (x : Routed) (port : Nat) : Bool := !x.sent.any (fun e => e.1 == port)

/-- One flit is ejected, sent on a productive port, or deflected (R399). -/
def routeOne (pos : Nat) (x : Routed) (f : Flit) : Routed :=
  if arrivedAt pos f && decide (x.out.length < 2) then { x with out := x.out ++ [f] }
  else match (productive pos f).find? (fun p => x.free p) with
    | some p => { x with sent := x.sent ++ [(p, f)] }
    | none => match [0, 1, 2, 3].find? (fun p => x.free p) with
      | some p => { x with sent := x.sent ++ [(p, withAge f (min (flitAge f + 1) 255))] }
      | none => x

/-- A router that has sent a flit of a message of its own, from which a resend is made: the first flit begins the message anew (R398). -/
def Router.keep (r : Router) (f : Flit) : Router :=
  { r with sent := Map.set r.sent (flitId f) (if flitSeq f = 0 then [f] else Map.get r.sent (flitId f) [] ++ [f]) }

/-- The flits of a message that have arrived, with one more, in their order, each once (R398). -/
def joinFlit (l : List Flit) (f : Flit) : List Flit :=
  l.filter (fun g => decide (flitSeq g < flitSeq f)) ++ [f] ++ l.filter (fun g => decide (flitSeq f < flitSeq g))

/-- The flits are a whole message: from the first to the last (R398). -/
def wholeMessage (l : List Flit) : Bool :=
  l.map flitSeq == List.range l.length && (match l.getLast? with | some f => flitLast f | none => false)

/-- A flit has left the fabric at its destination: the router with the flits of messages that are still incomplete, and the whole message the
flit completes (R398). An answer ends the resends of the message it answers, which bears its id (PRESUMED, log entry 46). -/
def Router.eject (r : Router) (f : Flit) : Router × List Flit :=
  let l := joinFlit (Map.get r.partly (flitMsg f) []) f
  if wholeMessage l then
    ({ r with
      partly := Map.del r.partly (flitMsg f)
      sent := if flitKind f = 1 ∨ flitKind f = 2 then Map.del r.sent (flitId f) else r.sent }, l)
  else ({ r with partly := Map.set r.partly (flitMsg f) l }, [])

/-- The flits ejected in a cycle: the router after them, and those of the messages they complete. -/
def Router.ejectAll (r : Router) (fs : List Flit) : Router × List Flit :=
  fs.foldl (fun a f => let b := a.1.eject f; (b.1, a.2 ++ b.2)) (r, [])

/-- A message may begin: its id is not that of a message in flight, of which there are at most 4,096 (R398). -/
def Router.mayBegin (r : Router) (f : Flit) : Bool := flitSeq f != 0 || (Map.find r.sent (flitId f)).isNone

/-- The local flits of a router in a cycle (R400): the side buffer leaves at the first free port before any injection; the first waiting flit is
injected into a free productive port, or has waited one more cycle; the first flit of a message waits for its id (R398). -/
def injectLocal (pos : Nat) (r : Router) (x : Routed) : Router × Routed :=
  let a : Router × Routed := match r.side with
    | none => (r, x)
    | some f => match [0, 1, 2, 3].find? (fun p => x.free p) with
      | some p => ({ r with side := none }, { x with sent := x.sent ++ [(p, f)] })
      | none => (r, x)
  match a.1.inject with
  | [] => ({ a.1 with waited := 0, starved := false }, a.2)
  | f :: rest =>
    let ports := if a.1.starved then productive pos f ++ [0, 1, 2, 3] else productive pos f
    if (a.1.side.isSome && !a.1.starved) || !r.mayBegin f then ({ a.1 with waited := a.1.waited + 1 }, a.2)
    else match ports.find? (fun p => a.2.free p) with
      | some p => (({ a.1 with inject := rest, waited := 0, starved := false } : Router).keep f,
          { a.2 with sent := a.2.sent ++ [(p, f)] })
      | none => ({ a.1 with waited := a.1.waited + 1 }, a.2)

/-- One cycle of a router on its checked flits: a starved router first takes the last flit of the order into its side buffer (R400). -/
def routerStep (pos : Nat) (r : Router) (fs : List Flit) : Router × Routed :=
  let fs := sortFlits fs
  let r' : Router × List Flit := if r.starved && r.side.isNone then
      (match fs.getLast? with
        | some l => ({ r with side := some (withAge l (min (flitAge l + 1) 255)) }, fs.dropLast)
        | none => (r, fs))
    else (r, fs)
  let x := r'.2.foldl (fun x f => routeOne pos x f) {}
  if r'.1.side.isSome && r.side.isNone then
    let s := r'.1.side
    let y := injectLocal pos { r'.1 with side := none } x
    ({ y.1 with side := s }, y.2)
  else injectLocal pos r'.1 x

/-- A router of package p. -/
def State.router (s : State) (p pos : Nat) : Router := Map.get (s.pkg p).routers pos {}

/-- A router changed. -/
def State.setRouter (s : State) (p pos : Nat) (r : Router) : State := s.updPkg p (fun x => { x with routers := Map.set x.routers pos r })

/-- The compute die of a position (R397). -/
def dieOfPos (pos : Nat) : Nat := pos / 64 / 16 * 2 + pos % 64 / 32

/-- The flits of the next cycle of a router: of those that have arrived, the first on each port. -/
def arrivals (r : Router) : Router :=
  let due := r.coming.filter (fun e => e.1 == 0)
  let pick := [0, 1, 2, 3].filterMap (fun p => (due.find? (fun e => e.2.1 == p)).map (fun e => (p, e.2.2)))
  let rest := [0, 1, 2, 3].flatMap (fun p => (due.filter (fun e => e.2.1 == p)).drop 1)
  { r with inputs := pick, coming := rest ++ (r.coming.filter (fun e => e.1 != 0)).map (fun e => (e.1 - 1, e.2)) }

/-- The input port at which a flit sent on a port arrives. -/
def opposite (port : Nat) : Nat := match port with | 0 => 1 | 1 => 0 | 2 => 3 | _ => 2

/-- A flit travels one hop: 1 cycle, 4 more between dies (R400). -/
def State.hop (s : State) (p pos : Nat) (e : Nat × Flit) : State :=
  let n := beyond pos e.1
  let r := s.router p n
  (s.setRouter p n { r with coming := r.coming ++ [(if crosses pos n then 4 else 0, opposite e.1, e.2)] }).dueOnce (.routerCycle p n)

/-- The router to which edge port n of the IOD attaches (R397): columns 32j + 4k + 1, the 16 ports of CD0 and CD1 at row 0, those of CD2 and
CD3 at row 31. -/
def iodPort (n : Nat) : Nat := (n / 16) * 31 * 64 + n / 8 % 2 * 32 + n % 8 * 4 + 1

/-- The service galley that owns the edge port at a router (R397). -/
def portOwner (pos : Nat) : Nat := pos % 64 / 32

/-- ROUTER_CYCLE (R398, R399, R400): a flit whose check fails is dropped and counted; the others are ejected, sent or deflected; a message is
delivered when its last flit has come; a router that still has flits has another cycle. -/
def execRouterCycle (p pos : Nat) (s : State) : Host.Outcome State Fault Refusal :=
  .next (
    let r := s.router p pos
    let good := (r.inputs.map (·.2)).filter flitOk
    let bad := r.inputs.length - good.length
    let s := if bad = 0 then s else s.updDie (p * 8 + dieOfPos pos) (fun d => { d with dropped := d.dropped + bad })
    let x := routerStep pos r good
    let y := x.1.ejectAll x.2.out
    let r' := arrivals { y.1 with inputs := [] }
    let s := s.setRouter p pos r'
    let s := y.2.foldl (fun s f => s.emit (.flit p (if flitIod f then 5 + portOwner pos else 4) f)) s
    let s := x.2.sent.foldl (fun s e => s.hop p pos e) s
    let s := if 32 ≤ r'.waited ∧ ¬ r'.starved then s.dueOnce (.injectionStarvation p pos) else s
    if r'.inputs = [] ∧ r'.coming = [] ∧ r'.inject = [] ∧ r'.side = none then s else s.dueOnce (.routerCycle p pos))

/-- INJECTION_STARVATION (R400): a local flit that has waited 32 cycles is injected in the next. -/
def execInjectionStarvation (p pos : Nat) (s : State) : Host.Outcome State Fault Refusal :=
  .next (
    let r := s.router p pos
    if 32 ≤ r.waited then (s.setRouter p pos { r with starved := true }).dueOnce (.routerCycle p pos) else s)

/-- MESSAGE_RESEND (R398): a message without an answer for 2 µs is sent again. -/
def execMessageResend (p pos : Nat) (id : BitVec 12) (s : State) : Host.Outcome State Fault Refusal :=
  .next (
    let r := s.router p pos
    match Map.find r.sent id.toNat with
    | none => s
    | some fs => (s.setRouter p pos { r with inject := fs ++ r.inject, sent := Map.del r.sent id.toNat }).dueOnce (.routerCycle p pos))

/-! ## Scale-up links (R401, R402): link 2 × direction + k, directions +x, −x, +y, −y, +z, −z -/

/-- The coordinates of a rank in the torus (R401). -/
def Leadership.coord (l : Leadership) (rank : Nat) : Nat × Nat × Nat := l.coords.getD rank (0, 0, 0)

/-- The productive directions from coordinates a to b. -/
def productiveDirs (dims a b : Nat × Nat × Nat) : List Nat :=
  ringPorts dims.1 a.1 b.1 0 1 ++ ringPorts dims.2.1 a.2.1 b.2.1 2 3 ++ ringPorts dims.2.2 a.2.2 b.2.2 4 5

/-- The size of a dimension by direction. -/
def dimSize (dims : Nat × Nat × Nat) (dir : Nat) : Nat := if dir < 2 then dims.1 else if dir < 4 then dims.2.1 else dims.2.2

/-- A link of package p. -/
def State.link (s : State) (p l : Nat) : Link := Map.get (s.pkg p).links l {}

/-- The bytes a packet takes in a buffer: its flits and its CRC (R401). -/
def packetBytes (k : Packet) : Nat := 20 * k.flits.length + 4

/-- How full a link's egress buffer is, in bytes (R402). -/
def Link.fill (l : Link) : Nat := l.egress.foldl (fun n k => n + packetBytes k) 0

/-- The links of some directions that are up. -/
def State.upLinks (s : State) (p : Nat) (dirs : List Nat) : List Nat :=
  (dirs.flatMap (fun d => [2 * d, 2 * d + 1])).filter (fun l => !(s.link p l).down)

/-- The least full of some links, the lowest of equals. -/
def State.leastFull (s : State) (p : Nat) (ls : List Nat) : Option Nat :=
  ls.foldl (fun b l => match b with
    | none => some l
    | some a => if (s.link p l).fill < (s.link p a).fill then some l else some a) none

/-- A link's buffer, 64 KiB, and half of it (R402). -/
def linkBuffer : Nat := 65536
/-- Half a link's buffer. -/
def halfBuffer : Nat := 32768
/-- A link's buffer has room for a packet (R402). -/
def Link.hasRoom (l : Link) (k : Packet) : Bool := decide (l.fill + packetBytes k ≤ linkBuffer)

/-- What the path of requests goes by: the context and the 64-byte line of a message (R107, R402). -/
def State.pathKey (s : State) (id : Nat) : Option (Nat × Nat) :=
  match s.message id with
  | some m => m.parts.head?.map (fun q => (m.src, q.generic / 64))
  | none => none

/-- The link that a request of the same context to the same line, still unacknowledged, has taken (R402). -/
def State.earlierLink (s : State) (p : Nat) (k : Packet) : Option Nat :=
  match k.msg.bind s.pathKey with
  | none => none
  | some x => ((s.pkg p).links.find? (fun e => !e.2.down && e.2.carried.any (fun j => s.pathKey j == some x))).map (·.1)

/-- The link a packet takes (R402): that of an earlier request of its context to its line; a productive one; when all are more than half
full and it has not yet, one hop in a non-productive dimension that has room. -/
def State.chooseLink (s : State) (p : Nat) (k : Packet) : Option (Nat × Packet) :=
  match s.earlierLink p k with
  | some a => some (a, k)
  | none =>
  let l := (s.pkg p).lead
  let dirs := productiveDirs l.dims (l.coord p) (l.coord k.dest)
  let good := s.upLinks p dirs
  let other := s.upLinks p ([0, 1, 2, 3, 4, 5].filter (fun d => 1 < dimSize l.dims d && !dirs.any (fun e => e / 2 == d / 2)))
  match s.leastFull p good, s.leastFull p other with
  | some a, some b =>
    if halfBuffer < (s.link p a).fill && !k.detoured && decide ((s.link p b).fill < (s.link p a).fill) then some (b, { k with detoured := true })
    else some (a, k)
  | some a, none => some (a, k)
  | none, _ => none

/-- A packet leaves on a link: it waits in the buffer, unacknowledged (R401). -/
def State.sendPacket (s : State) (p l : Nat) (k : Packet) : State :=
  let ids (y : Link) : List Nat := k.msg.toList ++ y.carried.filter (fun j => (s.message j).isSome && k.msg != some j)
  (s.updPkg p (fun x => { x with links := Map.modify x.links l {} (fun y =>
    { y with egress := y.egress ++ [k], unacked := y.unacked ++ [k], carried := ids y }) })).emit (.packet p l k)

/-- The router at which the packets of a link enter: which edge port a link uses is not given (log entry 46). -/
def portRouter (link : Nat) : Nat := iodPort (link / 6 * 16 + link % 6)

/-- The built core at a router position of a galley (R397): with built core f failed, the positions from f upward take the next one. -/
def Pkg.builtCore (x : Pkg) (g pos : Nat) : Nat :=
  match Map.find x.spared g with | some f => if pos < f then pos else pos + 1 | none => pos

/-- The coordinate one step on in a direction of a dimension of size n. -/
def ringStep (n a dir : Nat) : Nat := if dir % 2 = 0 then (a + 1) % n else (a + n - 1) % n

/-- The rank beyond a direction (R401). -/
def Leadership.beyond (l : Leadership) (rank dir : Nat) : Option Nat :=
  let c := l.coord rank
  let n := dimSize l.dims dir
  let t := if dir < 2 then (ringStep n c.1 dir, c.2.1, c.2.2) else if dir < 4 then (c.1, ringStep n c.2.1 dir, c.2.2)
    else (c.1, c.2.1, ringStep n c.2.2 dir)
  l.coords.findIdx? (· == t)

/-- The other end of a link: the package beyond it and the link there (R401). -/
def State.linkEnd (s : State) (p link : Nat) : Option (Nat × Nat) :=
  ((s.pkg p).lead.beyond p (link / 2)).map (fun n => (n, if link / 2 % 2 = 0 then link + 2 else link - 2))

/-- A packet that has arrived on a link of package p is acknowledged: it leaves the buffer of the link's other end (R401, R402). -/
def State.acknowledge (s : State) (p link : Nat) (k : Packet) : State :=
  match s.linkEnd p link with
  | none => s
  | some (n, l) =>
    s.updPkg n (fun x => { x with links := Map.modify x.links l {} (fun y => { y with egress := y.egress.erase k, unacked := y.unacked.erase k }) })

/-- A packet failed its CRC on a link of package p: the link's sending end has failed a try, and with the 16th in 1 ms it is to be marked down
(R401; log entry 46). -/
def State.failedTry (s : State) (p link : Nat) : State :=
  match s.linkEnd p link with
  | none => s
  | some (n, l) =>
    let now := (s.pkg n).time
    let fs := (s.link n l).failed.filter (fun t => decide (now < t + 1000000)) ++ [now]
    let s := s.updPkg n (fun x => { x with links := Map.modify x.links l {} (fun y => { y with failed := fs }) })
    if 16 ≤ fs.length then s.dueOnce (.linkDown n l) else s

/-- A packet of 1 to 17 flits (R401). -/
def packetOk (k : Packet) : Bool := decide (1 ≤ k.flits.length) && decide (k.flits.length ≤ 17)

/-- Where a packet on a link of package p goes on: into the package, or on a link that has room for it (R402). -/
def State.onward (s : State) (p : Nat) (k : Packet) : Option (Nat × Packet) :=
  (s.chooseLink p k).filter (fun x => (s.link p x.1).hasRoom x.2)

/-- LINK_PACKET_ARRIVAL (R401, R402): a packet that fails its CRC is left to the link's retry; one for this package is acknowledged and enters
its fabric; any other is acknowledged and forwarded once a link to its destination has room, and waits until then. -/
def execLinkPacketArrival (p link : Nat) (pkt : Packet) (s : State) : Host.Outcome State Fault Refusal :=
  .next (
    if !packetOk pkt then s
    else if !pkt.crcOk then s.failedTry p link
    else if pkt.dest = p then
      let s := s.acknowledge p link pkt
      let pos := portRouter link
      let r := s.router p pos
      (s.setRouter p pos { r with inject := r.inject ++ pkt.flits }).dueOnce (.routerCycle p pos)
    else match s.onward p pkt with
      | some (l, k) => (s.acknowledge p link pkt).sendPacket p l k
      | none => s.due (.linkPacketArrival p link pkt))

/-- A packet of a link that is down is resent: on the other link of the pair, or, when that is down too, on one that leads on (R401). -/
def State.resend (s : State) (p other : Nat) (k : Packet) : State :=
  if !(s.link p other).down then s.sendPacket p other k
  else match s.chooseLink p k with
    | some (l, k) => s.sendPacket p l k
    | none => s

/-- Package p follows a leader, and every link that leads towards it is down (R408). -/
def State.cutOff (s : State) (p : Nat) : Bool :=
  let l := (s.pkg p).lead
  match l.leader with
  | some (_, n) =>
    let dirs := productiveDirs l.dims (l.coord p) (l.coord (l.members.findIdx (· == n)))
    !l.leads && dirs != [] && s.upLinks p dirs == []
  | none => false

/-- LINK_DOWN (R401, R408): the link is marked down, and the next boot step 6 avoids it; its unacknowledged packets are resent; a package cut off
from its leader reports itself unsynchronised. -/
def execLinkDown (p link : Nat) (s : State) : Host.Outcome State Fault Refusal :=
  .next (
    let l := s.link p link
    let other := if link % 2 = 0 then link + 1 else link - 1
    let s := s.updPkg p (fun x => { x with
      links := Map.set x.links link { l with down := true, egress := [], unacked := [], failed := [] }
      fellDown := if x.fellDown.contains link then x.fellDown else x.fellDown ++ [link] })
    let s := l.unacked.foldl (fun s k => s.resend p other k) s
    if s.cutOff p then s.dueOnce (.unsyncReport p true) else s)

end Sys2Proof.Machine
end

