-- ==== Sys2Proof/Machine/Power.lean ====
section
/-! DEFINITION. Energy accounts, allotments, the governor and health (spec/23_power.md R409 to R417; spec/20_debug.md R385). -/

namespace Sys2Proof.Machine

/-! ## The accounting tick (R409, R385) -/

/-- The estimate of a package's dynamic energy, by program: its activities by their weights (R409; log entry 7). -/
def Pkg.estimates (x : Pkg) : Map Nat :=
  x.charges.foldl (fun m e => Map.modify m (e.1 / 256) 0 (· + e.2 * Config.energyWeight (e.1 % 256))) []

/-- The static and idle energy of a package in a millisecond, in µJ, no more than was measured (R409; log entry 7). -/
def staticEnergy (p uj : Nat) : Nat := min uj (Config.energyWeight (1000 + p))

/-- The dynamic charges of the closing millisecond, scaled so that with the static part they make the energy measured (R409). -/
def Pkg.scaled (x : Pkg) (p uj : Nat) : Map Nat :=
  let e := x.estimates
  let total := e.foldl (fun n y => n + y.2) 0
  e.map (fun y => (y.1, if total = 0 then 0 else y.2 * (uj - staticEnergy p uj) / total))

/-- The record of a program's cycles (R385): handle, imposition number, TIME of the interval's end, the eight totals. -/
def cycleRecord (prog number time : Nat) (ts : List Nat) : List Byte :=
  leBytes 4 prog ++ leBytes 4 number ++ leBytes 8 time ++ ts.flatMap (fun t => leBytes 8 t)

/-- The total of a count over some contexts. -/
def classTotal (cs : List (Nat × Ctx)) (k : Nat) : Nat := cs.foldl (fun n e => n + Map.get e.2.classes k 0) 0

/-- The cores of a package: 512 of each compute die and the two service galleys (R1). -/
def coresOf (p : Nat) : List Nat := (List.range 2112).map (p * 4096 + ·)

/-- The cycles of class 7 of a core in n cycles (R385): of every context but the keeper those that no other class counts, empty ones among
them, and the keeper's own. -/
def idleCycles (cs : List (Nat × Ctx)) (k n : Nat) : Nat :=
  let own := cs.filter (fun e => coreOf e.1 == k)
  let busy := (own.filter (fun e => !isKeeper e.1)).foldl (fun a e =>
    a + (e.2.classes.filter (fun c => c.1 % 8 != 7)).foldl (fun a c => a + c.2) 0) 0
  15 * n - busy + classTotal (own.filter (fun e => isKeeper e.1)) 7

/-- The cycle classes of the last n cycles are read and cleared (R385): each program's cycles go to its record; class 7 to the cores' own. -/
def State.readClasses (s : State) (p n : Nat) : State :=
  let cs := s.ctxs.filter (fun e => pkgOf e.1 == p && e.2.classes != [])
  let progs := (cs.flatMap (fun e => (e.2.classes.filter (fun k => k.1 % 8 != 7)).map (fun k => k.1 / 8))).eraseDups
  let s := progs.foldl (fun s g =>
    let ts := (List.range 8).map (fun k => if k = 7 then 0 else classTotal cs (g * 8 + k))
    s.emit (.accounting p (cycleRecord g (s.forme (g / 65536)).number (s.time p).toNat ts))) s
  let s := (coresOf p).foldl (fun s k => s.updCore k (fun y => { y with idle := y.idle + idleCycles cs k n })) s
  { s with ctxs := s.ctxs.map (fun e => if pkgOf e.1 = p then (e.1, { e.2 with classes := [] }) else e) }

/-- The closing millisecond's charges of a forme's programs. -/
def formeCharge (m : Map Nat) (f : Nat) : Nat := m.foldl (fun n e => if e.1 / 65536 = f then n + e.2 else n) 0

/-- An allotment that has counted the closing millisecond: its use grows, and exhausts it (R411). -/
def Allot.count (a : Allot) (charge : Nat) : Allot :=
  let u := a.used + charge
  { a with used := u, ticks := a.ticks + 1, exhausted := a.exhausted || (a.limit != 0 && decide (a.limit ≤ u)) }

/-- An allotment after a tick (R411, R412): the closing millisecond counts to the interval it closes; new values then begin a new one. -/
def Allot.tick (a : Allot) (charge : Nat) : Allot :=
  match a.next with
  | some (l, n) => { limit := l, len := n }
  | none => a.count charge

/-- Every dispatcher of package p has something to look at again. -/
def State.callAll (s : State) (p : Nat) : State :=
  (s.queues.filter (fun e => e.2.valid && e.2.etype == 3#2 && e.2.homePkg == p && (e.2.entries != [] || e.2.waitPush != []))).foldl (fun s e => s.callDispatcher e.2.gal) s

/-- The interval of a forme's allotment on package p is over: the next starts with no use and no exhaustion; deferred slugs may be placed
(R77, R411). -/
def State.newInterval (s : State) (p f : Nat) : State :=
  (s.updPkg p (fun x => { x with
    allots := Map.modify x.allots f {} (fun a => { a with used := 0, ticks := 0, exhausted := false }) })).callAll p

/-- The allotment of a forme at a tick of package p (R411, R412): the record of an exhaustion in the interval the tick closes; a tick that
ends an interval ends it at once. -/
def State.allotTick (s : State) (p f charge : Nat) (a : Allot) : State :=
  let c := a.count charge
  let s := s.updPkg p (fun x => { x with allots := Map.set x.allots f (a.tick charge) })
  let ends : Nat := (s.pkg p).time + (c.len - c.ticks) * 1000000
  let s := if c.exhausted && !a.exhausted then
      s.pushStatus p f 0x06 0#32 (BitVec.ofNat 64 c.limit) ((BitVec.ofNat 48 ends).setWidth 64) else s
  if a.next.isSome then s.callAll p
  else if c.len ≤ c.ticks then s.newInterval p f else s

/-- ACCOUNTING_TICK (R409, R410, R411, R385): the accounts are updated with the energy measured over the millisecond. -/
def execAccountingTick (p : Nat) (uj : Nat) (s : State) : Host.Outcome State Fault Refusal :=
  .next (
    let x := s.pkg p
    let s0 := s
    let m := x.scaled p uj
    let s := m.foldl (fun s e => s.updProgram e.1 (fun g => { g with energy := g.energy + e.2 })) s
    let n := (s.cores.filter (fun e => e.1 / 4096 == p)).length
    let own (e : Nat × Core) : Nat × Core :=
      if e.1 / 4096 = p then (e.1, { e.2 with energy := e.2.energy + staticEnergy p uj / n }) else e
    let s := { s with cores := s.cores.map own }
    let s := s.updPkg p (fun y => { y with charges := [], ticked := (x.cycle, m.map (fun e => (e.1, (s0.program e.1).energy))) })
    let s := s.readClasses p (x.cycle - x.ticked.1)
    x.allots.foldl (fun s e => s.allotTick p e.1 (formeCharge m e.1) e.2) s)

/-- ALLOTMENT_INTERVAL_END (R411): an interval of package p ends, as it does within the accounting tick that ends it. -/
def execAllotmentIntervalEnd (p f : Nat) (s : State) : Host.Outcome State Fault Refusal :=
  .next (s.newInterval p f)

/-- ALLOTMENT_REQUEST (R412): the new values take effect at the next tick; a malformed record, or a forme not loaded, is answered −7. -/
def execAllotmentRequest (p : Nat) (rcd : List Byte) (s : State) : Host.Outcome State Fault Refusal :=
  .next (
    let f := recNat rcd 4 4
    let l := recNat rcd 16 4
    let ok : Bool := rcd.length == 64 && recNat rcd 0 4 == 1 && zeroFrom rcd 20 && decide (1 ≤ l) && decide (l ≤ 1000) && (s.forme f).loaded
    if ok then s.updPkg p (fun x => { x with allots := Map.modify x.allots f {} (fun a => { a with next := some (recNat rcd 8 8, l) }) })
    else s.emit (.answer p (-7)))

/-! ## The governor (R414, R415, R416) -/

/-- A package whose clock goes to a step: the fraction of the TIME tick that has passed is kept, in the units of the new clock (R415). -/
def Pkg.toStep (x : Pkg) (n : Nat) : Pkg := { x with clkStep := n, acc := x.acc * (24 - n) / (24 - x.clkStep) }

/-- A package after a sample of the governor (R414, R416): the samples in a row below 1,700 W and 3,300 A, of which ten, 100 µs, call for
a raise of the clock and are counted anew; an excess lowers the clock one
step, or at the floor leaves only even cycles, which end when the mean falls below 1,760 W. -/
def Pkg.sampled (x : Pkg) (mw ma : Nat) (hot : Bool) : Pkg :=
  let excess : Bool := decide (1760000 < mw) || decide (3520000 < ma) || hot
  let calm : Bool := decide (mw < 1700000) && decide (ma < 3300000) && !hot
  let up : Bool := calm && decide (9 ≤ x.calm)
  let x := { x with
    calm := if calm && !up then x.calm + 1 else 0, raise := x.raise || up, evenOnly := x.evenOnly && !decide (mw < 1760000) }
  if !excess then x
  else if x.clkStep < 12 then x.toStep (x.clkStep + 1)
  else { x with evenOnly := true }

/-- The die an error of storage is counted on, and the place of its storage in the health record (R371, R417). -/
def State.protectedAt (s : State) (e : Protected) : Nat × Nat :=
  match e with
  | .gReg c _ | .vReg c _ _ | .dReg c _ _ => (dieOf c, 0)
  | .cell k => (homeDie k, if isLs k then 1 else if isBank k then 3 else 4)
  | .plate core _ => (core / 512, 2)
  | .slot q _ => ((s.queue q).die, 5)

/-- A granule is marked poisoned (R371). -/
def State.spoil (s : State) (e : Protected) : State :=
  match e with
  | .gReg c i => s.setGReg c i { s.gReg c i with poison := true }
  | .vReg c i l => s.setVReg c i { s.vReg c i with poison := (s.vReg c i).poison ||| (1#16 <<< l) }
  | .dReg c i l => s.setDReg c i { s.dReg c i with poison := (s.dReg c i).poison ||| (1#96 <<< l) }
  | .cell k => if s.poison.contains (granule k) then s else { s with poison := granule k :: s.poison }
  | .plate core o => s.updCore core (fun k => { k with platePoison := (List.range 8).map (o / 8 * 8 + ·) ++ k.platePoison })
  | .slot q i => s.setQueue q { s.queue q with entries := (s.queue q).entries.modify i (fun x => { x with poison := true }) }

/-- An error of storage strikes (R371): one of a single bit is corrected, any other marks its granule poisoned; each is counted on its die. -/
def State.strike (s : State) (e : StorageError) : State :=
  let w := s.protectedAt e.place
  if e.single then s.updDie w.1 (fun d => { d with corrected := Map.modify d.corrected w.2 0 (· + 1) })
  else (s.updDie w.1 (fun d => { d with uncorrected := d.uncorrected + 1 })).spoil e.place

/-- GOVERNOR_SAMPLE (R414, R416): every 10 µs; a current above 3,600 A makes the fast response due. The errors of storage since the last
sample come with it (R371; DESIGN CHOICE, log entry 74: they have no event of their own). -/
def execGovernorSample (p mw ma : Nat) (sensed : Sensed) (s : State) : Host.Outcome State Fault Refusal :=
  .next (
    let s := s.updPkg p (fun x => x.sampled mw ma sensed.hot)
    let s := if (s.pkg p).raise then s.dueOnce (.clockRaise p) else s
    let s := if 3600000 < ma then s.dueOnce (.fastResponse p) else s
    sensed.errors.foldl State.strike s)

/-- CLOCK_RAISE (R414): the clock rises one step when 100 µs below the thresholds have called for it. -/
def execClockRaise (p : Nat) (s : State) : Host.Outcome State Fault Refusal :=
  .next (s.updPkg p (fun x => if x.raise then { x.toStep (x.clkStep - 1) with raise := false } else x))

/-- FAST_RESPONSE (R414): the clock is set to 1.2 GHz; each die's record counts it (R417). -/
def execFastResponse (p : Nat) (s : State) : Host.Outcome State Fault Refusal :=
  .next ((List.range 5).foldl (fun s i => s.updDie (p * 8 + i) (fun d => { d with fast := d.fast + 1 }))
    (s.updPkg p (fun x => { x.toStep 12 with calm := 0, raise := false })))

/-! ## Health (R417) -/

/-- A count at its width. -/
def saturate (n bits : Nat) : Nat := min n (2 ^ bits - 1)

/-- The record of a die (R417): die, clock step, hottest sensor, parts given up, corrected and uncorrectable errors, flits dropped, links
down, fast-response events. -/
def State.healthBytes (s : State) (d : Nat) (hottest : Half) : List Byte :=
  let x := s.die d
  let p := s.pkg (d / 8)
  leBytes 1 (d % 8) ++ leBytes 1 p.clkStep ++ leBytes 2 hottest.toNat ++ leBytes 1 (saturate (p.spared.filter (fun e => e.1 / 16 == d % 8)).length 8) ++
  leBytes 1 (saturate (p.mappedOut.filter (fun g => g / 16 == d % 8)).length 8) ++
  leBytes 2 (saturate (Map.get p.spareLanes (d % 8) 0) 16) ++ (List.range 6).flatMap (fun i => leBytes 4 (saturate (Map.get x.corrected i 0) 32)) ++
  leBytes 4 (saturate x.uncorrected 32) ++ leBytes 4 (saturate x.dropped 32) ++
  leBytes 2 (saturate (p.links.filter (fun l => l.2.down)).length 16) ++ leBytes 2 (saturate x.fast 16) ++ leBytes 20 0

/-- HEALTH_RECORD (R417): the record of a die, and its counts from nothing again. -/
def execHealthRecord (d : Nat) (hottest : Half) (s : State) : Host.Outcome State Fault Refusal :=
  .next ((s.emit (.health d (s.healthBytes d hottest))).updDie d (fun x =>
    { x with corrected := [], uncorrected := 0, dropped := 0, fast := 0 }))

end Sys2Proof.Machine
end

