-- ==== Sys2Proof/Machine/Record.lean ====
section
/-! DEFINITION. The proof buffer (spec/20_debug.md R382 to R384) and core dumps (R386, spec/05_ordering.md R125, R126). -/

namespace Sys2Proof.Machine

/-! ## Traces (R382 to R384) -/

/-- A request of a trace is well formed (R382): a galley of a compute die, which alone has a proof buffer (R24), mode 0 or 1, zeros where
zeros stand, the log aligned on 16. -/
def traceOk (d : Nat) (r : List Byte) : Bool :=
  r.length == 64 && decide (d % 8 < 4) && decide (recNat r 0 1 < 16) && decide (recNat r 1 1 < 2) && recNat r 2 6 == 0 &&
  recNat r 24 8 % 16 == 0 && zeroFrom r 42

/-- A result record (R384): galley, TIME of row 0, events written and dropped, status. -/
def traceRecord (galley time events dropped : Nat) (status : Int) : List Byte :=
  leBytes 8 galley ++ leBytes 8 time ++ leBytes 4 events ++ leBytes 4 dropped ++ leBytes 8 (codeWord status).toNat ++ leBytes 32 0

/-- The result of a trace goes to the record queue its request names (R382, R384): the rule names no job, and the queue is one of job 0, which
a keeper's context carries at reset; where no such queue is valid the record is handed out (DESIGN CHOICE, log entry 70). A full queue
keeps the push waiting (R63). -/
def State.traceAnswer (s : State) (d : Nat) (rcd res : List Byte) : State :=
  let q := recNat rcd 40 2
  if (s.queue q).valid then s.machinePush (d / 8 * 65536 + 4 * 8192) 0xFFFF#32 q { payload := BitVec.ofNat 512 (leNat res), valid := 0xFFFF#16 }
  else s.emit (.traceResult d q res)

/-- The first trace of a die is due to start (R382): mode 0 when TIME reaches its start. -/
def State.armTrace (s : State) (d : Nat) : State := if (s.die d).traces = [] then s else s.due (.traceStart d)

/-- TRACE_REQUEST (R382): −7 for a bad request; one that arrives while a trace runs waits behind it. -/
def execTraceRequest (d : Nat) (rcd : List Byte) (s : State) : Host.Outcome State Fault Refusal :=
  .next (if !traceOk d rcd then s.traceAnswer d rcd (traceRecord (recNat rcd 0 1) 0 0 0 (-7))
    else
      let first : Bool := (s.die d).traces == []
      let s := s.updDie d (fun x => { x with traces := x.traces ++ [{ rcd := rcd }] })
      if first then s.armTrace d else s)

/-- TRACE_START (R382, R384): recording begins with this cycle; one event for each occupied context of the galley. -/
def execTraceStart (d : Nat) (s : State) : Host.Outcome State Fault Refusal :=
  .next (match (s.die d).traces with
    | [] => s
    | t :: _ =>
      if t.running then s
      else
        let p := s.pkg (d / 8)
        let s := s.setTrace d { t with
          running := true, start := p.cycle, time := p.time, rows := (s.die d).proof.filter (fun e => e.1 / 32 != 0) }
        ((List.range 512).map (fun i => (d * 16 + t.galley) * 512 + i)).foldl (fun s c =>
          if (s.ctx c).occupied then s.traceEvent c 0 (s.ctx c).program (s.ctx c).pc else s) s)

/-- The bytes of a row (R383). -/
def rowBytes (m : Map Word) (row : Nat) : List Byte :=
  (List.range 32).flatMap (fun k => leBytes 4 (Map.get m (row * 32 + k) 0#64).toNat)

/-- TRACE_END (R384): the buffer goes to the copy address, row 0 first, and the result record is pushed; the next request starts. -/
def execTraceEnd (d : Nat) (s : State) : Host.Outcome State Fault Refusal :=
  .next (match (s.die d).traces with
    | [] => s
    | t :: r =>
      if !t.running then s
      else
        let at_ := physKey (d / 8) (recNat t.rcd 16 8)
        let s := (List.range 65536).foldl (fun s i => s.setBytes (at_ + 128 * i) (rowBytes t.rows i)) s
        let s := s.updDie d (fun x => { x with traces := r, proof := t.rows })
        (s.traceAnswer d t.rcd (traceRecord t.galley t.time t.events t.dropped 0)).armTrace d)

/-! ## Core dumps (R386) -/

/-- The folio record of a program that covers a code offset: its node, start, end and loop register (R322, R381); of records that overlap,
which R322 rules out and R324 does not refuse, the first (DESIGN CHOICE, log entry 39). -/
def Program.folioAt (x : Program) (o : Nat) : Option (Nat × Nat × Nat × Option Nat) :=
  x.folios.find? (fun f => decide (f.2.1 ≤ o) && decide (o < f.2.2.1))

/-- The folio node and loop index of a context (R381). -/
def State.folioOf (s : State) (c : Nat) : Nat × Nat :=
  let x := s.ctx c
  let g := s.program x.program.toNat
  match (if g.codeAt.toNat ≤ x.pc.toNat then g.folioAt (x.pc.toNat - g.codeAt.toNat) else none) with
  | none => (0, 0)
  | some f => (f.1, match f.2.2.2 with | some i => (s.gReg c i).val.toNat | none => 0)

/-- The register a message's answer is for. -/
def Dest.index : Dest → Nat
  | .v d _ _ => d
  | d => d.gregs.headD 0

/-- The object a context waits for (R386): the register of class 2, the queue handle of class 3. -/
def State.waitObject (s : State) (c : Nat) : Nat :=
  let x := s.ctx c
  let ours (f : Msg → Option Nat) : Nat := ((s.net.filter (fun m => m.src == c && m.waits && s.live m)).findSome? f).getD 0
  match s.cycleClass c with
  | 2 => (match x.wait with
    | .reg _ i | .slot i => i
    | .load => ours (fun m => some m.dest.index)
    | _ => 0)
  | 3 =>
    if s.pushBlocked c then ours (fun m => match m.kind with | .push q _ => some (q % 65536) | _ => none)
    else (match x.wait with
      | .mapped i => (x.mapped i).getD 0
      | .flow q | .pop q | .miss q => q % 65536
      | _ => 0)
  | _ => 0

/-- The 9,792 bytes of a context: the header and the save-slot image (R386, R44). -/
def State.contextEntry (s : State) (c : Nat) : List Byte :=
  let x := s.ctx c
  let f := s.folioOf c
  leBytes 4 (c % 2 ^ 22) ++ leBytes 4 x.program.toNat ++ leBytes 8 (s.cstatWord c).toNat ++ leBytes 4 x.tr.cause.toNat ++ leBytes 4 f.1 ++
  leBytes 8 x.tr.pc.toNat ++ leBytes 8 x.tr.addr.toNat ++ leBytes 8 x.tr.info.toNat ++ leBytes 4 (s.waitObject c) ++
  leBytes 4 x.imps.length ++ leBytes 8 f.2 ++ s.slotImage c (s.slugAt c x.pc (x.cond == .pinned) false)

/-- An entry of the engine section (R386). -/
def engineEntry (c tok kind ga gb time : Nat) : List Byte :=
  leBytes 4 (c % 2 ^ 22) ++ leBytes 1 tok ++ leBytes 3 kind ++ leBytes 8 ga ++ leBytes 8 gb ++ leBytes 8 time

/-- g[a] and g[b] of a platen operation at issue, 0 where unused. -/
def PlatenKind.operands : PlatenKind → Nat × Nat
  | .mdrain _ _ _ a => (a, 0)
  | .plld a q n => (a, n * 2 ^ 16 + q)
  | _ => (0, 0)

/-- The token register of a message's result. -/
def Msg.tokenReg (m : Msg) : Nat := m.dest.gregs.headD 0

/-- The engine operations of package p that are outstanding (R386). -/
def State.engineSection (s : State) (p : Nat) : List (List Byte) :=
  (s.galleys.filter (fun g => g.1 / 128 == p)).flatMap (fun g => g.2.feeder.map (fun e =>
    let o := e.2
    engineEntry o.ctx o.tok (match o.kind with | .copy _ => 1 | .bind .. => 2) o.dst.toNat o.src.toNat o.time)) ++
  (s.cores.filter (fun k => k.1 / 4096 == p)).flatMap (fun k => k.2.platenQ.map (fun o =>
    engineEntry o.ctx o.tok 3 o.kind.operands.1 o.kind.operands.2 o.time)) ++
  ((s.pkg p).groups.flatMap (fun g => g.2.queue) ++ (s.pkg p).repIn).map (fun o => engineEntry o.ctx o.tok 4 o.at_.toNat 0 o.time) ++
  (s.net.filter (fun m => pkgOf m.src == p)).filterMap (fun m => match m.kind with
    | .shadow b n => some (engineEntry m.src m.tokenReg 5 b n m.time)
    | .publish b => some (engineEntry m.src m.tokenReg 5 b 0 m.time)
    | _ => none)

/-- Die and, for a bank, galley and core of a cell in CTXID form (R125, R97). -/
def homeField (k : Nat) : Nat :=
  if isLs k then k / 2 ^ 56 * 2 ^ 16 + k / 2 ^ 18 % 4096 * 16
  else if isBank k then homeOfCell (k / 2 ^ 56) k 0 * 16
  else k / 2 ^ 56 * 2 ^ 16 + homeDieNo k * 2 ^ 13

/-- The target of a part lies on another package than p: a key of p itself names a place of p (R83, R125). -/
def Part.far (q : Part) (p : Nat) : Bool := q.loc.beyond p

/-- The home of a part as the record gives it (R386). -/
def State.homeWord (s : State) (m : Msg) (q : Part) : Nat :=
  match q.loc with
  | .remote key _ | .accepted key _ =>
    if q.far (pkgOf m.src) then 2 ^ 63 + key / 2 ^ 26 * 2 ^ 32 + key else ((s.cellOf m q).map homeField).getD 0
  | .priv o _ | .owned o _ => o % 2 ^ 22 / 16 * 16
  | _ => ((s.cellOf m q).map homeField).getD 0

/-- The scope reached by a store not yet applied within its package (R125): its own core reads it, a release only once its wait is over
(R113, R420); a store-conditional is seen by its context alone. -/
def State.scopeReached (s : State) (m : Msg) : Nat := if m.kind == .store && s.fenceBefore m.src m.sc m.id then 1 else 0

/-- The bytes a part stores. -/
def Msg.stored (m : Msg) (q : Part) : List Byte := match m.kind with | .sch v => leBytes q.size v.toNat | _ => q.data

/-- An entry of the in-flight store section (R125, R386). -/
def State.storeEntry (s : State) (m : Msg) (q : Part) : List Byte :=
  leBytes 8 q.generic ++ leBytes 8 (s.homeWord m q) ++ leBytes 4 (m.src % 2 ^ 22) ++ leBytes 1 q.size ++
  leBytes 11 (if q.far (pkgOf m.src) then 6 else s.scopeReached m) ++ (m.stored q ++ List.replicate (64 - (m.stored q).length) 0#8)

/-- A message is a posted store or store-conditional (R125). -/
def Msg.isStore (m : Msg) : Bool := match m.kind with | .store | .sch _ => true | _ => false

/-- The stores of package p that have not reached the die of their home, or have been sent to another package and not acknowledged, by
source (R125, R126). -/
def State.storeSection (s : State) (p : Nat) : List (List Byte) :=
  let ms := s.net.filter (fun m => pkgOf m.src == p && m.isStore)
  let cs := (ms.map (·.src)).eraseDups
  let sorted := cs.foldr (fun c l => l.filter (fun d => decide (d < c)) ++ [c] ++ l.filter (fun d => decide (c < d))) []
  sorted.flatMap (fun c => (ms.filter (fun m => m.src == c)).flatMap (fun m =>
    (m.parts.filter (fun q => !q.done || q.far p)).map (fun q => s.storeEntry m q)))

/-- The entry of a declared buffer (R386): the addresses of its frame lists are free values (log entry 5). -/
def State.shadowEntry (s : State) (b : Shadow) : List Byte × State :=
  let x := s.free
  let y := x.2.free
  (leBytes 8 b.base ++ leBytes 8 b.len ++ leBytes 8 x.1.toNat ++ leBytes 8 y.1.toNat, y.2)

/-- The cells of the shadow copy of a declared buffer, page by page with their lengths. -/
def State.shadowCells (s : State) (b : Shadow) : List (Nat × Nat) :=
  (s.pagesOf b).map (fun x => (physKey b.pkg (leafAddr (BitVec.ofNat 64 (s.load (companionAt x.at_ x.size) 8))), x.size))

/-- The memory of package p at a dump, and apart from it the shadows of its declared buffers (R125, R126). -/
def State.memoryImage (s : State) (p : Nat) : Memory × Memory :=
  let own := s.mem.filter (fun c => c.1 / 2 ^ 56 == p)
  let fs := (s.shadows.filter (fun b => b.pkg == p)).flatMap s.shadowCells
  own.partition (fun c => !fs.any (fun f => decide (f.1 ≤ c.1) && decide (c.1 < f.1 + f.2)))

/-- Ascending page numbers as ranges, each with its number of pages. -/
def pageRanges (l : List Nat) : List (Nat × Nat) :=
  l.foldr (fun a r => match r with
    | (b, n) :: t => if b = a then r else if b = a + 1 then (a, n + 1) :: t else (a, 1) :: r
    | [] => [(a, 1)]) []

/-- The memory section (R386): a descriptor of each range of image pages, its address in the package and its length (DESIGN CHOICE, log
entry 43). -/
def memorySection (image : Memory) : List (List Byte) :=
  (pageRanges (image.map (fun c => c.1 / 65536))).map (fun r => leBytes 8 (r.1 * 65536 % 2 ^ 56) ++ leBytes 8 (r.2 * 65536))

/-- A section padded to a multiple of 64 bytes. -/
def padded (bs : List Byte) : List Byte := bs ++ List.replicate ((64 - bs.length % 64) % 64) 0#8

/-- The dump of package p at T (R386): the header, then contexts, engines, in-flight stores, shadows and memory. The counts and offsets of
five sections from +16 end at +76, and the header is 128 bytes (DESIGN CHOICE, log entry 43). -/
def State.dumpBytes (s : State) (p : Nat) (t : Word) : List Byte × State :=
  let cs := ((coresOf p).flatMap (fun k => (List.range 16).map (k * 16 + ·))).filter (fun c => (s.ctx c).cond != .empty)
  let a := cs.map (fun c => s.contextEntry c)
  let b := s.engineSection p
  let c := s.storeSection p
  let r := (s.shadows.filter (fun b => b.pkg == p)).foldl
    (fun (x : List (List Byte) × State) y => let z := x.2.shadowEntry y; (x.1 ++ [z.1], z.2)) ([], s)
  let secs := [a, b, c, r.1, memorySection (s.memoryImage p).1]
  let bodies := secs.map (fun l => padded l.flatten)
  let offs := (bodies.foldl (fun (x : List Nat × Nat) y => (x.1 ++ [x.2], x.2 + y.length)) ([], 128)).1
  let head := leBytes 8 t.toNat ++ leBytes 8 p ++ (secs.zip offs).flatMap (fun e => leBytes 4 e.1.length ++ leBytes 8 e.2)
  (padded head ++ bodies.flatten, r.2)

/-- CORE_DUMP_REQUEST (R386): a dump for a TIME. -/
def execCoreDumpRequest (p : Nat) (t : Word) (hold : Bool) (dest : Nat) (s : State) : Host.Outcome State Fault Refusal :=
  .next ((s.updPkg p (fun x => { x with dump := some (t, hold, dest) })).due (.coreDumpAtT p))

/-- Every context of package p that holds a strand is left held with CHOLD (R386, R42). -/
def State.holdAll (s : State) (p : Nat) : State :=
  (s.ctxs.map (·.1)).foldl (fun s c =>
    if pkgOf c = p ∧ (s.ctx c).occupied ∧ (s.ctx c).hold = .none ∧ ¬ isKeeper c then s.chold c else s) s

/-- CORE_DUMP_AT_T (R386): the image is taken, and issue resumes unless a hold was asked for. -/
def execCoreDumpAtT (p : Nat) (s : State) : Host.Outcome State Fault Refusal :=
  .next (match (s.pkg p).dump with
    | none => s
    | some (t, hold, _) =>
      let r := s.dumpBytes p t
      let s := (r.2.updPkg p (fun x => { x with dump := none })).emit (.dump p r.1 (s.memoryImage p).1 (s.memoryImage p).2)
      if hold then s.holdAll p else s)

end Sys2Proof.Machine
end

