-- ==== Sys2Proof/Machine/Storage.lean ====
section
/-! DEFINITION. The storage service (spec/21_storage.md R387 to R391): targets, requests, mapped file ranges. -/

namespace Sys2Proof.Machine

/-! ## The service as an agent (R388) -/

/-- The context the services of the IOD of package p run in. -/
def svcCtx (p : Nat) : Nat := p * 65536 + 32768

/-- A service of package p acting for a job: it translates from the tables, and its granules may be refused (R369, R388). -/
def State.svcAgent (s : State) (p job : Nat) : Agent :=
  { ctx := svcCtx p, job := BitVec.ofNat 16 job, seq := s.nextId, refused := (s.pkg p).svcRefused, tlb := false }

/-- A read of n bytes by a service. -/
def State.svcRead (s : State) (w : Agent) (a n : Nat) : List Byte × Copy :=
  (linesOf a n).foldl (fun x l => let r := s.engRead w l.1 l.2 x.2; (x.1 ++ r.1, r.2)) ([], {})

/-- The writes of some bytes at an address by a service. -/
def State.svcWrite (s : State) (w : Agent) (a : Nat) (bs : List Byte) (x : Copy) : Copy :=
  (linesOf a bs.length).foldl (fun x l => s.engWrite w l.1 ((bs.drop (l.1 - a)).take l.2) x) x

/-- A page a service misses is for the pager, and the service waits for it (R369). -/
def State.svcMiss (s : State) (p : Nat) (x : Nat × Nat × Nat) : State :=
  let e := missOf x.1 x.2.1 x.2.2
  (s.faultAt e).updPkg p (fun y => if y.svcWait.contains e then y else { y with svcWait := y.svcWait ++ [e] })

/-- A page a service misses is still with the pager. -/
def State.svcHeld (s : State) (p : Nat) (x : Copy) : Bool :=
  match x.miss with
  | some (g, sp, va) => (s.pkg p).svcWait.contains (missOf g sp va) && (s.die (g / 128 * 8 + 4)).faulted sp (va / 65536)
  | none => false

/-- The granules of a range that were refused to the service are forgotten with the request they were refused to. -/
def State.svcForget (s : State) (p job a n : Nat) : State :=
  s.updPkg p (fun y => { y with svcRefused := y.svcRefused.filter (fun e =>
    !(e.1 % 2 ^ 40 == job && (decide (e.1 / 2 ^ 40 ≠ p) || (decide (e.2 * 65536 < a + n) && decide (a < (e.2 + 1) * 65536))))) })

/-- The job is cancelled, or being cancelled (R46, R50). -/
def State.jobCancelled (s : State) (job : Nat) : Bool :=
  let l := s.level (levelKey 4 job)
  l.state == 2 || l.state == 4

/-- A service of package p takes record r from its request queue of a job (R388, R396): one it has popped before and kept, or the next of
the queue; none when the next is another. A job whose queue the model is not given hands its records over directly (log entry 48). -/
def State.svcTake (s : State) (p job kind : Nat) (r : List Byte) : Option State :=
  if (s.pkg p).taken.contains (job, r) then some (s.updPkg p (fun x => { x with taken := x.taken.erase (job, r) }))
  else match Map.find (s.pkg p).services (job * 4 + kind) with
    | none => some s
    | some h =>
      let q := job * 65536 + h
      match s.meet q 0xFFFF#16 with
      | .entry i e => if e.bytes = r then some (((s.setQueue q ((s.queue q).take 0xFFFF#16 i)).touch q).settleQueue q) else none
      | .waiting w e => if e.bytes = r then some (((s.takeWaiting q w e 0xFFFF#16).touch q).settleQueue q) else none
      | _ => none

/-- A record that a service has popped is kept until its page is there. -/
def State.svcKeep (s : State) (p job : Nat) (r : List Byte) : State := s.updPkg p (fun x => { x with taken := x.taken ++ [(job, r)] })

/-! ## Requests (R388) -/

/-- The n bytes at an offset of a record are zero. -/
def zeroAt (r : List Byte) (o n : Nat) : Bool := ((r.drop o).take n).all (· == 0#8)

/-- Field tag of a request. -/
def reqTag (r : List Byte) : Nat := recNat r 2 2
/-- Field nsid. -/
def reqNsid (r : List Byte) : Nat := recNat r 4 4
/-- Field target. -/
def reqTarget (r : List Byte) : Nat := recNat r 8 2
/-- Field cq. -/
def reqCq (r : List Byte) : Nat := recNat r 10 2
/-- Field lba. -/
def reqLba (r : List Byte) : Nat := recNat r 16 8
/-- Field blocks. -/
def reqBlocks (r : List Byte) : Nat := recNat r 24 4
/-- Field address. -/
def reqAddr (r : List Byte) : Nat := recNat r 32 8

/-- A request of operation op is well formed (R388). -/
def reqOk (op : Nat) (r : List Byte) : Bool :=
  r.length == 64 && recNat r 0 1 == op && zeroAt r 1 1 && zeroAt r 12 4 && zeroAt r 28 4 && zeroAt r 40 24 &&
  (if op = 2 then reqBlocks r == 0 else decide (1 ≤ reqBlocks r) && decide (reqBlocks r ≤ 2 ^ 24))

/-- The target a handle of the job names (R387). -/
def State.targetOf (s : State) (p job h : Nat) : Option Target :=
  match Map.find (s.pkg p).targets h with
  | some t => if t.job = BitVec.ofNat 16 job then some t else none
  | none => none

/-- A queue that may receive records of the services for a job. -/
def State.svcQueue (s : State) (job h : Nat) : Bool :=
  let x := s.queue (job * 65536 + h)
  h != 0 && x.valid && x.etype == 2#2

/-- A record of a service for a queue of the job: it waits there for a place (R245). -/
def State.svcPush (s : State) (p job h : Nat) (v : BitVec 512) (c : Clock) : State :=
  if s.svcQueue job h then
    (s.bringIn (job * 65536 + h)).machinePush (svcCtx p) 0xFFFF#32 (job * 65536 + h) { payload := v, valid := 0xFFFF#16, stamp := c }
  else s

/-- A completion record (R388). -/
def storageCompletion (tag : Nat) (status : Int) (nvme : Nat) : BitVec 512 :=
  BitVec.ofNat 512 (tag % 2 ^ 16 * 2 ^ 16 + (codeWord status).toNat * 2 ^ 64 + nvme % 2 ^ 16 * 2 ^ 128)

/-- A request completes (R388). -/
def State.storageEnds (s : State) (p job : Nat) (r : List Byte) (status : Int) (nvme : Nat) (c : Clock) : State :=
  (s.svcForget p job (reqAddr r) (reqBlocks r * 4096)).svcPush p job (reqCq r) (storageCompletion (reqTag r) status nvme) c

/-- What stands against a request before it reaches the initiator: a malformed record, a handle outside the job, a cancelled job
(R388). -/
def State.reqRefused (s : State) (p job op : Nat) (r : List Byte) : Option Int :=
  if !reqOk op r then some (-7)
  else if (s.targetOf p job (reqTarget r)).isNone ∨ (reqCq r ≠ 0 ∧ !s.svcQueue job (reqCq r)) then some (-2)
  else if s.jobCancelled job then some (-6)
  else none

/-- The block size of the target a request names. -/
def State.reqBlock (s : State) (p job : Nat) (r : List Byte) : Nat :=
  match s.targetOf p job (reqTarget r) with | some t => t.blockSize | none => 512

/-- A transfer cut into commands of at most `per` blocks, in ascending LBA order (R387). -/
def commands (per : Nat) : Nat → Nat → Nat → List (Nat × Nat)
  | 0, _, _ => []
  | f + 1, lba, n => if n = 0 then [] else (lba, min per n) :: commands per f (lba + per) (n - per)

/-- A command to the initiator: op, tag, nsid, target, lba, blocks, and the bytes of a write. -/
def commandRecord (op nsid target lba blocks : Nat) (data : List Byte) : List Byte :=
  leBytes 4 op ++ leBytes 4 nsid ++ leBytes 8 target ++ leBytes 8 lba ++ leBytes 8 blocks ++ leBytes 32 0 ++ data

/-- The commands of a request leave (R387). -/
def State.sendCommands (s : State) (p job i : Nat) (r data : List Byte) : State :=
  let bs := s.reqBlock p job r
  let per := 2097152 / bs
  (commands per (reqBlocks r / per + 1) (reqLba r) (reqBlocks r)).foldl (fun s c =>
    s.emit (.storageCommand p i (commandRecord (recNat r 0 1) (reqNsid r) (reqTarget r) c.1 c.2
      ((data.drop ((c.1 - reqLba r) * bs)).take (c.2 * bs))))) s

/-- A request is under way (R388). -/
def State.startRequest (s : State) (p job : Nat) (r data : List Byte) : State :=
  let i := (s.pkg p).nextReq
  let s := s.updPkg p (fun x => { x with
    nextReq := i + 1
    storage := Map.set x.storage i { job := BitVec.ofNat 16 job, rcd := r } })
  if recNat r 0 1 = 2 then s.emit (.storageCommand p i (commandRecord 2 (reqNsid r) (reqTarget r) 0 0 []))
  else s.sendCommands p job i r data

/-- The request queue of a job for the service of a kind. -/
def State.requestQueue (s : State) (p job kind : Nat) : Nat := job * 65536 + (Map.find (s.pkg p).services (job * 4 + kind)).getD 0

/-- A record taken from the request queue of a job is dealt with by k; when another has come before it, that one is due (R388, R396). -/
def State.onRequest (s : State) (p job kind : Nat) (r : List Byte) (k : State → State) : State :=
  match s.svcTake p job kind r with
  | some t => k t
  | none => s.serviceDue (s.requestQueue p job kind)

/-- STORAGE_READ (R389). -/
def execStorageRead (p job : Nat) (r : List Byte) (s : State) : Host.Outcome State Fault Refusal :=
  .next (s.onRequest p job 0 r (fun s => match s.reqRefused p job 0 r with
    | some c => s.storageEnds p job r c 0 {}
    | none => s.startRequest p job r []))

/-- The status of a service's access that stopped with a code (R388). -/
def accessStatus (c : Int) : Int := if c = -3 then -3 else -2

/-- The buffer of a write, read after the request's pop (R389). -/
def State.writeBuffer (s : State) (p job : Nat) (r : List Byte) : List Byte × Copy :=
  s.svcRead (s.svcAgent p job) (reqAddr r) (reqBlocks r * s.reqBlock p job r)

/-- STORAGE_WRITE (R389): the buffer is read, and the commands leave. -/
def execStorageWrite (p job : Nat) (r : List Byte) (s : State) : Host.Outcome State Fault Refusal :=
  .next (s.onRequest p job 0 r (fun s => match s.reqRefused p job 1 r with
    | some c => s.storageEnds p job r c 0 {}
    | none =>
      let x := s.writeBuffer p job r
      match x.2.miss, x.2.stop with
      | some m, _ => ((s.svcMiss p m).svcKeep p job r).due (.storageWrite p job r)
      | none, some c => s.storageEnds p job r (accessStatus c) 0 {}
      | none, none => (s.svcForget p job (reqAddr r) (reqBlocks r * 4096)).startRequest p job r x.1))

/-- STORAGE_FLUSH (R389). -/
def execStorageFlush (p job : Nat) (r : List Byte) (s : State) : Host.Outcome State Fault Refusal :=
  .next (s.onRequest p job 0 r (fun s => match s.reqRefused p job 2 r with
    | some c => s.storageEnds p job r c 0 {}
    | none => s.startRequest p job r []))

/-! ## Completions (R389, R391) -/

/-- A request is no longer under way. -/
def State.dropRequest (s : State) (p i : Nat) : State := s.updPkg p (fun x => { x with storage := Map.del x.storage i })

/-- The bytes a read brings, as many as its buffer has. -/
def State.readBytes (s : State) (p : Nat) (q : StorageReq) (data : List Byte) : List Byte :=
  let n := reqBlocks q.rcd * s.reqBlock p q.job.toNat q.rcd
  data.take n ++ List.replicate (n - data.length) 0#8

/-- The writes of a read's buffer (R389). -/
def State.readWrites (s : State) (p : Nat) (q : StorageReq) (data : List Byte) : Copy :=
  s.svcWrite (s.svcAgent p q.job.toNat) (reqAddr q.rcd) (s.readBytes p q data) {}

/-- A fill's bytes wait for the pager to map their frame; a fill that failed makes the pager refuse (R391). -/
def State.fillEnds (s : State) (p i : Nat) (q : StorageReq) (sp gr : Nat) (status : Half) (data : List Byte) : State :=
  let bs := data.take 65536 ++ List.replicate (65536 - data.length) 0#8
  let q' : StorageReq := if status = 0#16 then { q with data := some bs } else { q with failed := true }
  let s := s.updPkg p (fun x => { x with storage := Map.set x.storage i q' })
  if status = 0#16 then s else s.due (.pagerRefuse p sp gr)

/-- A request's commands have ended (R388, R389): a read writes its buffer before its completion is pushed. -/
def State.requestEnds (s : State) (p i : Nat) (q : StorageReq) (status : Half) (data : List Byte) : State :=
  let job := q.job.toNat
  if s.jobCancelled job then (s.dropRequest p i).storageEnds p job q.rcd (-6) status.toNat {}
  else if status ≠ 0#16 then (s.dropRequest p i).storageEnds p job q.rcd (-3) status.toNat {}
  else if recNat q.rcd 0 1 ≠ 0 then (s.dropRequest p i).storageEnds p job q.rcd 0 0 {}
  else
    let x := s.readWrites p q data
    match x.miss, x.stop with
    | some m, _ => (s.svcMiss p m).due (.nvmeCompletion p i status data)
    | none, some c => (s.dropRequest p i).storageEnds p job q.rcd (accessStatus c) 0 {}
    | none, none =>
      let r := (s.dropRequest p i).putAll (p * 8 + 4) {} x.writes.reverse
      r.1.storageEnds p job q.rcd 0 0 r.2

/-- NVME_COMPLETION (R389). -/
def execNvmeCompletion (p i : Nat) (status : Half) (data : List Byte) (s : State) : Host.Outcome State Fault Refusal :=
  .next (match Map.find (s.pkg p).storage i with
    | none => s
    | some q => (match q.fill with
      | some (sp, gr) => s.fillEnds p i q sp gr status data
      | none => s.requestEnds p i q status data))

/-- A completion may happen: no page of its buffer is with the pager. -/
def State.completionReady (s : State) (p i : Nat) (status : Half) (data : List Byte) : Bool :=
  match Map.find (s.pkg p).storage i with
  | none => true
  | some q => status != 0#16 || q.fill.isSome || s.jobCancelled q.job.toNat || recNat q.rcd 0 1 != 0 ||
      !s.svcHeld p (s.readWrites p q data)

/-- A write may read its buffer: no page of it is with the pager. -/
def State.writeReady (s : State) (p job : Nat) (r : List Byte) : Bool :=
  (s.reqRefused p job 1 r).isSome || !s.svcHeld p (s.writeBuffer p job r).2

/-! ## Mapped file ranges (R390) -/

/-- Entries of the page-cache table. -/
def pageCacheMax : Nat := 1048576

/-- The granules of a range. -/
def granulesOf (a n : Nat) : List Nat := (List.range (n / 65536)).map (fun i => a / 65536 + i)

/-- A granule is mapped, or has a page-cache entry. -/
def State.granuleUsed (s : State) (p job gr : Nat) : Bool :=
  (s.walkCell p job (gr * 65536)).isSome || (Map.find (s.pkg p).pageCache (cacheKey job gr)).isSome

/-- The status of a map or unmap request, but for a full table (R390). -/
def State.rangeStatus (s : State) (p job op : Nat) (r : List Byte) : Int :=
  let n := reqBlocks r * s.reqBlock p job r
  match s.reqRefused p job op r with
  | some c => c
  | none =>
    if reqAddr r % 65536 ≠ 0 ∨ n % 65536 ≠ 0 then -7
    else if 2 ^ 54 < reqAddr r + n then -2
    else 0

/-- A fault of a granule that is outstanding when the granule gets a page-cache entry has it read (R391). -/
def State.fillFaulted (s : State) (p job : Nat) (gs : List Nat) : State :=
  gs.foldl (fun s g => if (s.faultsOf p job g) = [] then s else s.startFill p job g) s

/-- MAP_RANGE (R390): one page-cache entry for each granule. -/
def execMapRange (p job : Nat) (r : List Byte) (s : State) : Host.Outcome State Fault Refusal :=
  .next (s.onRequest p job 0 r (fun s =>
    let st := s.rangeStatus p job 3 r
    if st ≠ 0 then s.storageEnds p job r st 0 {}
    else
      let bs := s.reqBlock p job r
      let gs := granulesOf (reqAddr r) (reqBlocks r * bs)
      if gs.any (fun g => s.granuleUsed p job g) ∨ pageCacheMax < (s.pkg p).pageCache.length + gs.length then
        s.storageEnds p job r (-2) 0 {}
      else
        ((s.updPkg p (fun x => { x with pageCache := gs.foldl (fun m g =>
          Map.set m (cacheKey job g) (reqTarget r, reqNsid r, reqLba r + (g - reqAddr r / 65536) * (65536 / bs))) x.pageCache })).fillFaulted
            p job gs).storageEnds p job r 0 0 {}))

/-- A granule of the job is unmapped: its leaf is invalid, and the TLBs drop it (R370). -/
def State.unmapGranule (s : State) (p job gr : Nat) : State :=
  match s.walk p job (gr * 65536) with
  | .leaf _ _ k e => (s.setBytes k (leBytes 8 (e &&& ~~~(1#64 <<< 63)).toNat)).invalidate p job gr 1
  | .fault _ => s

/-- UNMAP_RANGE (R390): the entries of the range go, and its pages are unmapped. -/
def execUnmapRange (p job : Nat) (r : List Byte) (s : State) : Host.Outcome State Fault Refusal :=
  .next (s.onRequest p job 0 r (fun s =>
    let st := s.rangeStatus p job 4 r
    if st ≠ 0 then s.storageEnds p job r st 0 {}
    else
      let gs := (granulesOf (reqAddr r) (reqBlocks r * s.reqBlock p job r)).filter (fun g =>
        (Map.find (s.pkg p).pageCache (cacheKey job g)).isSome)
      let s := s.updPkg p (fun x => { x with
        pageCache := gs.foldl (fun m g => Map.del m (cacheKey job g)) x.pageCache
        cacheUse := x.cacheUse.filter (fun k => !gs.any (fun g => cacheKey job g == k)) })
      (gs.foldl (fun s g => (s.unmapGranule p job g).dropFill p job g) s).storageEnds p job r 0 0 {}))

/-! ## Targets (R387) -/

/-- The controllers of a kind that the targets of a package name (R387). -/
def controllers (ts : Map Target) (remote : Bool) : List Nat := ((ts.filter (fun t => t.2.remote == remote)).map (·.2.ctrl)).eraseDups

/-- STORAGE_TARGET_REGISTER (R387): a target outside the table is refused; else the handle names the controller for the job. -/
def execStorageTargetRegister (p job : Nat) (remote supported : Bool) (blockSize : Nat) (req : TargetRequest) (s : State) :
    Host.Outcome State Fault Refusal :=
  .next (
    let ts := (s.pkg p).targets
    let cs := controllers ts remote
    if !supported ∨ (blockSize ≠ 512 ∧ blockSize ≠ 4096) ∨ req.pairs = 0 ∨ 64 < req.pairs ∨
        req.depth = 0 ∨ 1024 < req.depth ∨ (!cs.contains req.ctrl ∧ (if remote then 32 else 8) ≤ cs.length) ∨
        (Map.find ts req.handle.toNat).isSome then
      s.emit (.answer p (-2))
    else
      (s.updPkg p (fun x => { x with
        targets := Map.set x.targets req.handle.toNat
          { job := BitVec.ofNat 16 job, blockSize := blockSize, remote := remote, ctrl := req.ctrl, pairs := req.pairs,
            depth := req.depth } })).emit
        (.answer p 0))

end Sys2Proof.Machine
end

