-- ==== Sys2Proof/Machine/Edition.lean ====
section
/-! DEFINITION. The edition service (spec/21_storage.md R392 to R396): manifests, descriptors, loads. -/

namespace Sys2Proof.Machine

/-! ## Manifests (R392) -/

/-- The shard count of a manifest. -/
def manCount (m : List Byte) : Nat := recNat m 16 4
/-- The edition length. -/
def manLength (m : List Byte) : Nat := recNat m 24 8
/-- Shard i of a manifest: its 160 bytes. -/
def manShard (m : List Byte) (i : Nat) : List Byte := (m.drop (192 + 160 * i)).take 160
/-- The stored length of a shard. -/
def shardLen (e : List Byte) : Nat := recNat e 32 8
/-- The size of the staging. -/
def stagingSize : Nat := 67108864

/-- A shard's entry is well formed: its sources' and its own zero fields, its op, its length no more than the staging. -/
def shardOk (e : List Byte) : Bool :=
  zeroAt e 2 2 && zeroAt e 18 2 && decide (shardLen e ≤ stagingSize) && decide (recNat e 48 1 ≤ 3) && zeroAt e 49 7 && zeroAt e 144 16

/-- A manifest is well formed (R392). -/
def manOk (m : List Byte) : Bool :=
  decide (192 ≤ m.length) && recNat m 0 4 == 0x45444E4D && recNat m 4 4 == 1 && decide (1 ≤ manCount m) && decide (manCount m ≤ 65535) &&
  manLength m % 65536 == 0 && zeroAt m 32 64 && m.length == 192 + 160 * manCount m &&
  (List.range (manCount m)).all (fun i => shardOk (manShard m i))

/-- A manifest with its signature taken as zero. -/
def manUnsigned (m : List Byte) : List Byte := m.take 96 ++ List.replicate 96 0#8 ++ m.drop 192

/-- The signature is by the key registered for the job under the key id (R392). -/
def State.manSigned (s : State) (p job : Nat) (m : List Byte) : Bool :=
  match Map.find (s.pkg p).signKeys (job * 2 ^ 32 + recNat m 20 4) with
  | none => false
  | some k => Config.ecdsaVerify k (Config.sha384 (manUnsigned m)) (BitVec.ofNat 768 (recNat m 96 96))

/-! ## Load records and descriptors (R394, R396) -/

/-- The tag of a load record. -/
def loadTag (r : List Byte) : Nat := recNat r 2 2
/-- The descriptor address of a load record. -/
def loadDesc (r : List Byte) : Nat := recNat r 24 8
/-- The staging address. -/
def loadStaging (r : List Byte) : Nat := recNat r 32 8
/-- The result queue. -/
def loadQueue (r : List Byte) : Nat := recNat r 40 2

/-- A load record is well formed (R396, R394). -/
def loadOk (r : List Byte) : Bool :=
  r.length == 64 && recNat r 0 1 == 1 && zeroAt r 1 1 && zeroAt r 4 4 && loadDesc r % 64 == 0 && loadStaging r % 65536 == 0 && zeroAt r 42 22

/-- The current slot of a binding word. -/
def curSlot (w : Nat) : Nat := w / 2 ^ 63 % 2
/-- The holds on a slot. -/
def holdsOn (w t : Nat) : Nat := if t = 0 then w % 2 ^ 31 else w / 2 ^ 32 % 2 ^ 31

/-- The descriptor of a job that a load record names: the job × 2^64 + its address. -/
def loadKey (job : Nat) (r : List Byte) : Nat := job * 2 ^ 64 + loadDesc r

/-- The descriptor a load is on. -/
def EditionLoad.key (x : EditionLoad) : Nat := loadKey x.job.toNat x.rcd

/-- The address of a descriptor. -/
def descAddr (desc : Nat) : Nat := desc % 2 ^ 64

/-- The first load that names a descriptor (R396). -/
def State.loadOf (s : State) (p desc : Nat) : Option EditionLoad := (s.pkg p).editions.find? (fun x => x.key == desc)

/-- The first load that names a descriptor, replaced. -/
def putLoad (desc : Nat) (y : EditionLoad) : List EditionLoad → List EditionLoad
  | [] => []
  | x :: r => if x.key = desc then y :: r else x :: putLoad desc y r

/-- The first load that names a descriptor, removed. -/
def dropLoad (desc : Nat) : List EditionLoad → List EditionLoad
  | [] => []
  | x :: r => if x.key = desc then r else x :: dropLoad desc r

/-- The load under way on a descriptor, replaced. -/
def State.setLoad (s : State) (p desc : Nat) (y : EditionLoad) : State :=
  s.updPkg p (fun x => { x with editions := putLoad desc y x.editions })

/-! ## What stands before a publish (R104, R121, R370) -/

/-- Every TLB of package p has acknowledged the invalidation of a buffer (R370). -/
def State.allAcked (s : State) (p job base len : Nat) : Bool :=
  !s.agenda.any (fun e => match e with
    | .tlbInvalidationAck g sp gr n =>
      g / 128 == p && sp == job && decide (gr * 65536 < base + len) && decide (base < (gr + n) * 65536)
    | _ => false)

/-- The ranges a feeder operation writes. -/
def FeedOp.writes (o : FeedOp) : List (Nat × Nat) :=
  match o.kind with
  | .copy _ => o.args.dests
  | .bind .. => (match o.request with | some r => r.dests | none => [])

/-- The ranges a REPART writes. -/
def RepOp.writes (o : RepOp) : List (Nat × Nat) := [o.records, o.receives, (o.stat, 64)]

/-- A feeder operation of some galley that was issued before number id names a buffer it writes (R104). -/
def State.feedersInto (s : State) (id : Nat) (b : Shadow) : Bool :=
  s.galleys.any (fun g => g.2.feeder.any (fun o => o.2.job == b.job && decide (o.2.seq < id) && s.names (g.1 / 128) b o.2.writes))

/-- A REPART that was issued before number id names a buffer it writes; one whose descriptor is still to be read may (R104). -/
def State.repartsInto (s : State) (id : Nat) (b : Shadow) : Bool :=
  s.pkgs.any (fun p =>
    p.2.groups.any (fun g => g.2.queue.any (fun o => o.job == b.job && decide (o.seq < id) && s.names p.1 b o.writes)) ||
    p.2.repIn.any (fun o => o.job == b.job && decide (o.seq < id)))

/-- A program read of the visible copy is under way: it reads one generation (R121). -/
def State.readUnderWay (s : State) (b : Shadow) : Bool :=
  let cs := s.visibleCells b
  s.net.any (fun m => m.kind.acc.reads && !m.placed &&
    m.parts.any (fun q => !q.done && (match s.cellOf m q with | some k => sharesByte [(k, q.size)] cs | none => false)))

/-! ## Buffers (R103, R396) -/

/-- A buffer goes back to the pager: its shadow withdrawn, its pages unmapped (R396, R370). -/
def State.returnBuffer (s : State) (p : Nat) (job : Half) (base len : Nat) : State :=
  (granulesOf base len).foldl (fun s g => s.unmapGranule p job.toNat g)
    (match s.shadowAt p job base with | some b => s.withdrawShadow b | none => s)

/-- The writes of the service for a job of some bytes of a descriptor, after others. -/
def State.descWrite (s : State) (p : Nat) (job : Half) (a : Nat) (bs : List Byte) (x : Copy) : Copy :=
  s.svcWrite (s.svcAgent p job.toNat) a bs x

/-- A field of a descriptor. -/
def State.descRead (s : State) (p job a n : Nat) : List Byte × Copy := s.svcRead (s.svcAgent p job) a n

/-! ## The end of a load (R396) -/

/-- The result record of a load. -/
def loadResult (status : Int) (shard attempts number tag : Nat) : BitVec 512 :=
  BitVec.ofNat 512 ((codeWord status).toNat + shard % 2 ^ 32 * 2 ^ 64 + attempts % 2 ^ 32 * 2 ^ 96 + number % 2 ^ 64 * 2 ^ 128 +
    tag % 2 ^ 16 * 2 ^ 192)

/-- No shard. -/
def noShard : Nat := 0xFFFFFFFF

/-- A load is over: its result, with the edition number of the manifest as far as it was read, is pushed, and the next load on the
descriptor is looked at. -/
def State.loadEnds (s : State) (p desc : Nat) (x : EditionLoad) (status : Int) (shard attempts : Nat) (c : Clock) : State :=
  let s := s.updPkg p (fun y => { y with editions := dropLoad desc y.editions })
  (s.svcPush p x.job.toNat (loadQueue x.rcd) (loadResult status shard attempts (recNat x.man 8 8) (loadTag x.rcd)) c).dueOnce
    (.editionOldSlotCheck p desc)

/-- A load fails (R396): nothing is published, the shadow is withdrawn and its buffer goes back. -/
def State.loadFails (s : State) (p desc : Nat) (x : EditionLoad) (status : Int) (shard attempts : Nat) : State :=
  let s := if x.stage = 0 then s else s.returnBuffer p x.job x.bufAt (manLength x.man)
  s.loadEnds p desc x status shard attempts {}

/-! ## Shards (R396 step 3) -/

/-- The staging a shard takes. -/
def stagingLen (n : Nat) : Nat := (n + 65535) / 65536 * 65536

/-- The lowest free range of the staging of a length. -/
def stagingFor (fl : List Shard) (n : Nat) : Option Nat :=
  let free (a : Nat) : Bool := decide (a + n ≤ stagingSize) && fl.all (fun h => decide (a + n ≤ h.at_) || decide (h.at_ + stagingLen h.len ≤ a))
  let cs := (0 :: fl.map (fun h => h.at_ + stagingLen h.len)).filter free
  match cs with
  | [] => none
  | c :: r => some (r.foldl min c)

/-- The read commands of an attempt on a shard, in ascending LBA order (R387): the primary source first, then the alternate. -/
def State.fetchCommand (s : State) (p : Nat) (x : EditionLoad) (h : Shard) : State :=
  let e := manShard x.man h.idx
  let o := if h.attempts = 1 then 0 else 16
  let bs := match s.targetOf p x.job.toNat (recNat e o 2) with | some t => t.blockSize | none => 512
  let n := (h.len + bs - 1) / bs
  let per := 2097152 / bs
  (commands per (n / per + 1) (recNat e (o + 8) 8) n).foldl (fun s c =>
    s.emit (.storageCommand p (2 ^ 32 + h.idx) (commandRecord 0 (recNat e (o + 4) 4) (recNat e o 2) c.1 c.2 []))) s

/-- Shards enter flight in manifest order, fewer than 8 at once, each with a range of the staging. -/
def State.launch (s : State) (p desc : Nat) : Nat → EditionLoad → State
  | 0, x => s.setLoad p desc x
  | n + 1, x =>
    if manCount x.man ≤ x.next ∨ 8 ≤ x.flight.length then s.setLoad p desc x
    else
      let len := shardLen (manShard x.man x.next)
      match stagingFor x.flight (stagingLen len) with
      | none => s.setLoad p desc x
      | some a =>
        let h : Shard := { idx := x.next, at_ := a, len := len }
        (s.fetchCommand p x h).launch p desc n { x with next := x.next + 1, flight := x.flight ++ [h] }

/-! ## The start of a load (R396 steps 1 and 2) -/

/-- What the load at the head of a descriptor meets next. -/
inductive LoadNext
  | fail (c : Int) (man : List Byte)
  | miss (x : Copy)
  | held (man : List Byte)
  | go (man : List Byte) (t : Nat)
  deriving DecidableEq, Repr

/-- Slot t of a binding word may be loaded, or is held. -/
def nextFor (man : List Byte) (w : Nat) : LoadNext :=
  let t := 1 - curSlot w
  if holdsOn w t = 0 then .go man t else .held man

/-- The manifest is checked, and the slot it goes to looked at. -/
def State.loadNext (s : State) (p : Nat) (x : EditionLoad) : LoadNext :=
  let job := x.job.toNat
  let len := recNat x.rcd 16 8
  if s.jobCancelled job then .fail (-6) []
  else if !loadOk x.rcd ∨ len < 192 ∨ 192 + 160 * 65535 < len then .fail (-7) []
  else
    let m := s.descRead p job (recNat x.rcd 8 8) len
    match m.2.miss, m.2.stop with
    | some _, _ => .miss m.2
    | none, some c => .fail (accessStatus c) []
    | none, none =>
      if !manOk m.1 then .fail (-7) m.1
      else if !s.manSigned p job m.1 then .fail (-2) m.1
      else
        let w := s.descRead p job (loadDesc x.rcd) 64
        match w.2.miss, w.2.stop with
        | some _, _ => .miss w.2
        | none, some c => .fail (accessStatus c) m.1
        | none, none => nextFor m.1 (recNat w.1 0 8)

/-- A load takes slot t: the slot's buffer goes back, the new one is declared, and shards are fetched. -/
def State.loadBegins (s : State) (p desc : Nat) (x : EditionLoad) (man : List Byte) (t : Nat) : State :=
  let slot := (s.descRead p x.job.toNat (descAddr desc + 16 + 16 * t) 16).1
  let s := if recNat slot 0 8 = 0 then s else s.returnBuffer p x.job (recNat slot 0 8) (recNat slot 8 8)
  let s := s.updPkg p (fun y => { y with oldSlots := y.oldSlots.filter (fun o => !(o.desc == desc && o.slot == t)) })
  let d := s.declare (svcCtx p) x.job x.bufAt (manLength man)
  let x := { x with man := man, slot := t }
  if d.1 ≠ 0 then s.loadFails p desc x d.1 noShard 0 else (d.2.declared p x.job x.bufAt).launch p desc 8 { x with stage := 1 }

/-- The load at the head of a descriptor goes as far as it can. -/
def State.loadSteps (s : State) (p desc : Nat) : State :=
  match s.loadOf p desc with
  | none => s
  | some x =>
    if x.stage ≠ 0 then (if s.jobCancelled x.job.toNat then s.loadFails p desc x (-6) noShard 0 else s)
    else match s.loadNext p x with
      | .fail c man => s.loadFails p desc { x with man := man } c noShard 0
      | .miss c => ((match c.miss with | some m => s.svcMiss p m | none => s)).dueOnce (.editionOldSlotCheck p desc)
      | .held _ => s.dueOnce (.editionOldSlotCheck p desc)
      | .go man t => s.loadBegins p desc x man t

/-- EDITION_LOAD (R396): a load is popped and checked and its shadow declared, when its turn on the descriptor has come. -/
def execEditionLoad (p job : Nat) (r : List Byte) (bufAt : Word) (s : State) : Host.Outcome State Fault Refusal :=
  .next (s.onRequest p job 1 r (fun s =>
    let k := loadKey (job % 65536) r
    let first := (s.loadOf p k).isNone
    let s := s.updPkg p (fun y => { y with editions := y.editions ++ [{ job := BitVec.ofNat 16 job, rcd := r, bufAt := bufAt.toNat }] })
    if first then s.loadSteps p k else s))

/-! ## Fetch, transform, publish (R393, R396) -/

/-- Shard i of a load, in flight. -/
def EditionLoad.shard (x : EditionLoad) (i : Nat) : Option Shard := x.flight.find? (fun h => h.idx == i)

/-- Shard i of a load changed. -/
def EditionLoad.setShard (x : EditionLoad) (h : Shard) : EditionLoad :=
  { x with flight := x.flight.map (fun y => if y.idx = h.idx then h else y) }

/-- An attempt on a shard read what the manifest says (R396). -/
def State.shardGood (s : State) (p : Nat) (x : EditionLoad) (h : Shard) (ok : Bool) (data : List Byte) : Bool :=
  let e := manShard x.man h.idx
  ok && (s.targetOf p x.job.toNat (recNat e (if h.attempts = 1 then 0 else 16) 2)).isSome && data.length == h.len &&
  (Config.sha384 data).toNat == recNat e 96 48

/-- The writes of a shard's stored bytes to its staging range, those of whatever attempt (R396 step 3). -/
def State.shardWrites (s : State) (p : Nat) (x : EditionLoad) (h : Shard) (data : List Byte) : Copy :=
  s.svcWrite (s.svcAgent p x.job.toNat) (loadStaging x.rcd + h.at_) (data.take h.len) {}

/-- The bytes of an attempt on a shard are in its range: the shard is transformed when they are what the manifest says, and the next
attempt leaves when they are not; after the fourth the load fails. -/
def State.shardHashed (s : State) (p desc : Nat) (x : EditionLoad) (h : Shard) (good : Bool) : State :=
  if good then (s.setLoad p desc (x.setShard { h with fetched := true })).due (.shardTransformDone p desc h.idx 0#64)
  else if 4 ≤ h.attempts then s.loadFails p desc x (-3) h.idx h.attempts
  else
    let h := { h with attempts := h.attempts + 1 }
    (s.setLoad p desc (x.setShard h)).fetchCommand p x h

/-- An attempt on a shard has ended: what it read is in the shard's range of the staging, and is hashed (R396 step 3). -/
def State.shardFetched (s : State) (p desc : Nat) (x : EditionLoad) (h : Shard) (ok : Bool) (data : List Byte) : State :=
  if s.jobCancelled x.job.toNat then s.loadFails p desc x (-6) noShard 0
  else
    let c := s.shardWrites p x h data
    match c.miss, c.stop with
    | some m, _ => (s.svcMiss p m).due (.shardFetchDone p desc h.idx ok data)
    | none, some _ => s.loadFails p desc x (-3) h.idx h.attempts
    | none, none => (s.putAll (p * 8 + 4) {} c.writes.reverse).1.shardHashed p desc x h (s.shardGood p x h ok data)

/-- SHARD_FETCH_DONE (R396). -/
def execShardFetchDone (p desc i : Nat) (ok : Bool) (data : List Byte) (s : State) : Host.Outcome State Fault Refusal :=
  .next (match s.loadOf p desc with
    | none => s
    | some x => (match x.shard i with
      | some h => if h.fetched then s else s.shardFetched p desc x h ok data
      | none => s))

/-- The feeder request of a shard (R393). -/
def shardRequest (x : EditionLoad) (h : Shard) : FeedArgs :=
  let e := manShard x.man h.idx
  let st := loadStaging x.rcd + h.at_
  let op := recNat e 48 1
  let v (i : Nat) : Nat := recNat e (56 + 8 * i) 8
  { fn := op, dst := x.bufAt + recNat e 40 8, src := st, x0 := v 0, x1 := v 1,
    x2 := if op = 1 then (v 2 + st) % 2 ^ 64 else if op = 2 then (v 2 + x.bufAt) % 2 ^ 64 else v 2,
    x3 := if op = 3 ∧ v 3 ≠ 0 then (v 3 + st) % 2 ^ 64 else v 3,
    x4 := if op = 3 then (v 4 + x.bufAt) % 2 ^ 64 else v 4 }

/-- The transform of a shard as it would run now. -/
def State.shardRun (s : State) (p : Nat) (x : EditionLoad) (h : Shard) : Copy :=
  s.feedRun (s.svcAgent p x.job.toNat) (shardRequest x h) .rne

/-- The publish of a load's buffer: the fault of a failed write, or the exchange (R104); its token. -/
def State.publishLoad (s : State) (p : Nat) (x : EditionLoad) : State × Word :=
  match s.shadowAt p x.job x.bufAt with
  | none => (s, codeWord (-7))
  | some b => let r := s.publishBuffer b; (r.1, codeWord r.2)

/-- A shard is transformed: its staging is free, more shards enter flight; after the last the buffer is published. -/
def State.shardOver (s : State) (p desc : Nat) (x : EditionLoad) (h : Shard) : State :=
  let x := { x with flight := x.flight.filter (fun y => y.idx != h.idx) }
  if x.flight = [] ∧ manCount x.man ≤ x.next then
    let r := s.publishLoad p x
    (r.1.setLoad p desc { x with stage := 2 }).due (.editionFlip p desc r.2)
  else s.launch p desc 8 x

/-- The feeder request of a shard ends (R393): its code fails the load. -/
def State.shardTransforms (s : State) (p desc : Nat) (x : EditionLoad) (h : Shard) (status : Word) : State :=
  if s.jobCancelled x.job.toNat then s.loadFails p desc x (-6) noShard 0
  else if status ≠ 0#64 then s.loadFails p desc x (-3) h.idx h.attempts
  else
    let c := s.shardRun p x h
    match c.miss, c.stop with
    | some m, _ => (s.svcMiss p m).due (.shardTransformDone p desc h.idx status)
    | none, some _ => s.loadFails p desc x (-3) h.idx h.attempts
    | none, none => (s.putAll (p * 8 + 4) c.stamp c.writes.reverse).1.shardOver p desc x h

/-- SHARD_TRANSFORM_DONE (R393). -/
def execShardTransformDone (p desc i : Nat) (status : Word) (s : State) : Host.Outcome State Fault Refusal :=
  .next (match s.loadOf p desc with
    | none => s
    | some x => (match x.shard i with
      | some h => if h.fetched then s.shardTransforms p desc x h status else s
      | none => s))

/-- The writes of slot t's base, length and number, and of the binding word with cur flipped (R396 step 5). -/
def State.flipWrites (s : State) (p desc : Nat) (x : EditionLoad) : Copy :=
  let a := descAddr desc
  let w := recNat (s.descRead p x.job.toNat a 8).1 0 8
  let c := s.descWrite p x.job (a + 16 + 16 * x.slot) (leBytes 8 x.bufAt ++ leBytes 8 (manLength x.man)) {}
  let c := s.descWrite p x.job (a + 48 + 4 * x.slot) (leBytes 4 (recNat x.man 8 8)) c
  s.descWrite p x.job a (leBytes 8 (w ^^^ 2 ^ 63)) c

/-- The slot is written and cur flipped (R396 step 5); the old slot's buffer is to go back once its holds are gone. A page of the descriptor
that is not mapped is for the pager; one that is refused fails the load. -/
def State.flips (s : State) (p desc : Nat) (x : EditionLoad) (token : Word) : State :=
  let c := s.flipWrites p desc x
  match c.miss, c.stop with
  | some m, _ => (s.svcMiss p m).due (.editionFlip p desc token)
  | none, some k => s.loadFails p desc x (accessStatus k) noShard 0
  | none, none =>
    let old := 1 - x.slot
    let held := recNat (s.descRead p x.job.toNat (descAddr desc + 16 + 16 * old) 8).1 0 8
    let r := s.putAll (p * 8 + 4) {} c.writes.reverse
    let s := if held = 0 then r.1 else r.1.updPkg p (fun y => { y with oldSlots := y.oldSlots ++ [{ job := x.job, desc := desc, slot := old }] })
    s.loadEnds p desc x 0 noShard 0 r.2

/-- EDITION_FLIP (R396): the publish token has landed. -/
def execEditionFlip (p desc : Nat) (token : Word) (s : State) : Host.Outcome State Fault Refusal :=
  .next (match s.loadOf p desc with
    | none => s
    | some x =>
      if x.stage ≠ 2 then s
      else if s.jobCancelled x.job.toNat then s.loadFails p desc x (-6) noShard 0
      else if token ≠ 0#64 then s.loadFails p desc x token.toInt noShard 0
      else s.flips p desc x token)

/-! ## Old slots (R396) -/

/-- The holds on an old slot are gone. -/
def State.slotIdle (s : State) (p : Nat) (o : OldSlot) : Bool :=
  let w := s.descRead p o.job.toNat (descAddr o.desc) 8
  !w.2.over && holdsOn (recNat w.1 0 8) o.slot == 0

/-- An old slot's buffer goes back, and the slot is empty (R394, R396). -/
def State.returnSlot (s : State) (p : Nat) (o : OldSlot) : State :=
  let a := descAddr o.desc + 16 + 16 * o.slot
  let slot := (s.descRead p o.job.toNat a 16).1
  let s := s.returnBuffer p o.job (recNat slot 0 8) (recNat slot 8 8)
  (s.putAll (p * 8 + 4) {} (s.descWrite p o.job a (leBytes 16 0) {}).writes.reverse).1

/-- EDITION_OLD_SLOT_CHECK (R396): old slots without holds are returned; a load that waits for its slot goes on. -/
def execEditionOldSlotCheck (p desc : Nat) (s : State) : Host.Outcome State Fault Refusal :=
  .next (
    let hit (o : OldSlot) : Bool := o.desc == desc && s.slotIdle p o
    let l := (s.pkg p).oldSlots
    let s := (l.filter hit).foldl (fun s o => s.returnSlot p o) (s.updPkg p (fun y => { y with oldSlots := l.filter (fun o => !hit o) }))
    let s := s.loadSteps p desc
    if (s.pkg p).oldSlots.any (fun o => o.desc == desc) then s.dueOnce (.editionOldSlotCheck p desc) else s)

/-- The check finds something to do. -/
def State.checkReady (s : State) (p desc : Nat) : Bool :=
  (s.pkg p).oldSlots.any (fun o => o.desc == desc && s.slotIdle p o) ||
  (match s.loadOf p desc with
    | none => !(s.pkg p).oldSlots.any (fun o => o.desc == desc)
    | some x =>
      if x.stage ≠ 0 then s.jobCancelled x.job.toNat || !(s.pkg p).oldSlots.any (fun o => o.desc == desc)
      else match s.loadNext p x with
        | .fail .. => true
        | .miss c => !s.svcHeld p c
        | .held _ => false
        | .go _ _ => true)

/-- EDITION_LOAD may happen: the pages that the buffer is allocated in are mapped, when the load is to declare it (R103, R396), or the record
is not the service's next. -/
def State.editionReady (s : State) (p job : Nat) (r : List Byte) (bufAt : Word) : Bool :=
  let x : EditionLoad := { job := BitVec.ofNat 16 job, rcd := r, bufAt := bufAt.toNat }
  let mapped (man : List Byte) : Bool :=
    (s.bufferPages p x.job.toNat (manLength man / 65536 + 1) x.bufAt (manLength man)).isOk
  (s.svcTake p job 1 r).isNone ||
  (match s.loadNext p x with
    | .go man _ => mapped man
    | .held man => mapped man
    | _ => true)

/-- A fetched shard's event may happen: its staging pages are not with the pager. -/
def State.fetchReady (s : State) (p desc i : Nat) (data : List Byte) : Bool :=
  match s.loadOf p desc with
  | none => true
  | some x => match x.shard i with
    | none => true
    | some h => s.jobCancelled x.job.toNat || !s.svcHeld p (s.shardWrites p x h data)

/-- The publish after the last shard of a load may be made: no engine operation writes the buffer's shadow, and no read of the buffer is
under way (R104, R121). -/
def State.publishClear (s : State) (p : Nat) (x : EditionLoad) (h : Shard) : Bool :=
  !(x.flight.all (fun y => y.idx == h.idx) && decide (manCount x.man ≤ x.next)) ||
  (match s.shadowAt p x.job x.bufAt with
    | some b => !s.feedersInto s.nextId b && !s.repartsInto s.nextId b && !s.readUnderWay b
    | none => true)

/-- EDITION_FLIP may happen: every TLB has acknowledged the publish, and no page of the descriptor is with the pager (R370, R396). -/
def State.flipReady (s : State) (p desc : Nat) : Bool :=
  match s.loadOf p desc with
  | none => true
  | some x => s.allAcked p x.job.toNat x.bufAt (manLength x.man) && !s.svcHeld p (s.flipWrites p desc x)

/-- A shard's transform may end: no page it needs is with the pager, and the publish may follow the last. -/
def State.transformReady (s : State) (p desc i : Nat) : Bool :=
  match s.loadOf p desc with
  | none => true
  | some x => match x.shard i with
    | none => true
    | some h => s.jobCancelled x.job.toNat || (!s.svcHeld p (s.shardRun p x h) && s.publishClear p x h)

/-! ## Signing keys (R392) -/

/-- EDITION_SIGNING_KEY_REGISTER (R392). -/
def execEditionSigningKeyRegister (p job : Nat) (keyId : BitVec 32) (key : BitVec 768) (s : State) : Host.Outcome State Fault Refusal :=
  .next (s.updPkg p (fun x => { x with signKeys := Map.set x.signKeys (job * 2 ^ 32 + keyId.toNat) key }))

end Sys2Proof.Machine
end

