-- ==== Sys2Proof/Machine/Dispatch.lean ====
section
/-! DEFINITION. Dispatch: one arm per constructor of Instr, each a direct call of its meaning. -/

namespace Sys2Proof.Machine

/-- One indivisible step of the machine: the meaning of an instruction or an event. -/
def exec (i : Instr) (s : State) : Host.Outcome State Fault Refusal :=
  match i with
  | .poolmaskWrite v => Sys2Proof.Machine.execPoolmaskWrite v s
  | .saveareaWrite v => Sys2Proof.Machine.execSaveareaWrite v s
  | .windowRegisterWrite r v => Sys2Proof.Machine.execWindowRegisterWrite r v s
  | .qmapWrite v => Sys2Proof.Machine.execQmapWrite v s
  | .loadValueLands id => Sys2Proof.Machine.execLoadValueLands id s
  | .longLatencyResultLands id => Sys2Proof.Machine.execLongLatencyResultLands id s
  | .storeAcknowledgement id => Sys2Proof.Machine.execStoreAcknowledgement id s
  | .refusalArrives id => Sys2Proof.Machine.execRefusalArrives id s
  | .attributedImpreciseTrap => Sys2Proof.Machine.execAttributedImpreciseTrap s
  | .cancelTrap => Sys2Proof.Machine.execCancelTrap s
  | .ibrkMatch i0 => Sys2Proof.Machine.execIbrkMatch i0 s
  | .watchpointMatch a info pc => Sys2Proof.Machine.execWatchpointMatch a info pc s
  | .stepHold pc => Sys2Proof.Machine.execStepHold pc s
  | .keeperRestart core entry => Sys2Proof.Machine.execKeeperRestart core entry s
  | .depositArrival id => Sys2Proof.Machine.execDepositArrival id s
  | .depositAnswer id => Sys2Proof.Machine.execDepositAnswer id s
  | .memoryRequestAtHome id => Sys2Proof.Machine.execMemoryRequestAtHome id s
  | .bankAluOperation id => Sys2Proof.Machine.execBankAluOperation id s
  | .clockMessage die origin count => Sys2Proof.Machine.execClockMessage die origin count s
  | .queuePushAtHome id => Sys2Proof.Machine.execQueuePushAtHome id s
  | .queuePopAtHome id => Sys2Proof.Machine.execQueuePopAtHome id s
  | .queueMissService q => Sys2Proof.Machine.execQueueMissService q s
  | .queueStateReport c slot => Sys2Proof.Machine.execQueueStateReport c slot s
  | .dispatchStep g => Sys2Proof.Machine.execDispatchStep g s
  | .preemptRequest c => Sys2Proof.Machine.execPreemptRequest c s
  | .forcedSave c => Sys2Proof.Machine.execForcedSave c s
  | .cancelService lvl => Sys2Proof.Machine.execCancelService lvl s
  | .formeLoad p img plan => Sys2Proof.Machine.execFormeLoad p img plan s
  | .gangReadyReport f p => Sys2Proof.Machine.execGangReadyReport f p s
  | .gangReadyDeadline f => Sys2Proof.Machine.execGangReadyDeadline f s
  | .gangStartTick f p => Sys2Proof.Machine.execGangStartTick f p s
  | .programReplacement prog k => Sys2Proof.Machine.execProgramReplacement prog k s
  | .replacementRegionDrained prog k new codeAt => Sys2Proof.Machine.execReplacementRegionDrained prog k new codeAt s
  | .pageWalkComplete d space granule => Sys2Proof.Machine.execPageWalkComplete d space granule s
  | .pagerMap p space granule writes => Sys2Proof.Machine.execPagerMap p space granule writes s
  | .pagerRefuse p space granule => Sys2Proof.Machine.execPagerRefuse p space granule s
  | .tlbInvalidationAck g space granule pages => Sys2Proof.Machine.execTlbInvalidationAck g space granule pages s
  | .feedCopyEnd g i0 => Sys2Proof.Machine.execFeedCopyEnd g i0 s
  | .feedqEntry g i0 => Sys2Proof.Machine.execFeedqEntry g i0 s
  | .platenOpStart core => Sys2Proof.Machine.execPlatenOpStart core s
  | .platenOpEnd core => Sys2Proof.Machine.execPlatenOpEnd core s
  | .condenserOpStart core => Sys2Proof.Machine.execCondenserOpStart core s
  | .condenserOpEnd core => Sys2Proof.Machine.execCondenserOpEnd core s
  | .repartRanksGathered group => Sys2Proof.Machine.execRepartRanksGathered group s
  | .repartMovement group => Sys2Proof.Machine.execRepartMovement group s
  | .repartEnd group r => Sys2Proof.Machine.execRepartEnd group r s
  | .publishExchange id => Sys2Proof.Machine.execPublishExchange id s
  | .shadowWithdrawal id => Sys2Proof.Machine.execShadowWithdrawal id s
  | .waitTableEnter id => Sys2Proof.Machine.execWaitTableEnter id s
  | .waitTableWake id => Sys2Proof.Machine.execWaitTableWake id s
  | .waitDeadlineExpiry p waiter => Sys2Proof.Machine.execWaitDeadlineExpiry p waiter s
  | .hostHdmAccess p off n wr => Sys2Proof.Machine.execHostHdmAccess p off n wr s
  | .hostQueuePush p handle data => Sys2Proof.Machine.execHostQueuePush p handle data s
  | .hostQueuePop p handle => Sys2Proof.Machine.execHostQueuePop p handle s
  | .hstatusWrite p v => Sys2Proof.Machine.execHstatusWrite p v s
  | .hostBadAccess p req => Sys2Proof.Machine.execHostBadAccess p req s
  | .hwait p req => Sys2Proof.Machine.execHwait p req s
  | .hwake p req => Sys2Proof.Machine.execHwake p req s
  | .hattest p req => Sys2Proof.Machine.execHattest p req s
  | .powerOnBoot p found => Sys2Proof.Machine.execPowerOnBoot p found s
  | .bootStepEnd p ok path digest found => Sys2Proof.Machine.execBootStepEnd p ok path digest found s
  | .railFault p => Sys2Proof.Machine.execRailFault p s
  | .heartbeatListenTimeout p => Sys2Proof.Machine.execHeartbeatListenTimeout p s
  | .candidacyReceived p round serial => Sys2Proof.Machine.execCandidacyReceived p round serial s
  | .candidacyQuietTimeout p => Sys2Proof.Machine.execCandidacyQuietTimeout p s
  | .leadReceived p lead => Sys2Proof.Machine.execLeadReceived p lead s
  | .heartbeatSend p => Sys2Proof.Machine.execHeartbeatSend p s
  | .heartbeatReceived p leader beat => Sys2Proof.Machine.execHeartbeatReceived p leader beat s
  | .leaderLossTimeout p => Sys2Proof.Machine.execLeaderLossTimeout p s
  | .yieldReceived p signed round serial => Sys2Proof.Machine.execYieldReceived p signed round serial s
  | .leaderCommand p round serial signed cmd => Sys2Proof.Machine.execLeaderCommand p round serial signed cmd s
  | .formeLoadOrder p by_ img plan => Sys2Proof.Machine.execFormeLoadOrder p by_ img plan s
  | .keyRegister p digest req => Sys2Proof.Machine.execKeyRegister p digest req s
  | .keyRevoke p region => Sys2Proof.Machine.execKeyRevoke p region s
  | .groupRegister p digest req => Sys2Proof.Machine.execGroupRegister p digest req s
  | .groupDeregister p handle => Sys2Proof.Machine.execGroupDeregister p handle s
  | .timeSyncExchange p offset => Sys2Proof.Machine.execTimeSyncExchange p offset s
  | .unsyncReport p lost => Sys2Proof.Machine.execUnsyncReport p lost s
  | .routerCycle p pos => Sys2Proof.Machine.execRouterCycle p pos s
  | .injectionStarvation p pos => Sys2Proof.Machine.execInjectionStarvation p pos s
  | .messageResend p pos id => Sys2Proof.Machine.execMessageResend p pos id s
  | .linkPacketArrival p link pkt => Sys2Proof.Machine.execLinkPacketArrival p link pkt s
  | .linkDown p link => Sys2Proof.Machine.execLinkDown p link s
  | .accountingTick p uj => Sys2Proof.Machine.execAccountingTick p uj s
  | .allotmentIntervalEnd p f => Sys2Proof.Machine.execAllotmentIntervalEnd p f s
  | .allotmentRequest p rec => Sys2Proof.Machine.execAllotmentRequest p rec s
  | .governorSample p mw ma hot => Sys2Proof.Machine.execGovernorSample p mw ma hot s
  | .clockRaise p => Sys2Proof.Machine.execClockRaise p s
  | .fastResponse p => Sys2Proof.Machine.execFastResponse p s
  | .thermalTrip p => Sys2Proof.Machine.execThermalTrip p s
  | .healthRecord d hottest => Sys2Proof.Machine.execHealthRecord d hottest s
  | .traceRequest d rec => Sys2Proof.Machine.execTraceRequest d rec s
  | .traceStart d => Sys2Proof.Machine.execTraceStart d s
  | .traceEnd d => Sys2Proof.Machine.execTraceEnd d s
  | .coreDumpRequest p t hold dest => Sys2Proof.Machine.execCoreDumpRequest p t hold dest s
  | .coreDumpAtT p => Sys2Proof.Machine.execCoreDumpAtT p s
  | .storageRead p job rec => Sys2Proof.Machine.execStorageRead p job rec s
  | .storageWrite p job rec => Sys2Proof.Machine.execStorageWrite p job rec s
  | .storageFlush p job rec => Sys2Proof.Machine.execStorageFlush p job rec s
  | .mapRange p job rec => Sys2Proof.Machine.execMapRange p job rec s
  | .unmapRange p job rec => Sys2Proof.Machine.execUnmapRange p job rec s
  | .nvmeCompletion p i0 status data => Sys2Proof.Machine.execNvmeCompletion p i0 status data s
  | .editionLoad p job rec bufAt => Sys2Proof.Machine.execEditionLoad p job rec bufAt s
  | .shardFetchDone p desc i0 ok data => Sys2Proof.Machine.execShardFetchDone p desc i0 ok data s
  | .shardTransformDone p desc i0 status => Sys2Proof.Machine.execShardTransformDone p desc i0 status s
  | .editionFlip p desc token => Sys2Proof.Machine.execEditionFlip p desc token s
  | .editionOldSlotCheck p desc => Sys2Proof.Machine.execEditionOldSlotCheck p desc s
  | .encodingNotAnInstruction w r => Sys2Proof.Machine.execEncodingNotAnInstruction w r s
  | .formeUnload f => Sys2Proof.Machine.execFormeUnload f s
  | .storageTargetRegister p job remote supported blockSize req => Sys2Proof.Machine.execStorageTargetRegister p job remote supported blockSize req s
  | .editionSigningKeyRegister p job keyId key => Sys2Proof.Machine.execEditionSigningKeyRegister p job keyId key s
  | .hostFunctionJobBind p job base => Sys2Proof.Machine.execHostFunctionJobBind p job base s
  | .add d a b => Sys2Proof.Machine.execAdd d a b s
  | .sub d a b => Sys2Proof.Machine.execSub d a b s
  | .and d a b => Sys2Proof.Machine.execAnd d a b s
  | .or d a b => Sys2Proof.Machine.execOr d a b s
  | .xor d a b => Sys2Proof.Machine.execXor d a b s
  | .andn d a b => Sys2Proof.Machine.execAndn d a b s
  | .shl d a b => Sys2Proof.Machine.execShl d a b s
  | .shr d a b => Sys2Proof.Machine.execShr d a b s
  | .sha d a b => Sys2Proof.Machine.execSha d a b s
  | .rot d a b => Sys2Proof.Machine.execRot d a b s
  | .min d a b => Sys2Proof.Machine.execMin d a b s
  | .max d a b => Sys2Proof.Machine.execMax d a b s
  | .minn d a b => Sys2Proof.Machine.execMinn d a b s
  | .maxn d a b => Sys2Proof.Machine.execMaxn d a b s
  | .slt d a b => Sys2Proof.Machine.execSlt d a b s
  | .sltn d a b => Sys2Proof.Machine.execSltn d a b s
  | .mul d a b => Sys2Proof.Machine.execMul d a b s
  | .mulh d a b => Sys2Proof.Machine.execMulh d a b s
  | .mulhn d a b => Sys2Proof.Machine.execMulhn d a b s
  | .div d a b => Sys2Proof.Machine.execDiv d a b s
  | .divn d a b => Sys2Proof.Machine.execDivn d a b s
  | .rem d a b => Sys2Proof.Machine.execRem d a b s
  | .remn d a b => Sys2Proof.Machine.execRemn d a b s
  | .seq d a b => Sys2Proof.Machine.execSeq d a b s
  | .clz d a w => Sys2Proof.Machine.execClz d a w s
  | .ffs d a w => Sys2Proof.Machine.execFfs d a w s
  | .popc d a w => Sys2Proof.Machine.execPopc d a w s
  | .sext d a w => Sys2Proof.Machine.execSext d a w s
  | .zext d a w => Sys2Proof.Machine.execZext d a w s
  | .brev d a => Sys2Proof.Machine.execBrev d a s
  | .bswap d a => Sys2Proof.Machine.execBswap d a s
  | .addi d a i0 => Sys2Proof.Machine.execAddi d a i0 s
  | .andi d a i0 => Sys2Proof.Machine.execAndi d a i0 s
  | .ori d a i0 => Sys2Proof.Machine.execOri d a i0 s
  | .xori d a i0 => Sys2Proof.Machine.execXori d a i0 s
  | .slti d a i0 => Sys2Proof.Machine.execSlti d a i0 s
  | .shli d a n => Sys2Proof.Machine.execShli d a n s
  | .shri d a n => Sys2Proof.Machine.execShri d a n s
  | .shai d a n => Sys2Proof.Machine.execShai d a n s
  | .roti d a n => Sys2Proof.Machine.execRoti d a n s
  | .bfx d a l p => Sys2Proof.Machine.execBfx d a l p s
  | .bfi d a l p => Sys2Proof.Machine.execBfi d a l p s
  | .limz d s0 i0 => Sys2Proof.Machine.execLimz d s0 i0 s
  | .limh d s0 i0 => Sys2Proof.Machine.execLimh d s0 i0 s
  | .adpc d i0 => Sys2Proof.Machine.execAdpc d i0 s
  | .faddS d a b => Sys2Proof.Machine.execFaddS d a b s
  | .fsubS d a b => Sys2Proof.Machine.execFsubS d a b s
  | .fmulS d a b => Sys2Proof.Machine.execFmulS d a b s
  | .fdivS d a b => Sys2Proof.Machine.execFdivS d a b s
  | .fminS d a b => Sys2Proof.Machine.execFminS d a b s
  | .fmaxS d a b => Sys2Proof.Machine.execFmaxS d a b s
  | .fsqrtS d a => Sys2Proof.Machine.execFsqrtS d a s
  | .fclassS d a => Sys2Proof.Machine.execFclassS d a s
  | .feqS d a b => Sys2Proof.Machine.execFeqS d a b s
  | .fltS d a b => Sys2Proof.Machine.execFltS d a b s
  | .fleS d a b => Sys2Proof.Machine.execFleS d a b s
  | .funS d a b => Sys2Proof.Machine.execFunS d a b s
  | .fsgnjS d a b => Sys2Proof.Machine.execFsgnjS d a b s
  | .fsgnjnS d a b => Sys2Proof.Machine.execFsgnjnS d a b s
  | .faddD d a b => Sys2Proof.Machine.execFaddD d a b s
  | .fsubD d a b => Sys2Proof.Machine.execFsubD d a b s
  | .fmulD d a b => Sys2Proof.Machine.execFmulD d a b s
  | .fdivD d a b => Sys2Proof.Machine.execFdivD d a b s
  | .fminD d a b => Sys2Proof.Machine.execFminD d a b s
  | .fmaxD d a b => Sys2Proof.Machine.execFmaxD d a b s
  | .fsqrtD d a => Sys2Proof.Machine.execFsqrtD d a s
  | .fclassD d a => Sys2Proof.Machine.execFclassD d a s
  | .feqD d a b => Sys2Proof.Machine.execFeqD d a b s
  | .fltD d a b => Sys2Proof.Machine.execFltD d a b s
  | .fleD d a b => Sys2Proof.Machine.execFleD d a b s
  | .funD d a b => Sys2Proof.Machine.execFunD d a b s
  | .fsgnjD d a b => Sys2Proof.Machine.execFsgnjD d a b s
  | .fsgnjnD d a b => Sys2Proof.Machine.execFsgnjnD d a b s
  | .ffmaS d a b => Sys2Proof.Machine.execFfmaS d a b s
  | .ffmsS d a b => Sys2Proof.Machine.execFfmsS d a b s
  | .fnmaS d a b => Sys2Proof.Machine.execFnmaS d a b s
  | .ffmaD d a b => Sys2Proof.Machine.execFfmaD d a b s
  | .ffmsD d a b => Sys2Proof.Machine.execFfmsD d a b s
  | .fnmaD d a b => Sys2Proof.Machine.execFnmaD d a b s
  | .fcvtS2d d a => Sys2Proof.Machine.execFcvtS2d d a s
  | .fcvtD2s d a => Sys2Proof.Machine.execFcvtD2s d a s
  | .fcvtS2b d a => Sys2Proof.Machine.execFcvtS2b d a s
  | .fcvtB2s d a => Sys2Proof.Machine.execFcvtB2s d a s
  | .fcvtI2s d a => Sys2Proof.Machine.execFcvtI2s d a s
  | .fcvtN2s d a => Sys2Proof.Machine.execFcvtN2s d a s
  | .fcvtI2d d a => Sys2Proof.Machine.execFcvtI2d d a s
  | .fcvtN2d d a => Sys2Proof.Machine.execFcvtN2d d a s
  | .fcvtS2i d a => Sys2Proof.Machine.execFcvtS2i d a s
  | .fcvtS2n d a => Sys2Proof.Machine.execFcvtS2n d a s
  | .fcvtD2i d a => Sys2Proof.Machine.execFcvtD2i d a s
  | .fcvtD2n d a => Sys2Proof.Machine.execFcvtD2n d a s
  | .beqz a o => Sys2Proof.Machine.execBeqz a o s
  | .bnez a o => Sys2Proof.Machine.execBnez a o s
  | .bltz a o => Sys2Proof.Machine.execBltz a o s
  | .bgez a o => Sys2Proof.Machine.execBgez a o s
  | .bgtz a o => Sys2Proof.Machine.execBgtz a o s
  | .blez a o => Sys2Proof.Machine.execBlez a o s
  | .bpres a o => Sys2Proof.Machine.execBpres a o s
  | .babs a o => Sys2Proof.Machine.execBabs a o s
  | .bmany k o => Sys2Proof.Machine.execBmany k o s
  | .ball k o => Sys2Proof.Machine.execBall k o s
  | .bnone k o => Sys2Proof.Machine.execBnone k o s
  | .jmp o => Sys2Proof.Machine.execJmp o s
  | .jal o => Sys2Proof.Machine.execJal o s
  | .jalr d a i0 => Sys2Proof.Machine.execJalr d a i0 s
  | .lds t a z m o => Sys2Proof.Machine.execLds t a z m o s
  | .ldn t a z m o => Sys2Proof.Machine.execLdn t a z m o s
  | .st t a z m o => Sys2Proof.Machine.execSt t a z m o s
  | .ldxsB d a b => Sys2Proof.Machine.execLdxsB d a b s
  | .ldxsH d a b => Sys2Proof.Machine.execLdxsH d a b s
  | .ldxsW d a b => Sys2Proof.Machine.execLdxsW d a b s
  | .ldxsD d a b => Sys2Proof.Machine.execLdxsD d a b s
  | .ldxnB d a b => Sys2Proof.Machine.execLdxnB d a b s
  | .ldxnH d a b => Sys2Proof.Machine.execLdxnH d a b s
  | .ldxnW d a b => Sys2Proof.Machine.execLdxnW d a b s
  | .stxB d a b => Sys2Proof.Machine.execStxB d a b s
  | .stxH d a b => Sys2Proof.Machine.execStxH d a b s
  | .stxW d a b => Sys2Proof.Machine.execStxW d a b s
  | .stxD d a b => Sys2Proof.Machine.execStxD d a b s
  | .pref a b => Sys2Proof.Machine.execPref a b s
  | .amoadd d a b s0 => Sys2Proof.Machine.execAmoadd d a b s0 s
  | .amoand d a b s0 => Sys2Proof.Machine.execAmoand d a b s0 s
  | .amoor d a b s0 => Sys2Proof.Machine.execAmoor d a b s0 s
  | .amoxor d a b s0 => Sys2Proof.Machine.execAmoxor d a b s0 s
  | .amomin d a b s0 => Sys2Proof.Machine.execAmomin d a b s0 s
  | .amomax d a b s0 => Sys2Proof.Machine.execAmomax d a b s0 s
  | .amominn d a b s0 => Sys2Proof.Machine.execAmominn d a b s0 s
  | .amomaxn d a b s0 => Sys2Proof.Machine.execAmomaxn d a b s0 s
  | .amofaddS d a b s0 => Sys2Proof.Machine.execAmofaddS d a b s0 s
  | .amofminS d a b s0 => Sys2Proof.Machine.execAmofminS d a b s0 s
  | .amofmaxS d a b s0 => Sys2Proof.Machine.execAmofmaxS d a b s0 s
  | .amofaddD d a b s0 => Sys2Proof.Machine.execAmofaddD d a b s0 s
  | .amofminD d a b s0 => Sys2Proof.Machine.execAmofminD d a b s0 s
  | .amofmaxD d a b s0 => Sys2Proof.Machine.execAmofmaxD d a b s0 s
  | .amoswap d a b s0 => Sys2Proof.Machine.execAmoswap d a b s0 s
  | .amocas d a b s0 => Sys2Proof.Machine.execAmocas d a b s0 s
  | .lrw d a s0 => Sys2Proof.Machine.execLrw d a s0 s
  | .sch a b s0 => Sys2Proof.Machine.execSch a b s0 s
  | .rsvrel a s0 => Sys2Proof.Machine.execRsvrel a s0 s
  | .fence s0 => Sys2Proof.Machine.execFence s0 s
  | .lda d a s0 => Sys2Proof.Machine.execLda d a s0 s
  | .stl a b s0 => Sys2Proof.Machine.execStl a b s0 s
  | .publish d a s0 => Sys2Proof.Machine.execPublish d a s0 s
  | .shadow d a b => Sys2Proof.Machine.execShadow d a b s
  | .binit d a b s0 => Sys2Proof.Machine.execBinit d a b s0 s
  | .barrive d a s0 => Sys2Proof.Machine.execBarrive d a s0 s
  | .bwait d a b s0 => Sys2Proof.Machine.execBwait d a b s0 s
  | .bstat d a k => Sys2Proof.Machine.execBstat d a k s
  | .nput e a b => Sys2Proof.Machine.execNput e a b s
  | .parm t => Sys2Proof.Machine.execParm t s
  | .waitv t a b => Sys2Proof.Machine.execWaitv t a b s
  | .wakev t a b => Sys2Proof.Machine.execWakev t a b s
  | .migrate a => Sys2Proof.Machine.execMigrate a s
  | .redAdd a b => Sys2Proof.Machine.execRedAdd a b s
  | .redAnd a b => Sys2Proof.Machine.execRedAnd a b s
  | .redOr a b => Sys2Proof.Machine.execRedOr a b s
  | .redXor a b => Sys2Proof.Machine.execRedXor a b s
  | .redMin a b => Sys2Proof.Machine.execRedMin a b s
  | .redMax a b => Sys2Proof.Machine.execRedMax a b s
  | .redFaddS a b => Sys2Proof.Machine.execRedFaddS a b s
  | .redFaddD a b => Sys2Proof.Machine.execRedFaddD a b s
  | .vadd d a b m t => Sys2Proof.Machine.execVadd d a b m t s
  | .vsub d a b m t => Sys2Proof.Machine.execVsub d a b m t s
  | .vmul d a b m t => Sys2Proof.Machine.execVmul d a b m t s
  | .vmulh d a b m t => Sys2Proof.Machine.execVmulh d a b m t s
  | .vmin d a b m t => Sys2Proof.Machine.execVmin d a b m t s
  | .vmax d a b m t => Sys2Proof.Machine.execVmax d a b m t s
  | .vminn d a b m t => Sys2Proof.Machine.execVminn d a b m t s
  | .vmaxn d a b m t => Sys2Proof.Machine.execVmaxn d a b m t s
  | .vand d a b m t => Sys2Proof.Machine.execVand d a b m t s
  | .vor d a b m t => Sys2Proof.Machine.execVor d a b m t s
  | .vxor d a b m t => Sys2Proof.Machine.execVxor d a b m t s
  | .vandn d a b m t => Sys2Proof.Machine.execVandn d a b m t s
  | .vshl d a b m t => Sys2Proof.Machine.execVshl d a b m t s
  | .vshr d a b m t => Sys2Proof.Machine.execVshr d a b m t s
  | .vsha d a b m t => Sys2Proof.Machine.execVsha d a b m t s
  | .vabs d a m t => Sys2Proof.Machine.execVabs d a m t s
  | .vneg d a m t => Sys2Proof.Machine.execVneg d a m t s
  | .vclz d a m t => Sys2Proof.Machine.execVclz d a m t s
  | .vffs d a m t => Sys2Proof.Machine.execVffs d a m t s
  | .vpopc d a m t => Sys2Proof.Machine.execVpopc d a m t s
  | .vfadd d a b m t => Sys2Proof.Machine.execVfadd d a b m t s
  | .vfsub d a b m t => Sys2Proof.Machine.execVfsub d a b m t s
  | .vfmul d a b m t => Sys2Proof.Machine.execVfmul d a b m t s
  | .vfdiv d a b m t => Sys2Proof.Machine.execVfdiv d a b m t s
  | .vfmin d a b m t => Sys2Proof.Machine.execVfmin d a b m t s
  | .vfmax d a b m t => Sys2Proof.Machine.execVfmax d a b m t s
  | .vfabs d a m t => Sys2Proof.Machine.execVfabs d a m t s
  | .vfneg d a m t => Sys2Proof.Machine.execVfneg d a m t s
  | .vfsqrt d a m t => Sys2Proof.Machine.execVfsqrt d a m t s
  | .vfma d a b m t => Sys2Proof.Machine.execVfma d a b m t s
  | .vfms d a b m t => Sys2Proof.Machine.execVfms d a b m t s
  | .vfnma d a b m t => Sys2Proof.Machine.execVfnma d a b m t s
  | .veq k a b m t => Sys2Proof.Machine.execVeq k a b m t s
  | .vne k a b m t => Sys2Proof.Machine.execVne k a b m t s
  | .vlt k a b m t => Sys2Proof.Machine.execVlt k a b m t s
  | .vle k a b m t => Sys2Proof.Machine.execVle k a b m t s
  | .vltn k a b m t => Sys2Proof.Machine.execVltn k a b m t s
  | .vlen k a b m t => Sys2Proof.Machine.execVlen k a b m t s
  | .vfeq k a b m t => Sys2Proof.Machine.execVfeq k a b m t s
  | .vflt k a b m t => Sys2Proof.Machine.execVflt k a b m t s
  | .vfle k a b m t => Sys2Proof.Machine.execVfle k a b m t s
  | .vfun k a b m t => Sys2Proof.Machine.execVfun k a b m t s
  | .vrcp d a m => Sys2Proof.Machine.execVrcp d a m s
  | .vrsq d a m => Sys2Proof.Machine.execVrsq d a m s
  | .vexp2 d a m => Sys2Proof.Machine.execVexp2 d a m s
  | .vlog2 d a m => Sys2Proof.Machine.execVlog2 d a m s
  | .vsin d a m => Sys2Proof.Machine.execVsin d a m s
  | .vcos d a m => Sys2Proof.Machine.execVcos d a m s
  | .vtanh d a m => Sys2Proof.Machine.execVtanh d a m s
  | .vcvtS2d d a m => Sys2Proof.Machine.execVcvtS2d d a m s
  | .vcvtD2s d a m => Sys2Proof.Machine.execVcvtD2s d a m s
  | .vcvtS2b d a m => Sys2Proof.Machine.execVcvtS2b d a m s
  | .vcvtB2s d a m => Sys2Proof.Machine.execVcvtB2s d a m s
  | .vcvtI2s d a m => Sys2Proof.Machine.execVcvtI2s d a m s
  | .vcvtN2s d a m => Sys2Proof.Machine.execVcvtN2s d a m s
  | .vcvtS2i d a m => Sys2Proof.Machine.execVcvtS2i d a m s
  | .vcvtS2n d a m => Sys2Proof.Machine.execVcvtS2n d a m s
  | .vcvtM8d d a q m => Sys2Proof.Machine.execVcvtM8d d a q m s
  | .vcvtM8e d a q m => Sys2Proof.Machine.execVcvtM8e d a q m s
  | .vsel d a b m t => Sys2Proof.Machine.execVsel d a b m t s
  | .vperm d a b m => Sys2Proof.Machine.execVperm d a b m s
  | .vrotl d a k m => Sys2Proof.Machine.execVrotl d a k m s
  | .vredadd d a m t => Sys2Proof.Machine.execVredadd d a m t s
  | .vredmin d a m t => Sys2Proof.Machine.execVredmin d a m t s
  | .vredmax d a m t => Sys2Proof.Machine.execVredmax d a m t s
  | .vscanadd d a m t => Sys2Proof.Machine.execVscanadd d a m t s
  | .vcompress d a m t => Sys2Proof.Machine.execVcompress d a m t s
  | .vwadd d a b k t => Sys2Proof.Machine.execVwadd d a b k t s
  | .vwsub d a b k t => Sys2Proof.Machine.execVwsub d a b k t s
  | .vwmul d a b => Sys2Proof.Machine.execVwmul d a b s
  | .vwshl d a b t => Sys2Proof.Machine.execVwshl d a b t s
  | .vwshr d a b t => Sys2Proof.Machine.execVwshr d a b t s
  | .vwcmp a b k t => Sys2Proof.Machine.execVwcmp a b k t s
  | .vxclr d => Sys2Proof.Machine.execVxclr d s
  | .vxadd d a m => Sys2Proof.Machine.execVxadd d a m s
  | .vxfma d a b m => Sys2Proof.Machine.execVxfma d a b m s
  | .vxrndS d a => Sys2Proof.Machine.execVxrndS d a s
  | .vxrndD d a => Sys2Proof.Machine.execVxrndD d a s
  | .vxstat d a => Sys2Proof.Machine.execVxstat d a s
  | .vld v a m p o => Sys2Proof.Machine.execVld v a m p o s
  | .vst v a m p o => Sys2Proof.Machine.execVst v a m p o s
  | .vgather d a m t => Sys2Proof.Machine.execVgather d a m t s
  | .vscatter a b m t => Sys2Proof.Machine.execVscatter a b m t s
  | .mand k i0 j => Sys2Proof.Machine.execMand k i0 j s
  | .mor k i0 j => Sys2Proof.Machine.execMor k i0 j s
  | .mxor k i0 j => Sys2Proof.Machine.execMxor k i0 j s
  | .mnot k i0 => Sys2Proof.Machine.execMnot k i0 s
  | .mpopc d i0 => Sys2Proof.Machine.execMpopc d i0 s
  | .mffs d i0 => Sys2Proof.Machine.execMffs d i0 s
  | .mset k a => Sys2Proof.Machine.execMset k a s
  | .mget d i0 => Sys2Proof.Machine.execMget d i0 s
  | .vfromg d a m t => Sys2Proof.Machine.execVfromg d a m t s
  | .vtog d a k t => Sys2Proof.Machine.execVtog d a k t s
  | .vlanew d a k t => Sys2Proof.Machine.execVlanew d a k t s
  | .vmorton d a m => Sys2Proof.Machine.execVmorton d a m s
  | .vhilbert d a m => Sys2Proof.Machine.execVhilbert d a m s
  | .oxset j a => Sys2Proof.Machine.execOxset j a s
  | .oxget d j => Sys2Proof.Machine.execOxget d j s
  | .oxld j a n => Sys2Proof.Machine.execOxld j a n s
  | .oxst j a n => Sys2Proof.Machine.execOxst j a n s
  | .qpush c a b => Sys2Proof.Machine.execQpush c a b s
  | .qpop t a b => Sys2Proof.Machine.execQpop t a b s
  | .qtry t a b => Sys2Proof.Machine.execQtry t a b s
  | .qpushv k c a b => Sys2Proof.Machine.execQpushv k c a b s
  | .qpopv t a b => Sys2Proof.Machine.execQpopv t a b s
  | .qmap s0 a => Sys2Proof.Machine.execQmap s0 a s
  | .qunmap s0 => Sys2Proof.Machine.execQunmap s0 s
  | .qmark q a b => Sys2Proof.Machine.execQmark q a b s
  | .qend a => Sys2Proof.Machine.execQend a s
  | .qstat t a k => Sys2Proof.Machine.execQstat t a k s
  | .feed t a b => Sys2Proof.Machine.execFeed t a b s
  | .feedx t a b => Sys2Proof.Machine.execFeedx t a b s
  | .feedqz t a b => Sys2Proof.Machine.execFeedqz t a b s
  | .feedt t a b => Sys2Proof.Machine.execFeedt t a b s
  | .feedq t a b => Sys2Proof.Machine.execFeedq t a b s
  | .mma => Sys2Proof.Machine.execMma s
  | .mclr c => Sys2Proof.Machine.execMclr c s
  | .mdrain t a x f c => Sys2Proof.Machine.execMdrain t a x f c s
  | .plld t a b => Sys2Proof.Machine.execPlld t a b s
  | .msort t => Sys2Proof.Machine.execMsort t s
  | .repart t a => Sys2Proof.Machine.execRepart t a s
  | .rpstat t a => Sys2Proof.Machine.execRpstat t a s
  | .dadd d a b m => Sys2Proof.Machine.execDadd d a b m s
  | .dsub d a b m => Sys2Proof.Machine.execDsub d a b m s
  | .dmul d a b m => Sys2Proof.Machine.execDmul d a b m s
  | .ddiv d a b m => Sys2Proof.Machine.execDdiv d a b m s
  | .dmin d a b m => Sys2Proof.Machine.execDmin d a b m s
  | .dmax d a b m => Sys2Proof.Machine.execDmax d a b m s
  | .daff d a m v => Sys2Proof.Machine.execDaff d a m v s
  | .dmap d a m i0 => Sys2Proof.Machine.execDmap d a m i0 s
  | .dmix d a b m v => Sys2Proof.Machine.execDmix d a b m v s
  | .dtag d a h l => Sys2Proof.Machine.execDtag d a h l s
  | .dtagOr d a h l => Sys2Proof.Machine.execDtagOr d a h l s
  | .dld d m g => Sys2Proof.Machine.execDld d m g s
  | .dst a m => Sys2Proof.Machine.execDst a m s
  | .dfromv d m v g => Sys2Proof.Machine.execDfromv d m v g s
  | .ddirac d m v g => Sys2Proof.Machine.execDdirac d m v g s
  | .dmom a m v k => Sys2Proof.Machine.execDmom a m v k s
  | .dqnt a m v => Sys2Proof.Machine.execDqnt a m v s
  | .dcdf a m v => Sys2Proof.Machine.execDcdf a m v s
  | .spawn a => Sys2Proof.Machine.execSpawn a s
  | .suspend a => Sys2Proof.Machine.execSuspend a s
  | .done => Sys2Proof.Machine.execDone s
  | .cancel a l => Sys2Proof.Machine.execCancel a l s
  | .lvlwait d a l => Sys2Proof.Machine.execLvlwait d a l s
  | .yield => Sys2Proof.Machine.execYield s
  | .cstart d a c => Sys2Proof.Machine.execCstart d a c s
  | .creap c => Sys2Proof.Machine.execCreap c s
  | .cstat d c => Sys2Proof.Machine.execCstat d c s
  | .chold c => Sys2Proof.Machine.execChold c s
  | .crelease c => Sys2Proof.Machine.execCrelease c s
  | .ctrd d r => Sys2Proof.Machine.execCtrd d r s
  | .ctwr a r => Sys2Proof.Machine.execCtwr a r s
  | .xrd d a k c => Sys2Proof.Machine.execXrd d a k c s
  | .xwr d a k c => Sys2Proof.Machine.execXwr d a k c s
  | .xpres d a k c => Sys2Proof.Machine.execXpres d a k c s
  | .trap c => Sys2Proof.Machine.execTrap c s
  | .tret => Sys2Proof.Machine.execTret s
  | .brk c => Sys2Proof.Machine.execBrk c s
  | .nop => Sys2Proof.Machine.execNop s
  | .mvC a b => Sys2Proof.Machine.execMvC a b s
  | .liC a i0 => Sys2Proof.Machine.execLiC a i0 s
  | .addiC a i0 => Sys2Proof.Machine.execAddiC a i0 s
  | .addC a b => Sys2Proof.Machine.execAddC a b s
  | .subC a b => Sys2Proof.Machine.execSubC a b s
  | .andC a b => Sys2Proof.Machine.execAndC a b s
  | .orC a b => Sys2Proof.Machine.execOrC a b s
  | .xorC a b => Sys2Proof.Machine.execXorC a b s
  | .shliC a i0 => Sys2Proof.Machine.execShliC a i0 s
  | .shriC a i0 => Sys2Proof.Machine.execShriC a i0 s
  | .shaiC a i0 => Sys2Proof.Machine.execShaiC a i0 s
  | .ldwLs a b => Sys2Proof.Machine.execLdwLs a b s
  | .stwLs a b => Sys2Proof.Machine.execStwLs a b s
  | .lddLs a b => Sys2Proof.Machine.execLddLs a b s
  | .stdLs a b => Sys2Proof.Machine.execStdLs a b s
  | .beqzC a i0 => Sys2Proof.Machine.execBeqzC a i0 s
  | .bnezC a i0 => Sys2Proof.Machine.execBnezC a i0 s
  | .ret => Sys2Proof.Machine.execRet s
  | .nopC => Sys2Proof.Machine.execNopC s
  | .qpopC a s0 => Sys2Proof.Machine.execQpopC a s0 s
  | .qpushC a s0 => Sys2Proof.Machine.execQpushC a s0 s

end Sys2Proof.Machine
end

