-- ==== Sys2Proof/Machine/Next.lean ====
section
/-! DEFINITION. Which move the machine makes next (log entry 4), and the load of a program (log entry 1). -/

namespace Sys2Proof.Machine

/-- TIME of package p has reached a time (R76). -/
def State.reached (s : State) (p : Nat) (t : Word) : Bool := decide (dist (t.setWidth 48) (s.time p) ≤ 0)

/-- The live count of the strand whose image a message holds, when it has been asked for, has reached its record (R48, R419). -/
def State.startCounted (s : State) (m : Msg) : Bool :=
  !m.placed || !s.countOwed (pkgOf m.src) (slugOf (BitVec.ofNat 512 (leNat m.bytes))).program

/-- The answer in a message may land: every element has answered; the image of a SPAWN has its queue resident and room in the flow
window (R251); a wait for a level has its answer, and the die has applied what went before it (R255, R110); the token of a publish or of a
declaration has the acknowledgement of every TLB (R370). -/
def State.landReady (s : State) (m : Msg) : Bool :=
  m.complete &&
  (match m.dest with
    | .spawn =>
      let q := m.job.toNat * 65536 + (slugOf (BitVec.ofNat 512 (leNat m.bytes))).squeue.toNat
      !s.live m || m.drop || !(s.queue q).valid ||
        (if (s.queue q).resident then !s.flowFull m.src q else !s.agenda.contains (.queueMissService q)) && s.startCounted m
    | .cstart .. => !s.live m || m.drop || s.startCounted m
    | _ => true) &&
  (match m.kind with
    | .lvlwait _ => m.ans != [] && s.covers (dieOf m.src) m.seen
    | .publish b =>
      (match s.shadowAt (pkgOf m.src) m.job b with | some x => s.allAcked (pkgOf m.src) m.job.toNat b x.len | none => true)
    | .shadow b n => s.allAcked (pkgOf m.src) m.job.toNat b n
    | _ => true)

/-- A push may reach its queue's home: no push of its context to the queue is before it, what it releases has been applied, and so has the
wait of every release at system scope before it been made (R58, R117, R110, R124). -/
def State.pushReady (s : State) (m : Msg) (q : Nat) : Bool :=
  m.host || (s.fenceBefore m.src m.sc m.id && s.sysReleased m.src m.id &&
    ((s.queue q).homePkg != pkgOf m.src || s.covers (s.queue q).die m.seen) &&
    !s.net.any (fun n => decide (n.id < m.id) && n.src == m.src && (match n.kind with | .push k _ => k == q | _ => false) &&
      s.agenda.contains (.queuePushAtHome n.id)))

/-- Every write that the context of a message had read, and what those came after, is applied at its home; its own stores not yet
applied stand aside (R109, R124). -/
def State.seenApplied (s : State) (m : Msg) : Bool :=
  !s.net.any (fun e => e.src != m.src && pkgOf e.src == pkgOf m.src && e.num != 0 && decide (e.num ≤ m.seen.get (dieNo e.src)) &&
    !e.insideDone)

/-- A publish or a withdrawal in a message may be made: it comes after the writes that its context's reads came after
(R109, R110), no engine operation issued before it writes the buffer's shadow any more, no publish of the buffer is before it, and no read
of the buffer is under way (R104, R105, R121, R226). -/
def State.publishReady (s : State) (m : Msg) (base : Nat) : Bool :=
  s.fenceBefore m.src m.sc m.id && s.seenApplied m &&
  !s.net.any (fun e => decide (e.id < m.id) && e.kind.publishes == some base && pkgOf e.src == pkgOf m.src && e.job == m.job && e.ans == []) &&
  (match s.shadowAt (pkgOf m.src) m.job base with
    | none => true
    | some b => !s.feedersInto m.id b && !s.repartsInto m.id b && !s.readUnderWay b)

/-- A wake in a message may be carried out: it comes after what every release at system scope before it has made visible, and after the
writes that its context's reads came after (R109, R124, R235). -/
def State.wakeReady (s : State) (m : Msg) : Bool := s.sysReleased m.src m.id && s.seenApplied m

/-- The deposit in a message may arrive: the target's die has applied what went before it (R118). -/
def State.depositReady (s : State) (m : Msg) (t : Nat) : Bool :=
  if pkgOf t = pkgOf m.src then s.covers (dieOf t) m.seen else true

/-- The gang deadline of a forme: 10,000 ns before its tick, by the TIME of its lowest-ranked package (R74). -/
def State.deadlineNear (s : State) (f : Nat) : Bool :=
  match (s.forme f).gang with
  | some t => s.reached (leastOf (s.forme f).packages) (t - 10000#64)
  | none => true

/-- The gang tick of a forme has come on package p (R74). -/
def State.tickCome (s : State) (f p : Nat) : Bool :=
  match (s.forme f).gang with | some t => s.reached p t | none => true

/-- The first trace of a die may begin (R382). -/
def State.traceReady (s : State) (d : Nat) : Bool :=
  match (s.die d).traces with
  | t :: _ => t.continuous || s.reached (d / 8) (BitVec.ofNat 64 (recNat t.rcd 8 8))
  | [] => true

/-- The running trace of a die has recorded its last cycle (R382). -/
def State.traceOver (s : State) (d : Nat) : Bool :=
  match (s.die d).traces with
  | t :: _ => !t.running || !t.covers (s.pkg (d / 8)).cycle
  | [] => true

/-- The deadline of a waiter has passed, or it no longer waits (R234). -/
def State.deadlinePast (s : State) (p id : Nat) : Bool :=
  match (s.pkg p).waiters.find? (fun w => w.msg == id) with
  | some w => s.reached p w.deadline
  | none => true

/-- The message of a number, when it is under way, passes a test. -/
def State.msgReady (s : State) (id : Nat) (f : Msg → Bool) : Bool :=
  match s.message id with | some m => f m | none => true

/-- A walk is among the 64 that the die's walker runs at once (R368). -/
def State.walkRuns (s : State) (d space gran : Nat) : Bool :=
  ((s.die d).walks.take 64).any (fun w => w.space == space && w.gran == gran) || !(s.die d).walking space gran

/-- A command or order of the candidacy (r, n) that is due may reach package p: it follows that leader, or has heard a better candidacy and
will discard it (R349, R350). -/
def State.followsOr (s : State) (p : Nat) (r n : Word) : Bool :=
  let l := (s.pkg p).lead
  l.leader == some (r, n) || beats l.best (r, n)

/-- Whether a due event may happen now. -/
def State.enabled (s : State) (e : Instr) : Bool :=
  match e with
  | .memoryRequestAtHome id => s.msgReady id s.mayPerform
  | .bankAluOperation id => s.msgReady id s.mayPerform
  | .loadValueLands id => s.msgReady id s.landReady
  | .depositArrival id => s.msgReady id (fun m => match m.kind with | .deposit _ t _ _ => s.depositReady m t | _ => true)
  | .queuePushAtHome id => s.msgReady id (fun m => match m.kind with | .push q _ => s.pushReady m q | _ => true)
  | .waitTableEnter id => s.msgReady id s.mayPerform
  | .waitTableWake id => s.msgReady id s.wakeReady
  | .publishExchange id => s.msgReady id (fun m => match m.kind with | .publish b => s.publishReady m b | _ => true)
  | .shadowWithdrawal id => s.msgReady id (fun m => match m.kind with | .shadow b _ => s.publishReady m b | _ => true)
  | .pageWalkComplete d sp gr => s.walkRuns d sp gr
  | .queueMissService q => s.canBringIn q
  | .dispatchStep g => s.dispatchable g
  | .forcedSave c => (s.ctx c).cond != .pooled || s.mayEndSave c
  | .feedCopyEnd g i => s.copyReady g i
  | .feedqEntry g i => s.entryReady g i
  | .platenOpStart k => s.platenMayStart k
  | .platenOpEnd k => s.platenMayEnd k
  | .repartRanksGathered h => s.gatherReady h
  | .repartMovement h => s.gatherReady h
  | .waitDeadlineExpiry p id => s.deadlinePast p id
  | .gangReadyDeadline f => s.deadlineNear f
  | .gangStartTick f p => s.tickCome f p
  | .traceStart d => s.traceReady d
  | .traceEnd d => s.traceOver d
  | .coreDumpAtT p => (match (s.pkg p).dump with | some (t, _, _) => s.reached p t | none => true)
  | .linkPacketArrival p _ k => k.dest == p || (s.onward p k).isSome
  | .leaderCommand p r n _ _ => s.followsOr p r n
  | .formeLoadOrder p o _ _ => s.followsOr p o.round o.serial
  | .keyRevoke p r => s.regionValid p r || !s.regionHeld p r
  | .groupDeregister p h => s.groupIdle p h.toNat
  | .pagerMap p sp gr ws => !s.fillPending p sp gr && s.mayUse (s.writeEntries sp gr p ws) p sp gr
  | .storageWrite p job r => s.writeReady p job r
  | .nvmeCompletion p i st data => s.completionReady p i st data
  | .editionLoad p job r b => s.editionReady p job r b
  | .shardFetchDone p desc i _ data => s.fetchReady p desc i data
  | .shardTransformDone p desc i _ => s.transformReady p desc i
  | .editionFlip p desc _ => s.flipReady p desc
  | .editionOldSlotCheck p desc => s.checkReady p desc
  | _ => true

/-- The due events that may happen now, with their places in the agenda. -/
def enabledFrom (s : State) : Nat → List Instr → List (Nat × Instr)
  | _, [] => []
  | n, e :: r => if s.enabled e then (n, e) :: enabledFrom s (n + 1) r else enabledFrom s (n + 1) r

/-- A choice among n moves: the head of the schedule, or the first (log entry 4). -/
def State.choice (s : State) (n : Nat) : Nat × State :=
  match s.sched with
  | [] => (0, s)
  | k :: r => (k % n, { s with sched := r })

/-- Nothing can move: a cycle passes on every package (R14, R407). -/
def State.idle (s : State) : State :=
  (0 :: (s.pkgs.map (·.1)).filter (· ≠ 0)).foldl (fun s p => s.advance p ((s.pkg p).cycle + 1)) s

noncomputable section

/-- The machine's next move: a due event that may happen, the first event from outside, or the slot of a context; the schedule
chooses, by default in that order. -/
def State.nextMove (s : State) : Move :=
  let evs := enabledFrom s 0 s.agenda
  let inb := s.inbox.take 1
  let cs := s.candidates
  let n := evs.length + inb.length + cs.length
  if n = 0 then .done s.idle
  else
    let (k, s) := s.choice n
    match evs[k]? with
    | some (j, e) => .run e { s with agenda := s.agenda.eraseIdx j }
    | none =>
      match inb[k - evs.length]? with
      | some e => .run e { s with inbox := s.inbox.drop 1 }
      | none =>
        match cs[k - evs.length - inb.length]? with
        | some c => s.slot c
        | none => .done s.idle

end

/-! ## The load of a program (log entry 1) -/

/-- The package physical address at which withFetchWord puts an instruction when no page maps the PC: the first of HBM4. -/
def loadPage : Nat := 0x10000

/-- The instruction's bytes stored where the machine fetches next, the keeper of core 0 started there by the firmware, and a
readable page for it in the TLB (R152, R357, R365). -/
def State.loadWord (s : State) (bs : List Byte) : State :=
  let c := 0
  let leaf : Word := 0xE000000000000000#64 ||| BitVec.ofNat 64 loadPage
  let e : TlbEntry := { space := (s.ctx c).job.toNat, base := (s.ctx c).pc.toNat / 65536 * 65536, size := 65536, leaf := leaf }
  let s := s.updGal (galOf c) (fun g => { g with tlb := e :: g.tlb })
  let s := s.updCore (coreOf c) (fun k => { k with stopped := false })
  let s := s.setCtx c (s.ctx c)
  { s with mem := Memory.writes s.mem (loadPage + (s.ctx c).pc.toNat % 65536) bs }

end Sys2Proof.Machine
end

