-- ==== Sys2Proof/Machine/Step.lean ====
section
/-! DEFINITION. One step of the machine: its next move, and that instruction or event run. -/

namespace Sys2Proof.Machine

noncomputable section

/-- One step: the move the machine makes next (R14, R355; log entry 4), and its meaning. -/
def step (s : State) : Host.Outcome State Fault Refusal :=
  match s.nextMove with
  | .run i s' => exec i s'
  | .done s' => .next s'

/-- The state with an instruction of the opcode table, `nbits` bits of w, stored where the machine fetches next, and that
context started there (log entry 1). -/
def State.withFetchWord (s : State) (nbits w : Nat) : State := s.loadWord (tableBytes nbits w)

end

end Sys2Proof.Machine
end

