-- ==== Sys2Proof/Machine/Frame.lean ====
section
/-! DEFINITION. The words the statements are written in: when the current instruction can issue, what an issue leaves alone, and
where its results go (spec/01_machine.md R14 to R20; spec/07_encoding.md R164, R166; spec/03_queues.md R70). -/

namespace Sys2Proof.Machine

/-! ## When an instruction can issue -/

/-- General register i can be read in this slot: it lies in the strand's window (R33) and is present and not poisoned, or it is
mapped onto a word queue and holds a value (R70). -/
def State.srcOk (s : State) (i : Nat) : Bool :=
  decide (i < s.me.sg) &&
  (match s.me.mapped i with
    | none => (s.gReg s.cur i).st == .present && !(s.gReg s.cur i).poison
    | some h => !s.badHandle h (s.me.qkey h) && (s.queue (s.me.qkey h)).etype == 0#2 && s.me.held.contains (i - 124))

/-- General register i can be a destination in this slot: it lies in the strand's window and no producer of it is pending (R20), or
it is mapped onto a resident word queue whose flow window has room (R64, R70). -/
def State.dstOk (s : State) (i : Nat) : Bool :=
  decide (i < s.me.sg) &&
  (match s.me.mapped i with
    | none => (s.gReg s.cur i).st != .pending
    | some h => !s.badHandle h (s.me.qkey h) && (s.queue (s.me.qkey h)).etype == 0#2 && (s.queue (s.me.qkey h)).resident &&
        !s.flowFull s.cur (s.me.qkey h))

/-- Vector register i can be read in this slot: in the window, present, no lane poisoned. -/
def State.vsrcOk (s : State) (i : Nat) : Bool :=
  decide (i < s.me.sv) && (s.vReg s.cur i).st == .present && (s.vReg s.cur i).poison == 0#16

/-- Vector register i can be a destination in this slot: in the window, no producer pending. -/
def State.vdstOk (s : State) (i : Nat) : Bool := decide (i < s.me.sv) && (s.vReg s.cur i).st != .pending

/-- An instruction with these general sources and destinations can issue (R14, R164, R166). -/
def State.canIssue (s : State) (src dst : List Nat) : Bool := src.all s.srcOk && dst.all s.dstOk

/-- A vector instruction with these vector sources and destinations can issue: the vector unit takes it too (R191). -/
def State.canIssueV (s : State) (vsrc vdst : List Nat) : Bool :=
  vsrc.all s.vsrcOk && vdst.all s.vdstOk &&
    decide ((s.core (coreOf s.cur)).vbusy ≤ (s.core (coreOf s.cur)).cycle)

/-! ## What an issue leaves alone -/

/-- The context of an instruction that has issued at cycle `cyc`, read the registers `src` and goes on at `npc`: its PC, its count
of issues and its slot, the held values it read (R70), and a step to be reported (R378); the rest as it was. -/
def Ctx.after (x : Ctx) (npc : Word) (cyc : Nat) (src : List Nat) : Ctx :=
  { x with
    pc := npc
    wait := .none
    issued := x.issued + 1
    lastIssue := some cyc
    skipBrk := false
    skipWatch := false
    refused := none
    held := x.held.filter (fun j => !src.contains (j + 124))
    stepPend := if x.dbg.step.getLsbD 0 then some x.pc else x.stepPend }

/-- The state of a core that no issue of its vector or scalar units touches. -/
def Core.kept (a b : Core) : Prop :=
  b.wins = a.wins ∧ b.poolmask = a.poolmask ∧ b.savearea = a.savearea ∧ b.slots = a.slots ∧ b.acc = a.acc ∧
  b.accPoison = a.accPoison ∧ b.plate = a.plate ∧ b.platePoison = a.platePoison ∧ b.platenQ = a.platenQ ∧
  b.condQ = a.condQ ∧ b.stopped = a.stopped ∧ b.d = a.d

/-- What lies outside the strand that issues: every byte of memory, every poisoned granule, every queue, level, forme, program,
reservation, barrier, table, shadow, stamp, galley and package (but for its energy counts, R409), what has come from outside and gone out, every other context, and of every
core the window, pool and save registers, the accumulators, plate, unit queues and distribution registers. -/
structure Kept (s t : State) : Prop where
  cur      : t.cur = s.cur
  fetched  : t.fetched = s.fetched
  byte     : ∀ k, t.byte k = s.byte k
  poison   : t.poison = s.poison
  queues   : t.queues = s.queues
  levels   : t.levels = s.levels
  formes   : t.formes = s.formes
  programs : t.programs = s.programs
  resvs    : t.resvs = s.resvs
  bwaits   : t.bwaits = s.bwaits
  jobs     : t.jobs = s.jobs
  shadows  : t.shadows = s.shadows
  stamps   : t.stamps = s.stamps
  galleys  : t.galleys = s.galleys
  inbox    : t.inbox = s.inbox
  outbox   : t.outbox = s.outbox
  freeIdx  : t.freeIdx = s.freeIdx
  others   : ∀ c, c ≠ s.cur → t.ctx c = s.ctx c
  cores    : ∀ k, Core.kept (s.core k) (t.core k)
  pkgs     : ∀ p, { t.pkg p with charges := (s.pkg p).charges } = s.pkg p

/-- No clock, walk, fault or count of a die changes; a running trace may take an entry (R383). -/
def SameDies (s t : State) : Prop := ∀ d, { t.die d with traces := (s.die d).traces } = s.die d

/-- Nothing joins the network and no event falls due. -/
def Quiet (s t : State) : Prop := t.net = s.net ∧ t.agenda = s.agenda ∧ t.nextId = s.nextId
/-- One message joins the network, and its event falls due. -/
def Sends (s t : State) (p : Msg → Prop) (ev : Nat → Instr) : Prop :=
  ∃ m, p m ∧ m.id = s.nextId ∧ m.src = s.cur ∧ t.net = s.net ++ [m] ∧ t.agenda = s.agenda ++ [ev s.nextId] ∧
    t.nextId = s.nextId + 1

/-- No general register changes. -/
def SameG (s t : State) : Prop := ∀ c i, t.gReg c i = s.gReg c i
/-- No vector register changes. -/
def SameV (s t : State) : Prop := ∀ c i, t.vReg c i = s.vReg c i
/-- Register i of context c is the one the current strand names d; g0 is none. -/
def State.namesG (s : State) (d c i : Nat) : Bool :=
  d != 0 && i != 0 && coreOf c == coreOf s.cur && (s.ctx c).win.gb + i == s.me.win.gb + d
/-- Vector register i of context c is the one the current strand names d. -/
def State.namesV (s : State) (d c i : Nat) : Bool :=
  coreOf c == coreOf s.cur && (s.ctx c).win.vb + i == s.me.win.vb + d

/-- The general registers after a write of v to register d: its value, present and without poison; g0 discards it (R18). -/
def SetG (s t : State) (d : Nat) (v : Word) : Prop :=
  ∀ c i, t.gReg c i = if s.namesG d c i then { val := v } else s.gReg c i
/-- The general registers with register d made pending (R20). -/
def PendG (s t : State) (d : Nat) : Prop :=
  ∀ c i, t.gReg c i = if s.namesG d c i then { s.gReg c i with st := .pending } else s.gReg c i
/-- A vector register written with n in the lanes w, present: the lanes written lose their poison, the others keep it (R20, R373). -/
def VReg.written (r : VReg) (n : Nat) (w : Half) : VReg := { val := BitVec.ofNat 512 n, poison := r.poison &&& ~~~w }
/-- The vector registers after a write of n to register d, in the lanes w. -/
def SetV (s t : State) (d n : Nat) (w : Half := BitVec.allOnes 16) : Prop :=
  ∀ c i, t.vReg c i = if s.namesV d c i then (s.vReg c i).written n w else s.vReg c i
/-- The vector registers after a write of n to the pair d, d + 1, or to d alone, in the 32-bit lanes w. -/
def SetVs (s t : State) (pair : Bool) (d n : Nat) (w : BitVec 32 := BitVec.allOnes 32) : Prop :=
  ∀ c i, t.vReg c i =
    if pair && s.namesV (d + 1) c i then (s.vReg c i).written (n / 2 ^ 512) (w.extractLsb' 16 16)
    else if s.namesV d c i then (s.vReg c i).written (n % 2 ^ 512) (w.extractLsb' 0 16)
    else s.vReg c i
/-- The vector registers with some registers made pending (R20). -/
def PendVs (s t : State) (ds : List Nat) : Prop :=
  ∀ c i, t.vReg c i = if ds.any (fun d => s.namesV d c i) then { s.vReg c i with st := .pending } else s.vReg c i

/-- Where the result of an instruction of 8 cycles or less goes: into register d, or, when d is mapped, to its queue as a word entry
of class 0 (R15, R70). -/
def ResultG (s t : State) (d : Nat) (v : Word) : Prop :=
  match s.me.mapped d with
  | none => SetG s t d v ∧ Quiet s t
  | some h => SameG s t ∧
      Sends s t (fun m => m.kind = .push (s.me.qkey h) { payload := v.setWidth 512, prog := s.me.program }) .queuePushAtHome

/-- The cycle of the current context's core. -/
def State.cycleNow (s : State) : Nat := (s.core (coreOf s.cur)).cycle

/-- The current strand has issued and goes on at npc, having read src and left its other registers as x holds them; all outside it is
kept. -/
structure IssuedAs (s t : State) (x : Ctx) (npc : Word) (src : List Nat) : Prop where
  kept : Kept s t
  me   : t.me = x.after npc s.cycleNow src

/-- The current strand has issued and goes on at npc, having read src; nothing else of its context changes. -/
abbrev Issued (s t : State) (npc : Word) (src : List Nat) : Prop := IssuedAs s t s.me npc src

/-- An instruction of 8 cycles or less with a general result: it completes at npc with v in register d, its context otherwise as x
holds it. -/
structure AluAs (s t : State) (x : Ctx) (d : Nat) (v : Word) (npc : Word) (src : List Nat) : Prop where
  issued : IssuedAs s t x npc src
  result : ResultG s t d v
  vregs  : SameV s t
  dies   : SameDies s t

/-- An instruction of general registers alone, of 8 cycles or less. -/
abbrev Alu (s t : State) (d : Nat) (v : Word) (npc : Word) (src : List Nat) : Prop := AluAs s t s.me d v npc src

/-- An instruction of 8 cycles or less with a vector result: n in register d, or in the pair d, d + 1, in the 32-bit lanes w. -/
structure VecAs (s t : State) (x : Ctx) (pair : Bool) (d n : Nat) (npc : Word) (src : List Nat)
    (w : BitVec 32 := BitVec.allOnes 32) : Prop where
  issued : IssuedAs s t x npc src
  result : SetVs s t pair d n w
  gregs  : SameG s t
  quiet  : Quiet s t
  dies   : SameDies s t

/-- An instruction that changes only its own context. -/
structure OnlyMe (s t : State) (x : Ctx) (npc : Word) (src : List Nat) : Prop where
  issued : IssuedAs s t x npc src
  gregs  : SameG s t
  vregs  : SameV s t
  quiet  : Quiet s t
  dies   : SameDies s t

/-- FPFLAGS with some flags ORed in (R135). -/
def Ctx.raised (x : Ctx) (fl : Flags) : Ctx := { x with ctl := { x.ctl with fpflags := x.ctl.fpflags ||| fl.setWidth 64 } }

/-- FPFLAGS with the flags of a result of 8 cycles or less ORed in, which land in cycle cyc: a write of FPFLAGS in a cycle up to that one does not
lose them (R135). -/
def Ctx.raisedBy (x : Ctx) (fl : Flags) (cyc : Nat) : Ctx :=
  if fl = 0#5 then x else { x.raised fl with late := (cyc, fl) }

/-- The trap information of FPX: the enabled exceptions raised and the lanes that raised them (R136, R352). -/
def fpxInfo (en : Flags) (lanes : Half) : Word := BitVec.ofNat 64 (en.toNat + lanes.toNat * 32)

/-- Where the values of a presence producer go: the general and vector registers named are pending, those mapped excepted, and a
message will bring the values, vectors in the 32-bit lanes w, with their flags, or with the attributed-imprecise FPX of the enabled
exceptions (R20, R136, R191). -/
structure Long (s t : State) (ds : List (RC × Nat × Nat)) (fl : Flags) (lanes : Half) (npc : Word) (src : List Nat)
    (w : BitVec 32 := BitVec.allOnes 32) : Prop where
  issued : Issued s t npc src
  gregs  : ∀ c i, t.gReg c i =
    if ds.any (fun r => r.1 == .g && (s.me.mapped r.2.1).isNone && s.namesG r.2.1 c i) then { s.gReg c i with st := .pending }
    else s.gReg c i
  vregs  : ∀ c i, t.vReg c i =
    if ds.any (fun r => r.1 == .v && s.namesV r.2.1 c i) then { s.vReg c i with st := .pending } else s.vReg c i
  dies   : SameDies s t
  brings : Sends s t (fun m => m.kind = .result ∧ m.dest = .vals ds ∧ m.lanes = w ∧
    (let en := enabledFlags s.me.ctl.fpctl fl
     if en = 0#5 then m.flags = fl ∧ m.trap = none
     else m.flags = 0#5 ∧ m.trap = some { imp := true, cause := causeFPX, pc := s.me.pc, addr := 0#64, info := fpxInfo en lanes }))
    .longLatencyResultLands

/-- No walk, fault or count of a die changes; clocks and running traces may (R110, R383). -/
def DiesButClock (s t : State) : Prop :=
  ∀ d, { t.die d with traces := (s.die d).traces, clock := (s.die d).clock } = s.die d

/-- A request has left: the general registers gs that are not mapped and the vector registers vs are pending, and the strand goes on
at npc once the wait w is over, `none` for no wait (R20, R21). -/
structure Asks (s t : State) (w : Wait) (gs vs : List Nat) (p : Msg → Prop) (ev : Nat → Instr) (npc : Word) (src : List Nat) :
    Prop where
  kept  : Kept s t
  me    : t.me = { s.me.after npc s.cycleNow src with wait := w }
  gregs : ∀ c i, t.gReg c i =
    if gs.any (fun d => (s.me.mapped d).isNone && s.namesG d c i) then { s.gReg c i with st := .pending } else s.gReg c i
  vregs : ∀ c i, t.vReg c i = if vs.any (fun d => s.namesV d c i) then { s.vReg c i with st := .pending } else s.vReg c i
  dies  : DiesButClock s t
  sends : Sends s t p ev

/-- n requests have been posted in one message: the strand goes on at once, or after the wait w of a release, and they count toward its
limit until they are acknowledged (R107, R114, R354). -/
structure Posts (s t : State) (n : Nat) (p : Msg → Prop) (ev : Nat → Instr) (npc : Word) (src : List Nat) (w : Wait := .none) :
    Prop where
  kept  : Kept s t
  me    : t.me = { s.me.after npc s.cycleNow src with posted := s.me.posted + n, wait := w }
  gregs : SameG s t
  vregs : SameV s t
  dies  : DiesButClock s t
  sends : Sends s t (fun m => m.posted = n ∧ p m) ev

/-- The address after an instruction of n bytes. -/
def State.pcNext (s : State) (n : Nat) : Word := s.me.pc + BitVec.ofNat 64 n

end Sys2Proof.Machine
end

