-- ==== Sys2Proof/Safety.lean ====
section
/-! DEFINITION. What counts as a safe run: no step faults or is refused, and memory keeps its canonical form. -/

namespace Sys2Proof.Machine

/-- A state whose memory has its canonical form: addresses strictly rise and no listed byte is the unlisted one. -/
def State.memWf (s : State) : Prop := Memory.wf s.mem = true

/-- The outcome is a next state. -/
def isNext (o : Host.Outcome State Fault Refusal) : Prop := ∃ s, o = .next s

/-- A safe step: it gives a next state whose memory has its canonical form. -/
def State.safeStep (s : State) : Prop := ∃ t, step s = .next t ∧ t.memWf

end Sys2Proof.Machine
end

