-- ==== Sys2Proof/Certificates/Slice0/Obligations.lean ====
section
/-! DEFINITION. The statements about the machine, each a rule of the spec or what follows from several. -/

open Sys2Proof Sys2Proof.Machine

/-! ## Scalar integer instructions -/

/-- R168, R169: an integer register instruction that can issue completes: g[d] takes the result of its table row, the PC moves on by
4, and nothing else changes. -/
def IntegerRegisterRule : Prop :=
  ∀ (s : State) (d a b : GIdx), s.canIssue [a.toNat, b.toNat] [d.toNat] = true →
    let x := s.g a.toNat
    let y := s.g b.toNat
    let sh := y.toNat % 64
    let runs (i : Instr) (v : Word) : Prop :=
      ∃ t, exec i s = .next t ∧ Alu s t d.toNat v (s.pcNext 4) [a.toNat, b.toNat]
    runs (.add d a b) (BitVec.ofNat 64 (x.toNat + y.toNat)) ∧
    runs (.sub d a b) (BitVec.ofInt 64 (x.toInt - y.toInt)) ∧
    runs (.and d a b) (x &&& y) ∧ runs (.or d a b) (x ||| y) ∧ runs (.xor d a b) (x ^^^ y) ∧
    runs (.andn d a b) (x &&& ~~~y) ∧
    runs (.shl d a b) (BitVec.ofNat 64 (x.toNat * 2 ^ sh)) ∧
    runs (.shr d a b) (BitVec.ofNat 64 (x.toNat / 2 ^ sh)) ∧
    runs (.sha d a b) (BitVec.ofInt 64 (x.toInt / 2 ^ sh)) ∧
    runs (.rot d a b) (if sh = 0 then x else (x <<< sh) ||| (x >>> (64 - sh))) ∧
    runs (.min d a b) (if x.toInt ≤ y.toInt then x else y) ∧
    runs (.max d a b) (if x.toInt ≤ y.toInt then y else x) ∧
    runs (.minn d a b) (if x.toNat ≤ y.toNat then x else y) ∧
    runs (.maxn d a b) (if x.toNat ≤ y.toNat then y else x) ∧
    runs (.slt d a b) (if x.toInt < y.toInt then 1 else 0) ∧
    runs (.sltn d a b) (if x.toNat < y.toNat then 1 else 0) ∧
    runs (.mul d a b) (BitVec.ofInt 64 (x.toInt * y.toInt)) ∧
    runs (.mulh d a b) (BitVec.ofInt 64 (x.toInt * y.toInt / 2 ^ 64)) ∧
    runs (.mulhn d a b) (BitVec.ofNat 64 (x.toNat * y.toNat / 2 ^ 64)) ∧
    runs (.seq d a b) (if x = y then 1 else 0)

/-- R173: an instruction with an 11-bit immediate that can issue completes with the result of g[a] and the sign-extended
immediate. -/
def IntegerImmediateRule : Prop :=
  ∀ (s : State) (d a : GIdx) (i : BitVec 11), s.canIssue [a.toNat] [d.toNat] = true →
    let x := s.g a.toNat
    let k := i.signExtend 64
    let runs (i : Instr) (v : Word) : Prop :=
      ∃ t, exec i s = .next t ∧ Alu s t d.toNat v (s.pcNext 4) [a.toNat]
    let n := i.toNat
    let word (i : Instr) (m : Nat) : Prop :=
      encode i = .w32 (BitVec.ofNat 32 (m * 2 ^ 25 + 2 ^ 31 + d.toNat * 2 ^ 18 + a.toNat * 2 ^ 11 + n))
    word (.addi d a i) 2 ∧ word (.andi d a i) 3 ∧ word (.ori d a i) 4 ∧ word (.xori d a i) 5 ∧ word (.slti d a i) 6 ∧
    runs (.addi d a i) (x + k) ∧ runs (.andi d a i) (x &&& k) ∧ runs (.ori d a i) (x ||| k) ∧
    runs (.xori d a i) (x ^^^ k) ∧ runs (.slti d a i) (if x.toInt < k.toInt then 1 else 0)

/-- R168, R169, R173: integer instructions on registers, and on a register and an immediate. -/
def Obligations.IntegerArithmetic : Prop := IntegerRegisterRule ∧ IntegerImmediateRule

/-- R174, R175: shifts by an immediate and bit fields complete: the result bit by bit. BFI reads g[d] too. -/
def ShiftsAndFieldsRule : Prop :=
  (∀ (s : State) (d a : GIdx) (n : BitVec 6), s.canIssue [a.toNat] [d.toNat] = true →
    let x := s.g a.toNat
    let runs (i : Instr) (v : Word) : Prop :=
      ∃ t, exec i s = .next t ∧ Alu s t d.toNat v (s.pcNext 4) [a.toNat]
    runs (.shli d a n) (BitVec.ofNat 64 (x.toNat * 2 ^ n.toNat)) ∧
    runs (.shri d a n) (BitVec.ofNat 64 (x.toNat / 2 ^ n.toNat)) ∧
    runs (.shai d a n) (BitVec.ofInt 64 (x.toInt / 2 ^ n.toNat)) ∧
    runs (.roti d a n) (if n.toNat = 0 then x else (x <<< n.toNat) ||| (x >>> (64 - n.toNat)))) ∧
  (∀ (s : State) (d a : GIdx) (l : BitVec 5) (p : BitVec 6), p.toNat + l.toNat + 1 ≤ 64 →
    s.canIssue [a.toNat] [d.toNat] = true →
    ∃ t v, exec (.bfx d a l p) s = .next t ∧ Alu s t d.toNat v (s.pcNext 4) [a.toNat] ∧
      ∀ i, v.getLsbD i = (decide (i < l.toNat + 1) && (s.g a.toNat).getLsbD (p.toNat + i))) ∧
  (∀ (s : State) (d a : GIdx) (l : BitVec 5) (p : BitVec 6), p.toNat + l.toNat + 1 ≤ 64 →
    s.canIssue [d.toNat, a.toNat] [d.toNat] = true →
    ∃ t v, exec (.bfi d a l p) s = .next t ∧ Alu s t d.toNat v (s.pcNext 4) [d.toNat, a.toNat] ∧
      ∀ i, v.getLsbD i = if p.toNat ≤ i ∧ i < p.toNat + l.toNat + 1 then (s.g a.toNat).getLsbD (i - p.toNat)
        else (s.g d.toNat).getLsbD i)

/-- R176: LIMZ and LIMH complete: LIMZ writes imm16 × 2^(16·sh), LIMH replaces bits [16·sh + 15 : 16·sh] of g[d]. -/
def LoadImmediateRule : Prop :=
  (∀ (s : State) (d : GIdx) (h : BitVec 2) (i : Half), s.canIssue [] [d.toNat] = true →
    encode (.limz d h i) = .w32 (BitVec.ofNat 32 (0x94000000 + d.toNat * 2 ^ 18 + h.toNat * 2 ^ 16 + i.toNat)) ∧
    ∃ t, exec (.limz d h i) s = .next t ∧
      Alu s t d.toNat (BitVec.ofNat 64 (i.toNat * 2 ^ (16 * h.toNat))) (s.pcNext 4) []) ∧
  (∀ (s : State) (d : GIdx) (h : BitVec 2) (i : Half), s.canIssue [d.toNat] [d.toNat] = true →
    encode (.limh d h i) = .w32 (BitVec.ofNat 32 (0x96000000 + d.toNat * 2 ^ 18 + h.toNat * 2 ^ 16 + i.toNat)) ∧
    ∃ t v, exec (.limh d h i) s = .next t ∧ Alu s t d.toNat v (s.pcNext 4) [d.toNat] ∧
      ∀ j, v.getLsbD j = if 16 * h.toNat ≤ j ∧ j < 16 * h.toNat + 16 then i.getLsbD (j - 16 * h.toNat)
        else (s.g d.toNat).getLsbD j)

/-- R177: ADPC completes: g[d] := Wrap64(pc + SignExtend(imm18, 64) × 2), pc the instruction's own address. -/
def AddToPcRule : Prop :=
  ∀ (s : State) (d : GIdx) (i : BitVec 18), s.canIssue [] [d.toNat] = true →
    encode (.adpc d i) = .w32 (BitVec.ofNat 32 (0x98000000 + d.toNat * 2 ^ 18 + i.toNat)) ∧
    ∃ t, exec (.adpc d i) s = .next t ∧ Alu s t d.toNat (s.me.pc + i.signExtend 64 * 2#64) (s.pcNext 4) []

/-- R176, R177: constants: a part of a register loaded, an address from the PC. -/
def Obligations.Constants : Prop := LoadImmediateRule ∧ AddToPcRule

/-- R171, R172: the unary forms complete. CLZ, FFS and POPC work on each element of width w in place; SEXT and ZEXT extend the low w
bits; BREV and BSWAP reverse bits and bytes. -/
def BitCountingRule : Prop :=
  ∀ (s : State) (d a : GIdx) (k : BitVec 2), s.canIssue [a.toNat] [d.toNat] = true →
    let x := s.g a.toNat
    let w := 8 * 2 ^ k.toNat
    let e (j : Nat) : Nat := x.toNat / 2 ^ (w * j) % 2 ^ w
    let each (i : Instr) (r : Nat → Nat → Prop) : Prop :=
      ∃ t v, exec i s = .next t ∧ Alu s t d.toNat v (s.pcNext 4) [a.toNat] ∧
        ∀ j, j < 64 / w → r (e j) (v.toNat / 2 ^ (w * j) % 2 ^ w)
    let runs (i : Instr) (v : Word) : Prop :=
      ∃ t, exec i s = .next t ∧ Alu s t d.toNat v (s.pcNext 4) [a.toNat]
    each (.clz d a k) (fun e r => r ≤ w ∧ e < 2 ^ (w - r) ∧ (r < w → 2 ^ (w - r - 1) ≤ e)) ∧
    each (.ffs d a k) (fun e r => if e = 0 then r = w else r < w ∧ e.testBit r = true ∧ ∀ j, j < r → e.testBit j = false) ∧
    each (.popc d a k) (fun e r => r = ((List.range w).filter (fun j => e.testBit j)).length) ∧
    runs (.sext d a k) (BitVec.ofInt 64 (if x.toNat % 2 ^ w < 2 ^ (w - 1) then (x.toNat % 2 ^ w : Int)
      else (x.toNat % 2 ^ w : Int) - 2 ^ w)) ∧
    runs (.zext d a k) (BitVec.ofNat 64 (x.toNat % 2 ^ w)) ∧
    (∃ t v, exec (.brev d a) s = .next t ∧ Alu s t d.toNat v (s.pcNext 4) [a.toNat] ∧
      ∀ i, i < 64 → v.getLsbD i = x.getLsbD (63 - i)) ∧
    (∃ t v, exec (.bswap d a) s = .next t ∧ Alu s t d.toNat v (s.pcNext 4) [a.toNat] ∧
      ∀ i, i < 64 → v.getLsbD i = x.getLsbD (8 * (7 - i / 8) + i % 8))

/-- R171, R172, R174, R175: shifts by an immediate, bit fields, and the unary forms. -/
def Obligations.FieldsAndCounts : Prop := ShiftsAndFieldsRule ∧ BitCountingRule


/-- R170: a division that can issue completes unless the divisor is 0 and its enable FPCTL[5] is set: its destination is pending and
the quotient or remainder will land; with both it traps DIVZ and g[d] keeps its value. -/
def Obligations.Divide : Prop :=
  ∀ (s : State) (d a b : GIdx), s.canIssue [a.toNat, b.toNat] [d.toNat] = true →
    let x := s.g a.toNat
    let y := s.g b.toNat
    let q : Int := x.toInt.tdiv y.toInt
    let brings (i : Instr) (v : Word) : Prop :=
      if y = 0 ∧ s.me.ctl.fpctl.getLsbD 5 = true then exec i s = .next (s.trap causeDIVZ 0#64 0#64)
      else ∃ t, exec i s = .next t ∧ Long s t [(.g, d.toNat, v.toNat)] 0#5 0#16 (s.pcNext 4) [a.toNat, b.toNat]
    brings (.div d a b) (if y = 0 then BitVec.allOnes 64 else BitVec.ofInt 64 q) ∧
    brings (.divn d a b) (if y = 0 then BitVec.allOnes 64 else BitVec.ofNat 64 (x.toNat / y.toNat)) ∧
    brings (.rem d a b) (if y = 0 then x else BitVec.ofInt 64 (x.toInt - y.toInt * q)) ∧
    brings (.remn d a b) (if y = 0 then x else BitVec.ofNat 64 (x.toNat % y.toNat))

/-- R159, R188: a compact integer form does what its equivalent does, in two bytes. -/
def CompactIntegerRule : Prop :=
  ∀ (s : State) (a b : G5Idx) (k : BitVec 5),
    let x := s.g a.toNat
    let y := s.g b.toNat
    let n : Word := k.signExtend 64
    let runs (i : Instr) (v : Word) (src : List Nat) : Prop :=
      s.canIssue src [a.toNat] = true → ∃ t, exec i s = .next t ∧ Alu s t a.toNat v (s.pcNext 2) src
    runs (.mvC a b) y [b.toNat] ∧ runs (.liC a k) n [] ∧ runs (.addiC a k) (x + n) [a.toNat] ∧
    runs (.addC a b) (x + y) [a.toNat, b.toNat] ∧ runs (.subC a b) (x - y) [a.toNat, b.toNat] ∧
    runs (.andC a b) (x &&& y) [a.toNat, b.toNat] ∧ runs (.orC a b) (x ||| y) [a.toNat, b.toNat] ∧
    runs (.xorC a b) (x ^^^ y) [a.toNat, b.toNat] ∧
    runs (.shliC a k) (x <<< k.toNat) [a.toNat] ∧ runs (.shriC a k) (x >>> k.toNat) [a.toNat] ∧
    runs (.shaiC a k) (BitVec.ofInt 64 (x.toInt / 2 ^ k.toNat)) [a.toNat] ∧
    (∃ t, exec .nopC s = .next t ∧ Issued s t (s.pcNext 2) [] ∧ SameG s t ∧ SameV s t ∧ Quiet s t) ∧
    (∃ t, exec .nop s = .next t ∧ Issued s t (s.pcNext 4) [] ∧ SameG s t ∧ SameV s t ∧ Quiet s t)

/-- R159, R188, R70: QPOP.C moves the value its slot's register holds to g[a] and consumes it; QPUSH.C pushes g[a] as a word entry
of class 0 to its slot's queue. A slot that is not mapped traps PROT reason 12. -/
def CompactQueueRule : Prop :=
  ∀ (s : State) (a : G5Idx) (k : BitVec 2), s.me.sg = 128 →
    let r := 124 + k.toNat
    (s.me.mapped r = none →
      (s.canIssue [] [a.toNat] = true → exec (.qpopC a k) s = .next (s.trapProt 0#64 12)) ∧
      (s.canIssue [a.toNat] [r] = true → exec (.qpushC a k) s = .next (s.trapProt 0#64 12))) ∧
    (s.me.mapped r ≠ none → s.canIssue [r] [a.toNat] = true →
      ∃ t, exec (.qpopC a k) s = .next t ∧ Alu s t a.toNat (s.g r) (s.pcNext 2) [r] ∧ k.toNat ∉ t.me.held) ∧
    (∀ h, s.me.mapped r = some h → s.canIssue [a.toNat] [r] = true →
      ∃ t, exec (.qpushC a k) s = .next t ∧ Issued s t (s.pcNext 2) [a.toNat] ∧ SameG s t ∧ SameV s t ∧
        Sends s t (fun m => m.kind = .push (s.me.qkey h) { payload := (s.g a.toNat).setWidth 512, prog := s.me.program })
          .queuePushAtHome)

/-- R70, R159, R188: the compact forms.
Rests on readings of log entry 19. -/
def Obligations.CompactForms : Prop := CompactIntegerRule ∧ CompactQueueRule

/-! ## Transfers of control -/

/-- A transfer has completed at npc: nothing else changes. -/
def Transfers (s : State) (i : Instr) (npc : Word) (src : List Nat) : Prop :=
  ∃ t, exec i s = .next t ∧ Issued s t npc src ∧ SameG s t ∧ SameV s t ∧ SameDies s t ∧ Quiet s t

/-- R185, R188: a branch on a register goes to pc + SignExtend(off) × 2 when SInt(g[a]) meets its condition, else to the next
instruction. -/
def BranchOnRegisterRule : Prop :=
  (∀ (s : State) (a : GIdx) (o : BitVec 14), s.canIssue [a.toNat] [] = true →
    let x := (s.g a.toNat).toInt
    let goes (i : Instr) (c : Prop) : Prop :=
      (c → Transfers s i (s.me.pc + o.signExtend 64 * 2#64) [a.toNat]) ∧ (¬c → Transfers s i (s.pcNext 4) [a.toNat])
    goes (.beqz a o) (x = 0) ∧ goes (.bnez a o) (x ≠ 0) ∧ goes (.bltz a o) (x < 0) ∧ goes (.bgez a o) (x ≥ 0) ∧
    goes (.bgtz a o) (x > 0) ∧ goes (.blez a o) (x ≤ 0)) ∧
  (∀ (s : State) (a : G5Idx) (o : BitVec 5), s.canIssue [a.toNat] [] = true →
    let x := (s.g a.toNat).toInt
    let goes (i : Instr) (c : Prop) : Prop :=
      (c → Transfers s i (s.me.pc + o.signExtend 64 * 2#64) [a.toNat]) ∧ (¬c → Transfers s i (s.pcNext 2) [a.toNat])
    goes (.beqzC a o) (x = 0) ∧ goes (.bnezC a o) (x ≠ 0))

/-- R186: BP tests a mask, or the presence of a register, without reading a value or waiting. -/
def BranchOnStateRule : Prop :=
  (∀ (s : State) (k : MIdx) (o : BitVec 14),
    let m := s.me.mask k.toNat
    let goes (i : Instr) (c : Prop) : Prop :=
      (c → Transfers s i (s.me.pc + o.signExtend 64 * 2#64) []) ∧ (¬c → Transfers s i (s.pcNext 4) [])
    goes (.bmany k o) (m ≠ 0) ∧ goes (.ball k o) (m = 0xFFFF) ∧ goes (.bnone k o) (m = 0)) ∧
  (∀ (s : State) (a : GIdx) (o : BitVec 14), a.toNat < s.me.sg → s.me.mapped a.toNat = none →
    let goes (i : Instr) (c : Prop) : Prop :=
      (c → Transfers s i (s.me.pc + o.signExtend 64 * 2#64) []) ∧ (¬c → Transfers s i (s.pcNext 4) [])
    goes (.bpres a o) ((s.gReg s.cur a.toNat).st = .present) ∧ goes (.babs a o) ((s.gReg s.cur a.toNat).st ≠ .present)) ∧
  (∀ (s : State) (a : GIdx) (o : BitVec 14) (h : Nat), a.toNat < s.me.sg → s.me.mapped a.toNat = some h →
    let q := s.queue (s.me.qkey h)
    (s.badHandle h (s.me.qkey h) = true →
      exec (.bpres a o) s = .next (s.trapProt (BitVec.ofNat 64 h) 12) ∧
      exec (.babs a o) s = .next (s.trapProt (BitVec.ofNat 64 h) 12)) ∧
    (s.badHandle h (s.me.qkey h) = false → q.etype = 0#2 → q.resident = true →
      let ready := a.toNat - 124 ∈ s.me.held ∨ Map.get s.me.slotReady (a.toNat - 124) false = true
      (ready → Transfers s (.bpres a o) (s.me.pc + o.signExtend 64 * 2#64) [] ∧ Transfers s (.babs a o) (s.pcNext 4) []) ∧
      (¬ready → Transfers s (.bpres a o) (s.pcNext 4) [] ∧ Transfers s (.babs a o) (s.me.pc + o.signExtend 64 * 2#64) [])))

/-- R185, R186, R188: branches on a register, on a mask and on a register's presence. -/
def Obligations.Branches : Prop := BranchOnRegisterRule ∧ BranchOnStateRule

/-- R187, R188: JMP and JAL transfer to pc + SignExtend(off25) × 2, JAL linking pc + 4 in g1; JALR and RET transfer to the register's
target, linking pc + 4 in g[d]; a target with bit 0 set traps ALIGN with the target in TRAPADDR. -/
def Obligations.Jumps : Prop :=
  (∀ (s : State) (o : BitVec 25), Transfers s (.jmp o) (s.me.pc + o.signExtend 64 * 2#64) []) ∧
  (∀ (s : State) (o : BitVec 25), s.canIssue [] [1] = true →
    ∃ t, exec (.jal o) s = .next t ∧ Alu s t 1 (s.me.pc + 4#64) (s.me.pc + o.signExtend 64 * 2#64) []) ∧
  (∀ (s : State) (d a : GIdx) (i : BitVec 11), s.canIssue [a.toNat] [d.toNat] = true →
    let target := s.g a.toNat + i.signExtend 64
    (target.getLsbD 0 = false →
      ∃ t, exec (.jalr d a i) s = .next t ∧ Alu s t d.toNat (s.me.pc + 4#64) target [a.toNat]) ∧
    (target.getLsbD 0 = true → exec (.jalr d a i) s = .next (s.trap causeALIGN target 1#64))) ∧
  (∀ (s : State), s.canIssue [1] [] = true →
    ((s.g 1).getLsbD 0 = false → ∃ t, exec .ret s = .next t ∧ Alu s t 0 (s.me.pc + 4#64) (s.g 1) [1]) ∧
    ((s.g 1).getLsbD 0 = true → exec .ret s = .next (s.trap causeALIGN (s.g 1) 1#64)))

/-! ## Scalar floating point -/

/-- A floating-point instruction of n cycles, at most 8, with result and flags r: with no enabled exception among the flags it completes,
ORing them into FPFLAGS; with one it traps FPX precisely and writes nothing (R135, R136, R178, R328). -/
def FloatShort (s : State) (i : Instr) (n d : Nat) (r : Nat × Flags) (src : List Nat) : Prop :=
  let en := enabledFlags s.me.ctl.fpctl r.2
  (en = 0#5 → ∃ t, exec i s = .next t ∧
    AluAs s t (s.me.raisedBy r.2 (s.cycleNow + n)) d (BitVec.ofNat 64 r.1) (s.pcNext 4) src) ∧
  (en ≠ 0#5 → exec i s = .next (s.trap causeFPX 0#64 (fpxInfo en 0#16)))

/-- R178 to R183, R147: the scalar floating-point operations in both formats. FADD, FSUB and FMUL round by the mode sampled at
issue; FFMA reads g[d] too and rounds once. -/
def Obligations.FloatArithmetic : Prop :=
  ∀ (s : State) (d a b : GIdx),
    let r := modeOf s.me.ctl.fpctl
    let x := (s.g a.toNat).toNat
    let y := (s.g b.toNat).toNat
    let z := (s.g d.toNat).toNat
    let two (i : Instr) (v : Nat × Flags) : Prop := FloatShort s i 6 d.toNat v [a.toNat, b.toNat]
    let three (i : Instr) (v : Nat × Flags) : Prop := FloatShort s i 6 d.toNat v [d.toNat, a.toNat, b.toNat]
    let flag (v : Bool × Flags) : Nat × Flags := (if v.1 then 1 else 0, v.2)
    (s.canIssue [a.toNat, b.toNat] [d.toNat] = true →
      two (.faddS d a b) (fmt32.add r x y) ∧ two (.faddD d a b) (fmt64.add r x y) ∧
      two (.fsubS d a b) (fmt32.sub r x y) ∧ two (.fsubD d a b) (fmt64.sub r x y) ∧
      two (.fmulS d a b) (fmt32.mul r x y) ∧ two (.fmulD d a b) (fmt64.mul r x y) ∧
      two (.fminS d a b) (fmt32.minmax false x y) ∧ two (.fminD d a b) (fmt64.minmax false x y) ∧
      two (.fmaxS d a b) (fmt32.minmax true x y) ∧ two (.fmaxD d a b) (fmt64.minmax true x y) ∧
      two (.feqS d a b) (flag (fmt32.cmp .eq x y)) ∧ two (.feqD d a b) (flag (fmt64.cmp .eq x y)) ∧
      two (.fltS d a b) (flag (fmt32.cmp .lt x y)) ∧ two (.fltD d a b) (flag (fmt64.cmp .lt x y)) ∧
      two (.fleS d a b) (flag (fmt32.cmp .le x y)) ∧ two (.fleD d a b) (flag (fmt64.cmp .le x y)) ∧
      two (.funS d a b) (flag (fmt32.cmp .un x y)) ∧ two (.funD d a b) (flag (fmt64.cmp .un x y)) ∧
      two (.fsgnjS d a b) (x % 2 ^ 31 + y / 2 ^ 31 % 2 * 2 ^ 31, 0#5) ∧
      two (.fsgnjD d a b) (x % 2 ^ 63 + y / 2 ^ 63 % 2 * 2 ^ 63, 0#5) ∧
      two (.fsgnjnS d a b) (x % 2 ^ 31 + (1 - y / 2 ^ 31 % 2) * 2 ^ 31, 0#5) ∧
      two (.fsgnjnD d a b) (x % 2 ^ 63 + (1 - y / 2 ^ 63 % 2) * 2 ^ 63, 0#5)) ∧
    (s.canIssue [d.toNat, a.toNat, b.toNat] [d.toNat] = true →
      three (.ffmaS d a b) (fmt32.fma r false false x y z) ∧ three (.ffmaD d a b) (fmt64.fma r false false x y z) ∧
      three (.ffmsS d a b) (fmt32.fma r false true x y z) ∧ three (.ffmsD d a b) (fmt64.fma r false true x y z) ∧
      three (.fnmaS d a b) (fmt32.fma r true false x y z) ∧ three (.fnmaD d a b) (fmt64.fma r true false x y z))

/-- R180, R184, R132: FCLASS and the conversions between formats and integers. -/
def FloatConvertRule : Prop :=
  ∀ (s : State) (d a : GIdx), s.canIssue [a.toNat] [d.toNat] = true →
    let r := modeOf s.me.ctl.fpctl
    let x := (s.g a.toNat).toNat
    let n := (s.g a.toNat).toInt
    let one (i : Instr) (v : Nat × Flags) : Prop := FloatShort s i 4 d.toNat v [a.toNat]
    let class_ (i : Instr) (v : Nat) : Prop := FloatShort s i 6 d.toNat (v, 0#5) [a.toNat]
    let word (v : Int × Flags) : Nat × Flags := ((BitVec.ofInt 64 v.1).toNat, v.2)
    class_ (.fclassS d a) (fmt32.classify x) ∧ class_ (.fclassD d a) (fmt64.classify x) ∧
    one (.fcvtS2d d a) (fmt32.convert fmt64 r x) ∧ one (.fcvtD2s d a) (fmt64.convert fmt32 r x) ∧
    one (.fcvtS2b d a) (fmt32.convert fmt16 r x) ∧ one (.fcvtB2s d a) (fmt16.convert fmt32 r x) ∧
    one (.fcvtI2s d a) (fmt32.ofInt r n) ∧ one (.fcvtN2s d a) (fmt32.ofInt r x) ∧
    one (.fcvtI2d d a) (fmt64.ofInt r n) ∧ one (.fcvtN2d d a) (fmt64.ofInt r x) ∧
    one (.fcvtS2i d a) (word (fmt32.toInt r (-(2 ^ 63)) (2 ^ 63 - 1) x)) ∧
    one (.fcvtS2n d a) (word (fmt32.toInt r 0 (2 ^ 64 - 1) x)) ∧
    one (.fcvtD2i d a) (word (fmt64.toInt r (-(2 ^ 63)) (2 ^ 63 - 1) x)) ∧
    one (.fcvtD2n d a) (word (fmt64.toInt r 0 (2 ^ 64 - 1) x))

/-- R178, R179: FDIV and FSQRT are presence producers: they complete with the destination pending and a message that brings the
rounded result and its flags, or the attributed-imprecise FPX. -/
def FloatLongRule : Prop :=
  ∀ (s : State) (d a b : GIdx),
    let r := modeOf s.me.ctl.fpctl
    let x := (s.g a.toNat).toNat
    let y := (s.g b.toNat).toNat
    let brings (i : Instr) (v : Nat × Flags) (src : List Nat) : Prop :=
      ∃ t, exec i s = .next t ∧ Long s t [(.g, d.toNat, v.1)] v.2 0#16 (s.pcNext 4) src
    (s.canIssue [a.toNat, b.toNat] [d.toNat] = true →
      brings (.fdivS d a b) (fmt32.div r x y) [a.toNat, b.toNat] ∧ brings (.fdivD d a b) (fmt64.div r x y) [a.toNat, b.toNat]) ∧
    (s.canIssue [a.toNat] [d.toNat] = true →
      brings (.fsqrtS d a) (fmt32.sqrt r x) [a.toNat] ∧ brings (.fsqrtD d a) (fmt64.sqrt r x) [a.toNat])

/-- R132, R178 to R180, R184: conversions, and the scalar instructions of the long unit. -/
def Obligations.FloatConversionsAndLong : Prop := FloatConvertRule ∧ FloatLongRule


/-! ## Memory instructions at their issue -/

/-- R21, R84, R90, R214, R216: a scalar load from the strand's own local store (amode 1), aligned and inside it, completes within 8 cycles:
g[t] takes the bytes at the address, under the stores of its core still on their way (R420), extended as the form says; a poisoned
granule traps ECC. A misaligned address traps ALIGN, one beyond the 256 KiB PROT reason 0. The compact forms load 4 bytes zero-extended and 8 bytes. -/
def LocalLoadRule : Prop :=
  ∀ (s : State) (i : Instr) (t a : Nat) (ea : Word) (size len : Nat) (sext : Bool),
    ((∃ (rt ra : GIdx) (z : Size) (o : BitVec 7), (i = .lds rt ra z .ls o ∧ sext = true ∨ i = .ldn rt ra z .ls o ∧ sext = false) ∧
        t = rt.toNat ∧ a = ra.toNat ∧ size = z.bytes ∧ len = 4 ∧
        ea = s.g a + BitVec.ofInt 64 (o.toInt * size)) ∨
     (∃ rt ra : G5Idx, (i = .ldwLs rt ra ∧ size = 4 ∧ sext = false ∨ i = .lddLs rt ra ∧ size = 8 ∧ sext = true) ∧
        t = rt.toNat ∧ a = ra.toNat ∧ len = 2 ∧ ea = s.g a)) →
    s.canIssue [a] [t] = true →
    let k := lsKey (coreOf s.cur) ea.toNat
    (ea.toNat % size ≠ 0 → exec i s = .next (s.trap causeALIGN ea (BitVec.ofNat 64 (Nat.log2 size)))) ∧
    (ea.toNat % size = 0 → 2 ^ 18 ≤ ea.toNat → exec i s = .next (s.trapProt ea 0)) ∧
    (ea.toNat % size = 0 → ea.toNat < 2 ^ 18 → s.watchBefore (seenOf s.cur .load .ls [{ ea := ea, size := size }]) = none →
      (s.poisoned k size = true → exec i s = .next (s.trap causeECC ea 2#64)) ∧
      (s.poisoned k size = false →
        ∃ u w, exec i s = .next u ∧
          IssuedAs s u { s.me with watchPend := w } (s.pcNext len) [a] ∧
          (s.me.watchRegs.watching = false → w = s.me.watchPend) ∧
          ResultG s u t (extendLoad size sext (leNat (s.readThrough (coreOf s.cur) k size))) ∧ SameV s u ∧ DiesButClock s u))

/-- R21, R214, R216: a scalar load that does not stay in its own local store, aligned and translated, leaves as a request: g[t] is
pending and the context waits for its one outstanding load. -/
def MemoryLoadRule : Prop :=
  ∀ (s : State) (i : Instr) (am : AMode) (t : Nat) (src : List Nat) (ea : Word) (size : Nat) (sext : Bool),
    ((∃ (rt ra : GIdx) (z : Size) (o : BitVec 7),
        (i = .lds rt ra z am o ∧ sext = true ∨ i = .ldn rt ra z am o ∧ sext = false) ∧ am ≠ .ls ∧
        t = rt.toNat ∧ src = [ra.toNat] ∧ size = z.bytes ∧ ea = s.g ra.toNat + BitVec.ofInt 64 (o.toInt * size)) ∨
     (∃ d a b : GIdx,
        (i = .ldxsB d a b ∧ size = 1 ∧ sext = true ∨ i = .ldxsH d a b ∧ size = 2 ∧ sext = true ∨
         i = .ldxsW d a b ∧ size = 4 ∧ sext = true ∨ i = .ldxsD d a b ∧ size = 8 ∧ sext = true ∨
         i = .ldxnB d a b ∧ size = 1 ∧ sext = false ∨ i = .ldxnH d a b ∧ size = 2 ∧ sext = false ∨
         i = .ldxnW d a b ∧ size = 4 ∧ sext = false) ∧ am = .generic ∧
        t = d.toNat ∧ src = [a.toNat, b.toNat] ∧ ea = s.g a.toNat + s.g b.toNat * BitVec.ofNat 64 size)) →
    s.canIssue src [t] = true →
    (misaligned am size ea = true → exec i s = .next (s.trap causeALIGN ea (BitVec.ofNat 64 (Nat.log2 size)))) ∧
    (∀ ps, misaligned am size ea = false → s.watchBefore (seenOf s.cur .load am [{ ea := ea, size := size }]) = none →
      s.resolveAll .load am [{ ea := ea, size := size }] = .ok ps →
      ∃ u, exec i s = .next u ∧ Asks s u .load [t] []
        (fun m => m.kind = .load ∧ m.parts = ps ∧ m.dest = .g t size sext) .memoryRequestAtHome (s.pcNext 4) src)

/-- R21, R214, R216: loads of the local store and of memory. -/
def Obligations.Loads : Prop := LocalLoadRule ∧ MemoryLoadRule

/-- R107, R214, R216, R354: a scalar store, aligned and translated, is posted: its bytes leave for the address and no byte of memory
changes before they reach their home. -/
def Obligations.MemoryStore : Prop :=
  ∀ (s : State) (i : Instr) (am : AMode) (t : Nat) (src : List Nat) (ea : Word) (size len : Nat),
    ((∃ (rt ra : GIdx) (z : Size) (o : BitVec 7), i = .st rt ra z am o ∧ t = rt.toNat ∧ src = [ra.toNat, rt.toNat] ∧
        size = z.bytes ∧ len = 4 ∧ ea = s.g ra.toNat + BitVec.ofInt 64 (o.toInt * size)) ∨
     (∃ d a b : GIdx,
        (i = .stxB d a b ∧ size = 1 ∨ i = .stxH d a b ∧ size = 2 ∨ i = .stxW d a b ∧ size = 4 ∨ i = .stxD d a b ∧ size = 8) ∧
        am = .generic ∧ t = d.toNat ∧ src = [a.toNat, b.toNat, d.toNat] ∧ len = 4 ∧
        ea = s.g a.toNat + s.g b.toNat * BitVec.ofNat 64 size) ∨
     (∃ ra rb : G5Idx, (i = .stwLs ra rb ∧ size = 4 ∨ i = .stdLs ra rb ∧ size = 8) ∧ am = .ls ∧
        t = ra.toNat ∧ src = [rb.toNat, ra.toNat] ∧ len = 2 ∧ ea = s.g rb.toNat)) →
    s.canIssue src [] = true →
    let el : El := { ea := ea, size := size, data := leBytes size (s.g t).toNat }
    (misaligned am size ea = true → exec i s = .next (s.trap causeALIGN ea (BitVec.ofNat 64 (Nat.log2 size)))) ∧
    (∀ ps, misaligned am size ea = false → s.watchBefore (seenOf s.cur .store am [el]) = none →
      s.resolveAll .store am [el] = .ok ps → s.me.posted + 1 ≤ 64 →
      ∃ u, exec i s = .next u ∧ Posts s u 1 (fun m => m.kind = .store ∧ m.parts = ps) .memoryRequestAtHome (s.pcNext len) src)

/-- R98, R218 to R220, R238: an atomic on bank memory, aligned and translated, leaves for the bank ALU: with a destination its old
value comes back and the context waits; with g0, and as RED, it is posted. -/
def Obligations.AtomicIssue : Prop :=
  ∀ (s : State) (i : Instr) (d a b : Nat) (sc : Scope) (op : AtomOp) (src : List Nat) (cmp : Word),
    ((∃ (rd ra : GIdx) (rb : G5Idx), d = rd.toNat ∧ a = ra.toNat ∧ b = rb.toNat ∧
        ((src = [a, b] ∧ cmp = 0#64 ∧
          (i = .amoadd rd ra rb sc ∧ op = .add ∨ i = .amoand rd ra rb sc ∧ op = .and ∨ i = .amoor rd ra rb sc ∧ op = .or ∨
           i = .amoxor rd ra rb sc ∧ op = .xor ∨ i = .amomin rd ra rb sc ∧ op = .min ∨ i = .amomax rd ra rb sc ∧ op = .max ∨
           i = .amominn rd ra rb sc ∧ op = .minn ∨ i = .amomaxn rd ra rb sc ∧ op = .maxn ∨
           i = .amofaddS rd ra rb sc ∧ op = .fadds ∨ i = .amofminS rd ra rb sc ∧ op = .fmins ∨
           i = .amofmaxS rd ra rb sc ∧ op = .fmaxs ∨ i = .amofaddD rd ra rb sc ∧ op = .faddd ∨
           i = .amofminD rd ra rb sc ∧ op = .fmind ∨ i = .amofmaxD rd ra rb sc ∧ op = .fmaxd ∨
           i = .amoswap rd ra rb sc ∧ op = .swap)) ∨
         (src = [d, a, b] ∧ cmp = s.g d ∧ i = .amocas rd ra rb sc ∧ op = .cas))) ∨
     (∃ ra rb : GIdx, d = 0 ∧ a = ra.toNat ∧ b = rb.toNat ∧ sc = .ctx ∧ src = [a, b] ∧ cmp = 0#64 ∧
        (i = .redAdd ra rb ∧ op = .add ∨ i = .redAnd ra rb ∧ op = .and ∨ i = .redOr ra rb ∧ op = .or ∨
         i = .redXor ra rb ∧ op = .xor ∨ i = .redMin ra rb ∧ op = .min ∨ i = .redMax ra rb ∧ op = .max ∨
         i = .redFaddS ra rb ∧ op = .fadds ∨ i = .redFaddD ra rb ∧ op = .faddd))) →
    s.canIssue src [d] = true →
    let ea := s.g a
    let el : El := { ea := ea, size := op.size, data := leBytes op.size (s.g b).toNat }
    (ea.toNat % op.size ≠ 0 → exec i s = .next (s.trap causeALIGN ea (BitVec.ofNat 64 (Nat.log2 op.size)))) ∧
    (∀ ps, ea.toNat % op.size = 0 → s.watchBefore (seenOf s.cur .atomic .generic [el]) = none →
      s.resolveAll .atomic .generic [el] = .ok ps →
      ((∃ p ∈ ps, p.notBank = true) → exec i s = .next (s.trapProt ea 0)) ∧
      ((∀ p ∈ ps, p.notBank = false) → (d = 0 → s.me.posted + 1 ≤ 64) →
        let asks (m : Msg) : Prop := m.kind = .atomic op (s.g b) cmp ∧ m.parts = ps ∧ m.sc = sc
        ∃ u, exec i s = .next u ∧
          (if d = 0 then Posts s u 1 asks .bankAluOperation (s.pcNext 4) src
           else Asks s u .load [d] [] (fun m => asks m ∧ m.dest = .g d op.size false) .bankAluOperation (s.pcNext 4) src)))

/-- R221, R228, R230: reservations and barriers leave for the bank ALU: LRW waits until it heads the queue, SCH and RSVREL are posted,
BINIT and BARRIVE are posted with g0 and else return, BWAIT waits for the phase and BSTAT reads. A BINIT count out of range traps
PROT reason 7.
Rests on readings of log entry 50. -/
def Obligations.BankIssue : Prop :=
  ∀ (s : State) (d a : GIdx) (b : G5Idx) (sc : Scope),
    let ea := s.g a.toNat
    let y := s.g b.toNat
    let ready (acc : Acc) (n : Nat) (k : MsgKind) (ps : List Part) : Prop :=
      ea.toNat % n = 0 ∧ s.watchBefore (k.seenAt ea.toNat n) = none ∧
      s.resolveAll acc .generic [{ ea := ea, size := n }] = .ok ps ∧ ∀ p ∈ ps, p.notBank = false
    let sent (k : MsgKind) (sc : Scope) (ps : List Part) (m : Msg) : Prop := m.kind = k ∧ m.parts = ps ∧ m.sc = sc
    let returns (i : Instr) (acc : Acc) (n : Nat) (k : MsgKind) (sc : Scope) (w : Wait) (src : List Nat) : Prop :=
      s.canIssue src [d.toNat] = true → ∀ ps, ready acc n k ps →
        ∃ u, exec i s = .next u ∧ Asks s u w [d.toNat] [] (fun m => sent k sc ps m ∧ m.dest = .g d.toNat 8 false)
          .bankAluOperation (s.pcNext 4) src
    let posts (i : Instr) (acc : Acc) (n : Nat) (k : MsgKind) (src dst : List Nat) : Prop :=
      s.canIssue src dst = true → ∀ ps, ready acc n k ps → s.me.posted + 1 ≤ 64 →
        ∃ u, exec i s = .next u ∧ Posts s u 1 (sent k sc ps) .bankAluOperation (s.pcNext 4) src
    returns (.lrw d a sc) .atomic 8 .lrw sc .reservation [a.toNat] ∧
    posts (.sch a b sc) .atomic 8 (.sch y) [a.toNat, b.toNat] [] ∧
    posts (.rsvrel a sc) .atomic 8 .rsvrel [a.toNat] [] ∧
    (s.canIssue [a.toNat, b.toNat] [d.toNat] = true → y = 0 ∨ 1048575 < y.toNat →
      exec (.binit d a b sc) s = .next (s.trapProt ea 7)) ∧
    (1 ≤ y.toNat → y.toNat ≤ 1048575 →
      if d = 0 then posts (.binit d a b sc) .atomic 16 (.binit y) [a.toNat, b.toNat] [0]
      else returns (.binit d a b sc) .atomic 16 (.binit y) sc .load [a.toNat, b.toNat]) ∧
    (if d = 0 then posts (.barrive d a sc) .atomic 16 .barrive [a.toNat] [0]
     else returns (.barrive d a sc) .atomic 16 .barrive sc .load [a.toNat]) ∧
    returns (.bwait d a b sc) .bankRead 16 (.bwait (y.setWidth 16)) sc .barrier [a.toNat, b.toNat] ∧
    (∀ k : BitVec 5, k.toNat ≤ 2 → returns (.bstat d a k) .bankRead (if k.toNat = 2 then 8 else 16) (.bstat k.toNat) .ctx .load [a.toNat])

/-- The wait a context makes after an instruction it has just issued: none when the wait of a scope is over already (R114). -/
def scopeWait (s : State) (c : Scope) : Wait := if s.fenceMet s.cur c then .none else .fence c s.nextId

/-- R114, R224: FENCE takes one slot, and holds the strand until the wait of its scope is over; LDA is the one outstanding load; STL
is issued and posted, and the strand goes on once the wait of its scope is over. -/
def Obligations.FenceAcquireRelease : Prop :=
  (∀ (s : State) (c : Scope), ∃ t, exec (.fence c) s = .next t ∧ Kept s t ∧ SameG s t ∧ SameV s t ∧ Quiet s t ∧
    t.me = { s.me.after (s.pcNext 4) s.cycleNow [] with wait := scopeWait s c }) ∧
  (∀ (s : State) (d a : GIdx) (c : Scope) (ps : List Part), s.canIssue [a.toNat] [d.toNat] = true →
    let el : El := { ea := s.g a.toNat, size := 8 }
    (s.g a.toNat).toNat % 8 = 0 → s.watchBefore (seenOf s.cur .load .generic [el]) = none →
    s.resolveAll .load .generic [el] = .ok ps →
    ∃ t, exec (.lda d a c) s = .next t ∧ Asks s t .load [d.toNat] []
      (fun m => m.kind = .load ∧ m.parts = ps ∧ m.dest = .g d.toNat 8 false ∧ m.sc = c) .memoryRequestAtHome (s.pcNext 4) [a.toNat]) ∧
  (∀ (s : State) (a : GIdx) (b : G5Idx) (c : Scope) (ps : List Part), s.canIssue [a.toNat, b.toNat] [] = true →
    let el : El := { ea := s.g a.toNat, size := 8, data := leBytes 8 (s.g b.toNat).toNat }
    (s.g a.toNat).toNat % 8 = 0 → s.watchBefore (seenOf s.cur .store .generic [el]) = none →
    s.resolveAll .store .generic [el] = .ok ps → s.me.posted + 1 ≤ 64 →
    ∃ t, exec (.stl a b c) s = .next t ∧ Posts s t 1 (fun m => m.kind = .store ∧ m.parts = ps ∧ m.sc = c)
      .memoryRequestAtHome (s.pcNext 4) [a.toNat, b.toNat] (scopeWait s c))

/-! ## Tokens, deposits, waits -/

/-- R101, R225, R226: PUBLISH, and SHADOW with a length of 0 that withdraws a declaration, leave their token pending and go to the
package; publish.sys holds the strand as FENCE.sys does. Another SHADOW is carried out at issue and its token will receive 0, −2 or −7: 0
adds the shadowed buffer of its package, a refusal changes nothing. A token that is g0 or mapped is ILL reason 10, one not present PEND. -/
def PublishAndShadowRule : Prop :=
  ∀ (s : State) (d a : GIdx) (b : G5Idx) (c : PubScope),
    let tok := d.toNat
    let base := (s.g a.toNat).toNat
    let len := (s.g b.toNat).toNat
    let npc := s.pcNext 4
    let ready (src : List Nat) : Prop :=
      s.canIssue src [tok] = true ∧ s.tokenOk tok = true ∧ (s.gReg s.cur tok).st = .present
    (s.tokenOk tok = false → exec (.publish d a c) s = .next (s.trapIll 10) ∧ exec (.shadow d a b) s = .next (s.trapIll 10)) ∧
    (s.tokenOk tok = true → s.canIssue [a.toNat, b.toNat] [tok] = true → (s.gReg s.cur tok).st ≠ .present →
      let pend := s.trap causePEND 0#64 (BitVec.ofNat 64 tok)
      exec (.publish d a c) s = .next pend ∧ exec (.shadow d a b) s = .next pend) ∧
    (ready [a.toNat] → ∃ t, exec (.publish d a c) s = .next t ∧
      Asks s t (match c with | .pkg => .none | .sys => scopeWait s .sys) [tok] []
      (fun m => m.kind = .publish base ∧ m.dest = .g tok 8 false ∧ m.sc = (match c with | .pkg => .pkg | .sys => .sys))
      .publishExchange npc [a.toNat]) ∧
    (ready [a.toNat, b.toNat] →
      let here := s.shadowAt (pkgOf s.cur) s.me.job base
      let answers (u : State) (k : Int) : Prop := ∃ t, exec (.shadow d a b) s = .next t ∧ Asks u t .none [tok] []
        (fun m => m.kind = .shadow base len ∧ m.dest = .g tok 8 false ∧ m.ans = leBytes 8 (codeWord k).toNat)
        .loadValueLands npc [a.toNat, b.toNat]
      (len = 0 → here ≠ none → ∃ t, exec (.shadow d a b) s = .next t ∧ Asks s t .none [tok] []
        (fun m => m.kind = .shadow base 0 ∧ m.dest = .g tok 8 false ∧ m.sc = .ctx) .shadowWithdrawal npc [a.toNat, b.toNat]) ∧
      (len = 0 → here = none → answers s (-7)) ∧
      (len ≠ 0 → ∃ k u, s.declare s.cur s.me.job base len = (k, u) ∧ answers u k ∧
        (k = 0 ∧ u = { s with
            mem := u.mem, poison := u.poison, stamps := u.stamps, pkgs := u.pkgs, galleys := u.galleys, agenda := u.agenda
            shadows := s.shadows ++ [{ pkg := pkgOf s.cur, job := s.me.job, base := base, len := len }] } ∨
         (k = -2 ∨ k = -7) ∧ u = s)))

/-- R231, R232: NPUT sends its deposit to the neighbour's register and holds the context until the answer; off the grid it traps PROT
reason 8, with a bit above [10:0] of g[a] reason 9. PARM arms a present register, leaves an armed or empty one, traps PEND on a pending one;
on a mapped one it traps PROT reason 33, on g0 ILL reason 4. -/
def DepositAndArmRule : Prop :=
  (∀ (s : State) (e : BitVec 2) (a b : GIdx), s.canIssue [a.toNat, b.toNat] [] = true →
    let g := (s.g a.toNat).toNat
    (neighbour (coreOf s.cur) e.toNat = none → exec (.nput e a b) s = .next (s.trapProt 0#64 8)) ∧
    (∀ k, neighbour (coreOf s.cur) e.toNat = some k →
      (2048 ≤ g → exec (.nput e a b) s = .next (s.trapProt 0#64 9)) ∧
      (g < 2048 → ∃ t, exec (.nput e a b) s = .next t ∧ Kept s t ∧ SameG s t ∧ SameV s t ∧ SameDies s t ∧
        t.me = { s.me with
          lastIssue := some s.cycleNow
          skipBrk := false
          skipWatch := false
          refused := none
          wait := .deposit } ∧
        Sends s t (fun m => m.kind = .deposit e.toNat (k * 16 + g % 16) (g / 16) (s.g b.toNat) ∧ m.waits = true)
          .depositArrival))) ∧
  (∀ (s : State) (t : GIdx), (t = 0#7 → exec (.parm t) s = .next (s.trapIll 4)) ∧
    (t ≠ 0#7 → t.toNat < s.me.sg →
      (s.me.mapped t.toNat ≠ none → exec (.parm t) s = .next (s.trapProt 0#64 33)) ∧
      (s.me.mapped t.toNat = none →
        let st := (s.gReg s.cur t.toNat).st
        (st = .pending → exec (.parm t) s = .next (s.trap causePEND 0#64 (BitVec.ofNat 64 t.toNat))) ∧
        (st = .present → ∃ u, exec (.parm t) s = .next u ∧ Issued s u (s.pcNext 4) [] ∧ SameV s u ∧ SameDies s u ∧ Quiet s u ∧
          ∀ c i, u.gReg c i = if s.namesG t.toNat c i then { s.gReg c i with st := .armed } else s.gReg c i) ∧
        (st ≠ .pending → st ≠ .present → Transfers s (.parm t) (s.pcNext 4) []))))

/-- R101, R225, R226, R231, R232: SHADOW, PUBLISH, DEPOSIT and ARM at issue.
NPUT is not counted in ISSUED at its issue (log entry 49); SHADOW of a length is carried out at its issue (log entry 12). -/
def Obligations.PublishShadowDepositArm : Prop := PublishAndShadowRule ∧ DepositAndArmRule

/-- R217, R234, R235: PREF starts a walk when its page is not in the TLB and has no other effect; WAITV leaves for the wait table with
the deadline in ox0; WAKEV is posted with g0 and else returns its count. The address of WAITV and WAKEV is a shared virtual one (PROT reason 0)
on 8 bytes (ALIGN). -/
def Obligations.PrefetchWaitWake : Prop :=
  ∀ (s : State) (t a b : GIdx),
    let src := [a.toNat, b.toNat]
    let ea := s.g a.toNat
    let at_ := (s.g a.toNat + s.g b.toNat).toNat
    let page := s.translate (galOf s.cur) s.me.job.toNat at_ .load
    (s.canIssue src [] = true →
      (2 ^ 54 ≤ at_ ∨ page ≠ .miss → Transfers s (.pref a b) (s.pcNext 4) src) ∧
      (at_ < 2 ^ 54 → page = .miss →
        let w := s.startWalk (galOf s.cur) s.me.job.toNat (at_ / 65536) true
        ∃ u, exec (.pref a b) s = .next u ∧ Issued w u (s.pcNext 4) src ∧ SameG w u ∧ SameV w u ∧ SameDies w u ∧ Quiet w u)) ∧
    (s.canIssue src [t.toNat] = true →
      (2 ^ 54 ≤ ea.toNat → ea.toNat < 2 ^ 56 →
        exec (.waitv t a b) s = .next (s.trapProt ea 0) ∧ exec (.wakev t a b) s = .next (s.trapProt ea 0)) ∧
      (ea.toNat < 2 ^ 54 → ea.toNat % 8 ≠ 0 →
        exec (.waitv t a b) s = .next (s.trap causeALIGN ea 3#64) ∧ exec (.wakev t a b) s = .next (s.trap causeALIGN ea 3#64)) ∧
      (ea.toNat < 2 ^ 54 → ea.toNat % 8 = 0 →
        (∀ ps, s.resolveAll .load .generic [{ ea := ea, size := 8 }] = .ok ps →
          ∃ u, exec (.waitv t a b) s = .next u ∧ Asks s u .waitv [t.toNat] []
            (fun m => m.kind = .waitv ea.toNat (s.g b.toNat) (s.me.oxr 0) ∧ m.parts = ps ∧ m.dest = .g t.toNat 8 false)
            .waitTableEnter (s.pcNext 4) src) ∧
        (t = 0#7 → s.me.posted + 1 ≤ 64 → ∃ u, exec (.wakev t a b) s = .next u ∧
          Posts s u 1 (fun m => m.kind = .wakev ea.toNat (s.g b.toNat) ∧ m.dest = .none) .waitTableWake (s.pcNext 4) src) ∧
        (t ≠ 0#7 → ∃ u, exec (.wakev t a b) s = .next u ∧ Asks s u .none [t.toNat] []
          (fun m => m.kind = .wakev ea.toNat (s.g b.toNat) ∧ m.dest = .g t.toNat 8 false) .waitTableWake (s.pcNext 4) src)))

/-! ## Vector instructions -/

/-- The elements of a result: r j where the mask bit of element j is set, else the element that stood there (R190). -/
def Lanes (s : State) (m : MIdx) (n w sh old new : Nat) (r : Nat → Nat → Prop) : Prop :=
  ∀ j, j < n → if (s.m m).getLsbD (j / 2 ^ sh) then r j (elemOf w new j) else elemOf w new j = elemOf w old j

/-- The 32-bit lanes that the elements of width w under a mask lie in: those written, whose poison goes (R190, R373). -/
def Covers (m : Half) (w sh : Nat) (l : BitVec 32) : Prop := ∀ j, j < 32 → l.getLsbD j = m.getLsbD (32 * j / w / 2 ^ sh)

/-- A vector instruction of 8 cycles or less, of no flags, completes with the elements r in v[d]. -/
def VecRuns (s : State) (i : Instr) (m : MIdx) (pair : Bool) (n w sh d : Nat) (vsrc : List Nat) (r : Nat → Nat → Prop) : Prop :=
  s.canIssueV vsrc (vregs pair d) = true →
    ∃ t x l, exec i s = .next t ∧ VecAs s t s.me pair d x (s.pcNext 4) [] l ∧ Covers (s.m m) w sh l ∧
      Lanes s m n w sh (s.vnum pair d) x r

/-- R193, R194: the integer lane instructions complete: each active element takes its table row's value of the elements of v[va] and
v[vb], the others keep theirs. -/
def VectorIntegerRule : Prop :=
  ∀ (s : State) (d a b : VIdx) (m : MIdx) (t : Elem),
    let p := elemPair t
    let w := elemWidth t
    let sh := match t with | .h => 1 | .b => 2 | _ => 0
    let x (j : Nat) : Nat := elemOf w (s.vnum p a.toNat) j
    let y (j : Nat) : Nat := elemOf w (s.vnum p b.toNat) j
    let sx (j : Nat) : Int := sintOf w (x j)
    let sy (j : Nat) : Int := sintOf w (y j)
    let wrap (v : Int) : Nat := (v % 2 ^ w).toNat
    let one (i : Instr) (r : Nat → Nat → Prop) : Prop :=
      VecRuns s i m p (elemCount t) w sh d.toNat (vregs p a.toNat) r
    let two (i : Instr) (f : Nat → Nat) : Prop :=
      VecRuns s i m p (elemCount t) w sh d.toNat (vregs p a.toNat ++ vregs p b.toNat) (fun j e => e = f j)
    two (.vadd d a b m t) (fun j => wrap (x j + y j)) ∧ two (.vsub d a b m t) (fun j => wrap (x j - y j)) ∧
    two (.vmul d a b m t) (fun j => wrap (x j * y j)) ∧ two (.vmulh d a b m t) (fun j => wrap (sx j * sy j / 2 ^ w)) ∧
    two (.vmin d a b m t) (fun j => if sx j ≤ sy j then x j else y j) ∧
    two (.vmax d a b m t) (fun j => if sx j ≤ sy j then y j else x j) ∧
    two (.vminn d a b m t) (fun j => min (x j) (y j)) ∧ two (.vmaxn d a b m t) (fun j => max (x j) (y j)) ∧
    two (.vand d a b m t) (fun j => x j &&& y j) ∧ two (.vor d a b m t) (fun j => x j ||| y j) ∧
    two (.vxor d a b m t) (fun j => x j ^^^ y j) ∧ two (.vandn d a b m t) (fun j => x j &&& (2 ^ w - 1 - y j)) ∧
    two (.vshl d a b m t) (fun j => wrap (x j * 2 ^ (y j % w))) ∧ two (.vshr d a b m t) (fun j => x j / 2 ^ (y j % w)) ∧
    two (.vsha d a b m t) (fun j => wrap (sx j / 2 ^ (y j % w))) ∧
    one (.vabs d a m t) (fun j e => e = wrap (if sx j < 0 then -sx j else sx j)) ∧
    one (.vneg d a m t) (fun j e => e = wrap (-sx j)) ∧
    one (.vclz d a m t) (fun j e => e ≤ w ∧ x j < 2 ^ (w - e) ∧ (e < w → 2 ^ (w - e - 1) ≤ x j)) ∧
    one (.vffs d a m t) (fun j e =>
      if x j = 0 then e = w else e < w ∧ (x j).testBit e = true ∧ ∀ k, k < e → (x j).testBit k = false) ∧
    one (.vpopc d a m t) (fun j e => e = ((List.range w).filter (fun k => (x j).testBit k)).length)

/-- A floating-point vector instruction of c cycles, at most 8: r j is the result and the flags of active element j. With no enabled
exception among the flags it completes and ORs them into FPFLAGS; with one it traps FPX precisely, naming the lanes that raised one,
and writes nothing (R135, R136, R192, R328). -/
def VecFloat (s : State) (i : Instr) (m : MIdx) (pair hold : Bool) (n w sh d : Nat) (vsrc : List Nat) (r : Nat → Nat × Flags)
    (c : Nat := 6) : Prop :=
  let active := (List.range n).filter (fun j => (s.m m).getLsbD (j / 2 ^ sh))
  let fl := active.foldl (fun f j => f ||| (r j).2) 0#5
  let en := enabledFlags s.me.ctl.fpctl fl
  s.canIssueV vsrc (vregs pair d) = true →
  (en = 0#5 → ∃ t x l, exec i s = .next t ∧ VecAs s t (s.me.raisedBy fl (s.cycleNow + c)) pair d x (s.pcNext 4) [] l ∧
    Covers (s.m m) w sh l ∧ Lanes s m n w sh (s.vnum pair d) x (fun j e => e = (r j).1 % 2 ^ w)) ∧
  (en ≠ 0#5 → ∃ lanes : Half,
    (∀ l, l < 16 → (lanes.getLsbD l = true ↔ ∃ j, j ∈ active ∧ j / 2 ^ sh = l ∧ enabledFlags s.me.ctl.fpctl (r j).2 ≠ 0#5)) ∧
    exec i s = .next ((s.holdUnit hold).trap causeFPX 0#64 (fpxInfo en lanes)))

/-- R192, R195, R196, R131: the floating-point lane instructions of 8 cycles or less in both formats; binary32 lanes obey the flush
bits, but that a minimum or maximum delivers its operand as it is (R147); a binary64 instruction holds the vector unit a second cycle (R191). -/
def Obligations.VectorFloat : Prop :=
  ∀ (s : State) (d a b : VIdx) (m : MIdx) (t : ElemWD),
    let p := elemPair (wd t)
    let w := elemWidth (wd t)
    let f := fmtOf t
    let r := modeOf s.me.ctl.fpctl
    let el (v : VIdx) (j : Nat) : Nat := s.ftzi t (elemOf w (s.vnum p v.toNat) j)
    let run (i : Instr) (src : List Nat) (g : Nat → Nat × Flags) : Prop := VecFloat s i m p p 16 w 0 d.toNat src g
    let two (i : Instr) (g : Nat → Nat → Nat × Flags) : Prop :=
      run i (vregs p a.toNat ++ vregs p b.toNat) (fun j => s.ftzo t (g (el a j) (el b j)))
    let pick (i : Instr) (g : Nat → Nat → Nat × Flags) : Prop :=
      run i (vregs p a.toNat ++ vregs p b.toNat) (fun j => g (el a j) (el b j))
    let one (i : Instr) (g : Nat → Nat × Flags) : Prop := run i (vregs p a.toNat) (fun j => g (el a j))
    let fused (i : Instr) (negP negC : Bool) : Prop :=
      run i (vregs p d.toNat ++ vregs p a.toNat ++ vregs p b.toNat)
        (fun j => s.ftzo t (f.fma r negP negC (el a j) (el b j) (el d j)))
    two (.vfadd d a b m t) (f.add r) ∧ two (.vfsub d a b m t) (f.sub r) ∧ two (.vfmul d a b m t) (f.mul r) ∧
    pick (.vfmin d a b m t) (f.minmax false) ∧ pick (.vfmax d a b m t) (f.minmax true) ∧
    one (.vfabs d a m t) (fun x => (x % f.sign, 0#5)) ∧ one (.vfneg d a m t) (fun x => (x + f.sign, 0#5)) ∧
    fused (.vfma d a b m t) false false ∧ fused (.vfms d a b m t) false true ∧ fused (.vfnma d a b m t) true false

/-- The lanes of a floating-point presence producer (R136, R191): its registers are pending, and a message brings the elements with
their flags or the attributed-imprecise FPX. -/
def VecLong (s : State) (i : Instr) (m : MIdx) (t : ElemWD) (d : Nat) (vsrc : List Nat) (r : Nat → Nat × Flags) : Prop :=
  let p := elemPair (wd t)
  let w := elemWidth (wd t)
  let active := (List.range 16).filter (fun j => (s.m m).getLsbD j)
  let fl := active.foldl (fun f j => f ||| (r j).2) 0#5
  s.canIssueV vsrc (vregs p d) = true → ∃ (u : State) (x : Nat) (lanes : Half) (c : BitVec 32),
    exec i s = .next u ∧ Lanes s m 16 w 0 (s.vnum p d) x (fun j e => e = (r j).1 % 2 ^ w) ∧ Covers (s.m m) w 0 c ∧
    (∀ l, l < 16 → (lanes.getLsbD l = true ↔ l ∈ active ∧ enabledFlags s.me.ctl.fpctl (r l).2 ≠ 0#5)) ∧
    Long s u (if p then [(.v, d, x % 2 ^ 512), (.v, d + 1, x / 2 ^ 512)] else [(.v, d, x)]) fl lanes (s.pcNext 4) [] c

/-- R191, R195, R198: VFDIV, VFSQRT and the special functions are presence producers. The values of the special functions within
their bounds are the GM9's own, which the spec does not give (log entry 14). -/
def Obligations.VectorLong : Prop :=
  ∀ (s : State) (d a b : VIdx) (m : MIdx),
    let r := modeOf s.me.ctl.fpctl
    let sf (i : Instr) (g : SFn) : Prop :=
      VecLong s i m .w d.toNat [a.toNat] (fun j => g.apply (elemOf 32 (s.v a.toNat).toNat j))
    (∀ t : ElemWD,
      let p := elemPair (wd t)
      let el (v : VIdx) (j : Nat) : Nat := s.ftzi t (elemOf (elemWidth (wd t)) (s.vnum p v.toNat) j)
      VecLong s (.vfdiv d a b m t) m t d.toNat (vregs p a.toNat ++ vregs p b.toNat)
        (fun j => s.ftzo t ((fmtOf t).div r (el a j) (el b j))) ∧
      VecLong s (.vfsqrt d a m t) m t d.toNat (vregs p a.toNat) (fun j => s.ftzo t ((fmtOf t).sqrt r (el a j)))) ∧
    sf (.vrcp d a m) .rcp ∧ sf (.vrsq d a m) .rsq ∧ sf (.vexp2 d a m) .exp2 ∧ sf (.vlog2 d a m) .log2 ∧
    sf (.vsin d a m) .sin ∧ sf (.vcos d a m) .cos ∧ sf (.vtanh d a m) .tanh

/-- R197: an integer compare writes mask k with a bit for each active lane that meets it; a floating-point one does the same with
the flags of R181, or traps FPX. m0 discards. -/
def VectorCompareRule : Prop :=
  ∀ (s : State) (k : MIdx) (a b : VIdx) (m : MIdx) (t : ElemWD),
    let p := elemPair (wd t)
    let w := elemWidth (wd t)
    let x (j : Nat) : Nat := elemOf w (s.vnum p a.toNat) j
    let y (j : Nat) : Nat := elemOf w (s.vnum p b.toNat) j
    let active := (List.range 16).filter (fun j => (s.m m).getLsbD j)
    s.canIssueV (vregs p a.toNat ++ vregs p b.toNat) [] = true →
    let writes (i : Instr) (c : Ctx) (f : Nat → Prop) : Prop :=
      ∃ u bits, exec i s = .next u ∧ OnlyMe s u (c.setMask k.toNat bits) (s.pcNext 4) [] ∧
        ∀ j, j < 16 → (bits.getLsbD j = true ↔ j ∈ active ∧ f j)
    let float (i : Instr) (c : FCmp) : Prop :=
      let r (j : Nat) := (fmtOf t).cmp c (s.ftzi t (x j)) (s.ftzi t (y j))
      let fl := active.foldl (fun f j => f ||| (r j).2) 0#5
      let en := enabledFlags s.me.ctl.fpctl fl
      (en = 0#5 → writes i (s.me.raisedBy fl (s.cycleNow + 4)) (fun j => (r j).1 = true)) ∧
      (en ≠ 0#5 → ∃ lanes : Half,
        (∀ l, l < 16 → (lanes.getLsbD l = true ↔ l ∈ active ∧ enabledFlags s.me.ctl.fpctl (r l).2 ≠ 0#5)) ∧
        exec i s = .next (s.trap causeFPX 0#64 (fpxInfo en lanes)))
    writes (.veq k a b m t) s.me (fun j => x j = y j) ∧ writes (.vne k a b m t) s.me (fun j => x j ≠ y j) ∧
    writes (.vlt k a b m t) s.me (fun j => sintOf w (x j) < sintOf w (y j)) ∧
    writes (.vle k a b m t) s.me (fun j => sintOf w (x j) ≤ sintOf w (y j)) ∧
    writes (.vltn k a b m t) s.me (fun j => x j < y j) ∧ writes (.vlen k a b m t) s.me (fun j => x j ≤ y j) ∧
    float (.vfeq k a b m t) .eq ∧ float (.vflt k a b m t) .lt ∧ float (.vfle k a b m t) .le ∧ float (.vfun k a b m t) .un

/-- R190, R372: the operands of an inactive element are not evaluated: poison in an inactive lane of a source of VADD.w is not met, poison
in an active lane traps ECC naming the first such register. -/
def InactiveLaneRule : Prop :=
  ∀ (s : State) (d a b : VIdx) (m : MIdx),
    let k := s.core (coreOf s.cur)
    let there (v : VIdx) : Prop := v.toNat < s.me.sv ∧ (s.vReg s.cur v.toNat).st = .present
    let hit (v : VIdx) : Half := (s.vReg s.cur v.toNat).poison &&& s.m m
    let ecc (v : VIdx) : Prop :=
      exec (.vadd d a b m .w) s = .next (s.trap causeECC 0#64 (BitVec.ofNat 64 (1 + v.toNat * 256 + 65536)))
    let el (v : VIdx) (j : Nat) : Nat := elemOf 32 (s.vnum false v.toNat) j
    there a → there b → s.vdstOk d.toNat = true → k.vbusy ≤ k.cycle →
    (hit a ≠ 0#16 → ecc a) ∧ (hit a = 0#16 → hit b ≠ 0#16 → ecc b) ∧
    (hit a = 0#16 → hit b = 0#16 → ∃ t x l, exec (.vadd d a b m .w) s = .next t ∧
      VecAs s t s.me false d.toNat x (s.pcNext 4) [] l ∧ Covers (s.m m) 32 0 l ∧
      Lanes s m 16 32 0 (s.vnum false d.toNat) x (fun j e => e = (el a j + el b j) % 2 ^ 32))

/-- R190, R193, R194, R197: vector integer instructions, vector compares, and the operands of inactive elements. -/
def Obligations.VectorIntegerAndCompare : Prop := VectorIntegerRule ∧ VectorCompareRule ∧ InactiveLaneRule

/-- R199, R200, R132: the conversions between element types. VCVT.M8D decodes 16 codes of v[va] from byte 16q under the BF16 scale in
ox0; VCVT.M8E encodes 16 lanes into the bytes from 16q of v[vd] and keeps the rest. The BF16 operand of vcvt.b2s and the BF16 result of
vcvt.s2b are not flushed (log entry 53). -/
def Obligations.VectorConvert : Prop :=
  ∀ (s : State) (d a : VIdx) (m : MIdx) (q : BitVec 2),
    let r := modeOf s.me.ctl.fpctl
    let conv (i : Instr) (n sw dw sh : Nat) (f : Nat → Nat × Flags) : Prop :=
      let ap := decide (512 < n * sw)
      VecFloat s i m (decide (512 < n * dw)) false n dw sh d.toNat (vregs ap a.toNat) (fun j => f (elemOf sw (s.vnum ap a.toNat) j))
    conv (.vcvtS2d d a m) 16 32 64 0 (fun x => fmt32.convert fmt64 r (s.ftzi .w x)) ∧
    conv (.vcvtD2s d a m) 16 64 32 0 (fun x => s.ftzo .w (fmt64.convert fmt32 r x)) ∧
    conv (.vcvtS2b d a m) 32 32 16 1 (fun x => fmt32.convert fmt16 r (s.ftzi .w x)) ∧
    conv (.vcvtB2s d a m) 32 16 32 1 (fun x => s.ftzo .w (fmt16.convert fmt32 r x)) ∧
    conv (.vcvtI2s d a m) 16 32 32 0 (fun x => fmt32.ofInt r (sintOf 32 x)) ∧
    conv (.vcvtN2s d a m) 16 32 32 0 (fun x => fmt32.ofInt r x) ∧
    conv (.vcvtS2i d a m) 16 32 32 0 (fun x => int32 (fmt32.toInt r (-(2 ^ 31)) (2 ^ 31 - 1) (s.ftzi .w x))) ∧
    conv (.vcvtS2n d a m) 16 32 32 0 (fun x => int32 (fmt32.toInt r 0 (2 ^ 32 - 1) (s.ftzi .w x))) ∧
    (let sc := fmt16.decode ((s.me.oxr 0).toNat % 65536)
     VecFloat s (.vcvtM8d d a q m) m false false 16 32 0 d.toNat [a.toNat]
       (fun j => s.ftzo .w (fmt32.fin2 r (m8Scaled (elemOf 8 (s.v a.toNat).toNat (16 * q.toNat + j)) sc))) ∧
     (let g (j : Nat) := m8eLane (fmt32.decode (s.ftzi .w (elemOf 32 (s.v a.toNat).toNat j))) sc
      let fl := ((List.range 16).filter (fun j => (s.m m).getLsbD j)).foldl (fun f j => f ||| (g j).2) 0#5
      s.canIssueV [a.toNat, d.toNat] [d.toNat] = true → enabledFlags s.me.ctl.fpctl fl = 0#5 →
      ∃ t x l, exec (.vcvtM8e d a q m) s = .next t ∧ VecAs s t (s.me.raisedBy fl (s.cycleNow + 6)) false d.toNat x (s.pcNext 4) [] l ∧
        ∀ j, j < 64 → elemOf 8 x j =
          if j / 16 = q.toNat ∧ (s.m m).getLsbD (j % 16) = true then (g (j % 16)).1 % 256 else elemOf 8 (s.v d.toNat).toNat j))

/-- R201, R202, R145, R146: lane movement, and the reductions and the scan over the tree the spec fixes, with their flags; an enabled
exception traps FPX, a reduction's naming lane 0, the scan's the lanes whose flags raised it. The source lanes alone are flushed as
inputs, and the result of each rounding operation as an output (log entry 53). -/
def Obligations.LanesReduceScan : Prop :=
  ∀ (s : State) (d a b : VIdx) (m : MIdx) (k : BitVec 4) (t : ElemWD),
    let p := elemPair (wd t)
    let w := elemWidth (wd t)
    let x (j : Nat) : Nat := elemOf w (s.vnum p a.toNat) j
    let x32 (j : Nat) : Nat := elemOf 32 (s.v a.toNat).toNat j
    let r := modeOf s.me.ctl.fpctl
    let f := fmtOf t
    let enter (ident : Nat) : List (Nat × Flags) :=
      (List.range 16).map (fun j => (if (s.m m).getLsbD j then s.ftzi t (x j) else ident, 0#5))
    let step (g : Nat → Nat → Nat × Flags) (u v : Nat × Flags) : Nat × Flags := ((g u.1 v.1).1, u.2 ||| v.2 ||| (g u.1 v.1).2)
    let lands (i : Instr) (rs : List (Nat × Flags)) : Prop :=
      let fl := rs.foldl (fun f e => f ||| e.2) 0#5
      let en := enabledFlags s.me.ctl.fpctl fl
      s.canIssueV (vregs p a.toNat) (vregs p d.toNat) = true →
      (en = 0#5 → ∃ u n, exec i s = .next u ∧ VecAs s u (s.me.raisedBy fl (s.cycleNow + 8)) p d.toNat n (s.pcNext 4) [] ∧
        ∀ j, j < 16 → elemOf w n j = (rs.getD j (0, 0#5)).1 % 2 ^ w) ∧
      (en ≠ 0#5 → ∃ lanes : Half, exec i s = .next (s.trap causeFPX 0#64 (fpxInfo en lanes)) ∧
        ∀ l, l < 16 → (lanes.getLsbD l = true ↔ enabledFlags s.me.ctl.fpctl (rs.getD l (0, 0#5)).2 ≠ 0#5))
    let reduces (i : Instr) (ident : Nat) (g : Nat → Nat → Nat × Flags) : Prop :=
      lands i [reduceTree (step g) (0, 0#5) (enter ident)]
    (s.canIssueV (vregs p a.toNat ++ vregs p b.toNat) (vregs p d.toNat) = true →
      ∃ u n, exec (.vsel d a b m t) s = .next u ∧ VecAs s u s.me p d.toNat n (s.pcNext 4) [] ∧
        ∀ j, j < 16 → elemOf w n j = if (s.m m).getLsbD j then x j else elemOf w (s.vnum p b.toNat) j) ∧
    VecRuns s (.vperm d a b m) m false 16 32 0 d.toNat [a.toNat, b.toNat]
      (fun j e => e = x32 (elemOf 32 (s.v b.toNat).toNat j % 16)) ∧
    VecRuns s (.vrotl d a k m) m false 16 32 0 d.toNat [a.toNat] (fun j e => e = x32 ((j + 16 - k.toNat) % 16)) ∧
    (s.canIssueV (vregs p a.toNat) (vregs p d.toNat) = true →
      ∃ u n, exec (.vcompress d a m t) s = .next u ∧ VecAs s u s.me p d.toNat n (s.pcNext 4) [] ∧
        ∀ j, j < 16 → elemOf w n j =
          ((((List.range 16).filter (fun l => (s.m m).getLsbD l)).map x).getD j 0)) ∧
    reduces (.vredadd d a m t) f.sign (fun u v => s.ftzo t (f.add r u v)) ∧ reduces (.vredmin d a m t) f.inf (f.minmax false) ∧
    reduces (.vredmax d a m t) (f.sign + f.inf) (f.minmax true) ∧
    lands (.vscanadd d a m t) (scanTree (fun u v => ((s.ftzo t (f.add r u.1 v.1)).1, v.2 ||| (s.ftzo t (f.add r u.1 v.1)).2))
      (0, 0#5) (enter f.sign))

/-- R203: the wide-integer instructions on 512 bits, or 1,024 with ty = d: VWADD and VWSUB take a carry or borrow from m[k] bit 0
and leave one there; VWMUL multiplies by lane 0 of v[vb]; the shifts take their amount from bits [10:0] of v[vb]; VWCMP writes signed less, equal and unsigned less, and with m0 is ILL reason 4. -/
def WideIntegersRule : Prop :=
  ∀ (s : State) (d a b : VIdx) (k : MIdx) (t : ElemWD),
    let p := elemPair (wd t)
    let n := match t with | .w => 512 | .d => 1024
    let x := s.vnum p a.toNat
    let y := s.vnum p b.toNat
    let c := if k ≠ 0#3 ∧ (s.m k).getLsbD 0 = true then 1 else 0
    let src := vregs p a.toNat ++ vregs p b.toNat
    let one := (s.v b.toNat).toNat
    let sums (i : Instr) (v : Int) : Prop := s.canIssueV src (vregs p d.toNat) = true →
      ∃ u, exec i s = .next u ∧
        VecAs s u (s.me.setMask k.toNat (if v < 0 ∨ 2 ^ n ≤ v then 1#16 else 0#16)) p d.toNat (v % 2 ^ n).toNat (s.pcNext 4) []
    let shifts (i : Instr) (v : Nat) : Prop := s.canIssueV src (vregs p d.toNat) = true →
      ∃ u, exec i s = .next u ∧ VecAs s u s.me p d.toNat (if n ≤ y % 2048 then 0 else v % 2 ^ n) (s.pcNext 4) []
    sums (.vwadd d a b k t) ((x : Int) + y + c) ∧ sums (.vwsub d a b k t) ((x : Int) - y - c) ∧
    (s.canIssueV [a.toNat, b.toNat] [d.toNat, d.toNat + 1] = true →
      ∃ u, exec (.vwmul d a b) s = .next u ∧
        VecAs s u s.me true d.toNat ((s.v a.toNat).toNat * (one % 2 ^ 32)) (s.pcNext 4) []) ∧
    shifts (.vwshl d a b t) (x * 2 ^ (y % 2048)) ∧ shifts (.vwshr d a b t) (x / 2 ^ (y % 2048)) ∧
    (k = 0#3 → exec (.vwcmp a b k t) s = .next (s.trapIll 4)) ∧
    (k ≠ 0#3 → s.canIssueV src [] = true → ∃ u bits, exec (.vwcmp a b k t) s = .next u ∧
      OnlyMe s u (s.me.setMask k.toNat bits) (s.pcNext 4) [] ∧
      (bits.getLsbD 0 = true ↔ sintOf n x < sintOf n y) ∧ (bits.getLsbD 1 = true ↔ x = y) ∧ (bits.getLsbD 2 = true ↔ x < y) ∧
      ∀ j, 3 ≤ j → bits.getLsbD j = false)

/-- R142 to R144, R204: the exact accumulator in a pair: VXCLR, VXADD and VXFMA add the active lanes' values, VXRND rounds its value
once, VXSTAT reads its flags, sign and zero. -/
def ExactAccumulatorsRule : Prop :=
  ∀ (s : State) (d a b : VIdx) (e : G5Idx) (m : MIdx),
    let r := modeOf s.me.ctl.fpctl
    let acc (v : VIdx) : Nat := s.vnum true v.toNat
    let lanes (f : Nat → FVal × Flags) : Nat × List Flags :=
      ((List.range 16).filter (fun j => (s.m m).getLsbD j)).foldl
        (fun z j => ((xaccAdd z.1 (f j).1 ((f j).2 != 0#5)).1, z.2 ++ [(xaccAdd z.1 (f j).1 ((f j).2 != 0#5)).2])) (0, [])
    let adds (i : Instr) (src : List Nat) (f : Nat → FVal × Flags) : Prop :=
      let fl := (lanes f).2.foldl (fun g h => g ||| h) 0#5
      s.canIssueV ([d.toNat, d.toNat + 1] ++ src) [d.toNat, d.toNat + 1] = true → enabledFlags s.me.ctl.fpctl fl = 0#5 →
      ∃ u, exec i s = .next u ∧
        VecAs s u (s.me.raisedBy fl (s.cycleNow + 8)) true d.toNat (xaccSum (acc d) (lanes f).1) (s.pcNext 4) []
    let rounds (i : Instr) (g : Fmt) : Prop :=
      let z := xaccRound g r (acc a)
      s.canIssueV [a.toNat, a.toNat + 1] [d.toNat] = true → enabledFlags s.me.ctl.fpctl z.2 = 0#5 →
      ∃ u, exec i s = .next u ∧ VecAs s u (s.me.raisedBy z.2 (s.cycleNow + 8)) false d.toNat z.1 (s.pcNext 4) []
    (s.canIssueV [] [d.toNat, d.toNat + 1] = true →
      ∃ u, exec (.vxclr d) s = .next u ∧ VecAs s u s.me true d.toNat 0 (s.pcNext 4) []) ∧
    adds (.vxadd d a m) [a.toNat] (fun j => (fmt32.decode (elemOf 32 (s.v a.toNat).toNat j), 0#5)) ∧
    adds (.vxfma d a b m) [a.toNat, b.toNat] (fun j =>
      FVal.mul (fmt32.decode (elemOf 32 (s.v a.toNat).toNat j)) (fmt32.decode (elemOf 32 (s.v b.toNat).toNat j))) ∧
    rounds (.vxrndS d a) fmt32 ∧ rounds (.vxrndD d a) fmt64 ∧
    (s.canIssue [] [e.toNat] = true → s.canIssueV [a.toNat, a.toNat + 1] [] = true →
      ∃ u v, exec (.vxstat e a) s = .next u ∧ Alu s u e.toNat v (s.pcNext 4) [] ∧
        (∀ j, j < 4 → v.getLsbD j = (acc a).testBit (1008 + j)) ∧ v.getLsbD 4 = (acc a).testBit 1007 ∧
        (v.getLsbD 5 = true ↔ acc a % 2 ^ 1008 = 0) ∧ ∀ j, 6 ≤ j → v.getLsbD j = false)

/-- R142 to R144, R203, R204: wide integers in vector registers, and the exact accumulator. -/
def Obligations.WideAndExact : Prop := WideIntegersRule ∧ ExactAccumulatorsRule


/-- R205 to R207, R21, R354: vector loads and stores of the active lanes. With no active lane they complete and touch nothing. VLD in
the own local store completes at once; else it is the one outstanding load, as VGATHER always is; VST and VSCATTER are posted, a
store for each active lane. A VLD or VST address that is not a multiple of 64 traps ALIGN; so does a gather or scatter with a misaligned
active element, TRAPADDR the address of the lowest, and one of doublewords in
the interleaved form, with no active lane too. -/
def Obligations.VectorMemory : Prop :=
  ∀ (s : State) (v a b : VIdx) (g : GIdx) (m : MIdx) (am : AMode) (o : BitVec 7) (t : ElemWD),
    let p := elemPair (wd t)
    let e := elemWidth (wd t) / 8
    let mask := s.m m
    let lanes := (List.range 16).filter (fun j => mask.getLsbD j)
    let ea := s.g g.toNat + BitVec.ofInt 64 (o.toInt * 64)
    let row (data : Nat → List Byte) : List El :=
      lanes.map (fun j => { ea := ea + BitVec.ofNat 64 (4 * j), size := 4, data := data j, elem := j })
    let spread (data : Nat → List Byte) : List El :=
      lanes.map (fun j => { ea := s.gatherEa a e j, size := e, data := data j, elem := j })
    let ready (acc : Acc) (am : AMode) (es : List El) (ps : List Part) : Prop :=
      s.watchBefore (seenOf s.cur acc am es) = none ∧ s.resolveAll acc am es = .ok ps
    let loads (i : Instr) (gsrc vdst : List Nat) (d n : Nat) (ps : List Part) : Prop :=
      ∃ u, exec i s = .next u ∧ Asks s u .load [] vdst (fun msg => msg.kind = .load ∧ msg.parts = ps ∧ msg.dest = .v d n mask)
        .memoryRequestAtHome (s.pcNext 4) gsrc
    let stores (i : Instr) (gsrc : List Nat) (ps : List Part) : Prop :=
      ∃ u, exec i s = .next u ∧ Posts s u ps.length (fun msg => msg.kind = .store ∧ msg.parts = ps) .memoryRequestAtHome
        (s.pcNext 4) gsrc
    let idx := amodeOf (s.me.oxr 1)
    let wrong (i : Instr) : Prop :=
      (∀ j, lanes.find? (fun l => misaligned idx e (s.gatherEa a e l)) = some j →
        exec i s = .next (s.trap causeALIGN (s.gatherEa a e j) (BitVec.ofNat 64 (Nat.log2 e)))) ∧
      (lanes = [] → idx = .gi → e = 8 → ∃ x, exec i s = .next (s.trap causeALIGN x 3#64))
    (s.canIssue [g.toNat] [] = true → s.canIssueV [] [v.toNat] = true →
      (ea.toNat % 64 ≠ 0 → exec (.vld v g m am o) s = .next (s.trap causeALIGN ea 6#64)) ∧
      (ea.toNat % 64 = 0 → lanes = [] → Transfers s (.vld v g m am o) (s.pcNext 4) [g.toNat]) ∧
      (ea.toNat % 64 = 0 → lanes ≠ [] → am ≠ .ls → ∀ ps, ready .load am (row (fun _ => [])) ps →
        loads (.vld v g m am o) [g.toNat] [v.toNat] v.toNat 4 ps) ∧
      (ea.toNat % 64 = 0 → lanes ≠ [] → am = .ls → ea.toNat < 2 ^ 18 →
        s.watchBefore (seenOf s.cur .load .ls (row (fun _ => []))) = none →
        let k (j : Nat) : Nat := lsKey (coreOf s.cur) (ea.toNat + 4 * j)
        (∀ j ∈ lanes, s.poisoned (k j) 4 = false) →
        ∃ u w x l, exec (.vld v g m am o) s = .next u ∧ IssuedAs s u { s.me with watchPend := w } (s.pcNext 4) [g.toNat] ∧
          SetV s u v.toNat x l ∧ (∀ j, j < 16 → l.getLsbD j = mask.getLsbD j) ∧ SameG s u ∧ Quiet s u ∧ DiesButClock s u ∧
          ∀ j, j < 16 → elemOf 32 x j = if mask.getLsbD j then leNat (s.readThrough (coreOf s.cur) (k j) 4)
            else elemOf 32 (s.v v.toNat).toNat j)) ∧
    (s.canIssue [g.toNat] [] = true → s.canIssueV [v.toNat] [] = true →
      (ea.toNat % 64 ≠ 0 → exec (.vst v g m am o) s = .next (s.trap causeALIGN ea 6#64)) ∧
      (ea.toNat % 64 = 0 → lanes = [] → Transfers s (.vst v g m am o) (s.pcNext 4) [g.toNat]) ∧
      (ea.toNat % 64 = 0 → lanes ≠ [] → s.me.posted + lanes.length ≤ 64 →
        ∀ ps, ready .store am (row (fun j => leBytes 4 (elemOf 32 (s.v v.toNat).toNat j))) ps →
        stores (.vst v g m am o) [g.toNat] ps)) ∧
    (s.canIssueV [a.toNat] (vregs p v.toNat) = true →
      wrong (.vgather v a m t) ∧ (lanes = [] → idx ≠ .gi ∨ e ≠ 8 → Transfers s (.vgather v a m t) (s.pcNext 4) []) ∧
      (lanes ≠ [] → (∀ j ∈ lanes, misaligned idx e (s.gatherEa a e j) = false) →
        ∀ ps, ready .load idx (spread (fun _ => [])) ps → loads (.vgather v a m t) [] (vregs p v.toNat) v.toNat e ps)) ∧
    (s.canIssueV (a.toNat :: vregs p b.toNat) [] = true →
      wrong (.vscatter a b m t) ∧ (lanes = [] → idx ≠ .gi ∨ e ≠ 8 → Transfers s (.vscatter a b m t) (s.pcNext 4) []) ∧
      (lanes ≠ [] → (∀ j ∈ lanes, misaligned idx e (s.gatherEa a e j) = false) → s.me.posted + lanes.length ≤ 64 →
        ∀ ps, ready .store idx (spread (fun j => leBytes e (elemOf (8 * e) (s.vnum p b.toNat) j))) ps →
        stores (.vscatter a b m t) [] ps))

/-- R208, R209: mask operations, moves between masks and general registers, and moves of elements between general and vector
registers. -/
def Obligations.MasksAndMoves : Prop :=
  ∀ (s : State) (k i j : MIdx) (d a : G5Idx) (v : VIdx) (n : BitVec 4),
    let ready (gsrc gdst vsrc vdst : List Nat) : Prop := s.canIssue gsrc gdst = true ∧ s.canIssueV vsrc vdst = true
    let mask (x : Instr) (bits : Half) : Prop :=
      ready [] [] [] [] → ∃ u, exec x s = .next u ∧ OnlyMe s u (s.me.setMask k.toNat bits) (s.pcNext 4) []
    let gets (x : Instr) (w : Word) : Prop :=
      ready [] [d.toNat] [] [] → ∃ u, exec x s = .next u ∧ Alu s u d.toNat w (s.pcNext 4) []
    let bit (l : Nat) : Bool := (s.m i).getLsbD l
    mask (.mand k i j) (s.m i &&& s.m j) ∧ mask (.mor k i j) (s.m i ||| s.m j) ∧ mask (.mxor k i j) (s.m i ^^^ s.m j) ∧
    mask (.mnot k i) (~~~(s.m i)) ∧
    gets (.mpopc d i) (BitVec.ofNat 64 ((List.range 16).filter bit).length) ∧
    gets (.mffs d i) (BitVec.ofNat 64 (((List.range 16).find? bit).getD 16)) ∧
    gets (.mget d i) ((s.m i).setWidth 64) ∧
    (ready [a.toNat] [] [] [] → ∃ u, exec (.mset k a) s = .next u ∧
      OnlyMe s u (s.me.setMask k.toNat ((s.g a.toNat).setWidth 16)) (s.pcNext 4) [a.toNat]) ∧
    (∀ t : Elem,
      let p := elemPair t
      let w := elemWidth t
      let sh := match t with | .h => 1 | .b => 2 | _ => 0
      ready [a.toNat] [] [] (vregs p v.toNat) → ∃ u x l, exec (.vfromg v a i t) s = .next u ∧
        VecAs s u s.me p v.toNat x (s.pcNext 4) [a.toNat] l ∧ Covers (s.m i) w sh l ∧
        Lanes s i (elemCount t) w sh (s.vnum p v.toNat) x (fun _ e => e = (s.g a.toNat).toNat % 2 ^ w)) ∧
    (∀ t : ElemWD,
      let p := elemPair (wd t)
      let w := elemWidth (wd t)
      (ready [] [d.toNat] (vregs p v.toNat) [] → ∃ u, exec (.vtog d v n t) s = .next u ∧
        Alu s u d.toNat (BitVec.ofNat 64 (elemOf w (s.vnum p v.toNat) n.toNat)) (s.pcNext 4) []) ∧
      (ready [a.toNat] [] [] (vregs p v.toNat) → ∃ u x c, exec (.vlanew v a n t) s = .next u ∧
        VecAs s u s.me p v.toNat x (s.pcNext 4) [a.toNat] c ∧ (∀ l, l < 32 → (c.getLsbD l = true ↔ 32 * l / w = n.toNat)) ∧
        ∀ l, l < 16 → elemOf w x l =
          if l = n.toNat then (s.g a.toNat).toNat % 2 ^ w else elemOf w (s.vnum p v.toNat) l))

/-- R210, R150, R293: VMORTON and VHILBERT write the key of each active lane's point in the box of ox0 to ox2; their third coordinate
register outside the window traps REGLIM. R211: OXSET, OXGET, OXLD and OXST move operand-extension registers; more than they hold is
ILL reason 9. The REGLIM of the third coordinate register names va, the index its field holds (log entry 64). -/
def Obligations.CurvesAndExtension : Prop :=
  (∀ (s : State) (d a : VIdx) (m : MIdx),
    let co (j l : Nat) : FVal := fmt32.decode (elemOf 32 (s.v (a.toNat + j)).toNat l)
    let box (j : Nat) : FVal := fmt32.decode ((s.me.oxr j).toNat % 2 ^ 32)
    let top (j : Nat) : FVal := fmt32.decode ((s.me.oxr j).toNat / 2 ^ 32)
    let keys (i : Instr) (hilbert : Bool) : Prop :=
      (d.toNat < s.me.sv → a.toNat < s.me.sv → s.me.sv ≤ a.toNat + 2 →
        exec i s = .next (s.trap causeREGLIM 0#64 (BitVec.ofNat 64 (a.toNat + 256 + 15 * 1024)))) ∧
      VecRuns s i m true 16 64 0 d.toNat [a.toNat, a.toNat + 1, a.toNat + 2]
        (fun l e => e = curveKey hilbert (co 0 l, co 1 l, co 2 l) (box 0, box 1, box 2) (top 0, top 1, top 2) % 2 ^ 64)
    keys (.vmorton d a m) false ∧ keys (.vhilbert d a m) true) ∧
  (∀ (s : State) (j : OxIdx) (d a : GIdx) (n : BitVec 3),
    let many := j.toNat + n.toNat + 1
    let ea := s.g a.toNat
    let els (data : Nat → List Byte) : List El :=
      (List.range (n.toNat + 1)).map (fun l => { ea := ea + BitVec.ofNat 64 (8 * l), size := 8, data := data l, elem := l })
    let out := els (fun l => leBytes 8 (s.me.oxr (j.toNat + l)).toNat)
    (s.canIssue [a.toNat] [] = true → ∃ u, exec (.oxset j a) s = .next u ∧
      OnlyMe s u (s.me.setOx j.toNat ea) (s.pcNext 4) [a.toNat]) ∧
    (s.canIssue [] [d.toNat] = true → ∃ u, exec (.oxget d j) s = .next u ∧
      Alu s u d.toNat (s.me.oxr j.toNat) (s.pcNext 4) []) ∧
    (8 < many → exec (.oxld j a n) s = .next (s.trapIll 9) ∧ exec (.oxst j a n) s = .next (s.trapIll 9)) ∧
    (many ≤ 8 → s.canIssue [a.toNat] [] = true → ea.toNat % 8 ≠ 0 →
      exec (.oxld j a n) s = .next (s.trap causeALIGN ea 3#64) ∧ exec (.oxst j a n) s = .next (s.trap causeALIGN ea 3#64)) ∧
    (many ≤ 8 → s.canIssue [a.toNat] [] = true → ea.toNat % 8 = 0 →
      (∀ ps, s.watchBefore (seenOf s.cur .load .generic (els (fun _ => []))) = none →
        s.resolveAll .load .generic (els (fun _ => [])) = .ok ps →
        ∃ u, exec (.oxld j a n) s = .next u ∧ Asks s u .load [] []
          (fun m => m.kind = .load ∧ m.parts = ps ∧ m.dest = .ox j.toNat (n.toNat + 1)) .memoryRequestAtHome (s.pcNext 4) [a.toNat]) ∧
      (∀ ps, s.watchBefore (seenOf s.cur .store .generic out) = none →
        s.resolveAll .store .generic out = .ok ps → s.me.posted + (n.toNat + 1) ≤ 64 →
        ∃ u, exec (.oxst j a n) s = .next u ∧ Posts s u (n.toNat + 1) (fun m => m.kind = .store ∧ m.parts = ps)
          .memoryRequestAtHome (s.pcNext 4) [a.toNat])))

/-! ## Queue instructions at their issue -/

/-- R56, R64, R244, R248: QPUSH, QPUSHV, QMARK and QEND send their entry to the queue's home once the queue is resident and its flow
window has room. A bad handle traps PROT reason 12, an entry of another type reason 11, QEND of a program that is no listed producer reason 32. -/
def Obligations.QueueSends : Prop :=
  ∀ (s : State) (c : BitVec 2) (md : BitVec 1) (k : MIdx) (a b : GIdx) (v : VIdx),
    let h := s.g a.toNat
    let q := s.me.qkey (h.toNat % 65536)
    let x := s.queue q
    let good : Prop := h.toNat < 65536 ∧ s.badHandle (h.toNat % 65536) q = false
    let bad (i : Instr) : Prop := ¬good → exec i s = .next (s.trapProt (h &&& 0xFFFF#64) 12)
    let wrong (i : Instr) (r : Nat) : Prop := exec i s = .next (s.trapProt (BitVec.ofNat 64 (q % 65536)) r)
    let sends (i : Instr) (src : List Nat) (e : QEntry) : Prop :=
      x.resident = true → s.flowFull s.cur q = false → ∃ t, exec i s = .next t ∧ Issued s t (s.pcNext 4) src ∧ SameG s t ∧ SameV s t ∧
        SameDies s t ∧ Sends s t (fun m => m.kind = .push q { e with prog := s.me.program }) .queuePushAtHome
    (s.canIssue [a.toNat, b.toNat] [] = true →
      bad (.qpush c a b) ∧ bad (.qmark md a b) ∧
      (good → x.etype ≠ 0#2 → wrong (.qpush c a b) 11) ∧ (good → x.etype = 3#2 → wrong (.qmark md a b) 11) ∧
      (good → x.etype = 0#2 → sends (.qpush c a b) [a.toNat, b.toNat] { cls := c, payload := (s.g b.toNat).setWidth 512 }) ∧
      (good → x.etype ≠ 3#2 → sends (.qmark md a b) [a.toNat, b.toNat]
        { kind := .mark ((s.g b.toNat).setWidth 32) (md == 1#1) })) ∧
    (s.canIssue [a.toNat] [] = true → v.toNat < s.me.sv → s.vsrcOk v.toNat = true →
      bad (.qpushv k c a v) ∧ (good → x.etype = 0#2 ∨ x.etype = 3#2 → wrong (.qpushv k c a v) 11) ∧
      (good → x.etype = 1#2 → sends (.qpushv k c a v) [a.toNat] { cls := c, payload := s.v v.toNat, valid := s.me.mask k.toNat }) ∧
      (good → x.etype = 2#2 → sends (.qpushv k c a v) [a.toNat] { cls := c, payload := s.v v.toNat, valid := 0xFFFF#16 })) ∧
    (s.canIssue [a.toNat] [] = true →
      bad (.qend a) ∧ (good → x.etype = 3#2 → wrong (.qend a) 11) ∧
      (good → x.etype ≠ 3#2 → s.me.program.setWidth 16 ∉ x.producers → wrong (.qend a) 32) ∧
      (good → x.etype ≠ 3#2 → s.me.program.setWidth 16 ∈ x.producers → sends (.qend a) [a.toNat] { kind := .colophon }))

/-- R57, R245, R246, R249: QPOP, QTRY and QPOPV ask the queue's home: without a status register the context waits for the value, with
one both registers are pending and the strand goes on; the status register may not be the destination (ILL reason 4), the program must be a listed
consumer (PROT reason 14). QSTAT asks without waiting; k above 1 is ILL reason 2.
Rests on readings of log entry 22. -/
def Obligations.QueueAsks : Prop :=
  ∀ (s : State) (t a b : GIdx) (v : VIdx) (k : BitVec 7),
    let h := s.g a.toNat
    let q := s.me.qkey (h.toNat % 65536)
    let x := s.queue q
    let good : Prop := h.toNat < 65536 ∧ s.badHandle (h.toNat % 65536) q = false
    let mine : Prop := x.consumedBy s.me.program = true
    let plain : Prop := s.me.mapped b.toNat = none
    let asks (i : Instr) (w : Wait) (gs vs : List Nat) (kind : MsgKind) : Prop :=
      ∃ u, exec i s = .next u ∧ Asks s u w gs vs (fun m => m.kind = kind) .queuePopAtHome (s.pcNext 4) [a.toNat]
    let word (i : Instr) (now : Bool) : Prop :=
      (b ≠ 0#7 → b = t → exec i s = .next (s.trapIll 4)) ∧
      (b = 0#7 ∨ b ≠ t → plain → s.canIssue [a.toNat] [t.toNat, b.toNat] = true → good → x.etype = 0#2 →
        (¬mine → exec i s = .next (s.trapProt (BitVec.ofNat 64 (q % 65536)) 14)) ∧
        (mine → x.resident = true →
          (b = 0#7 → asks i (.pop q) [t.toNat] [] (.pop q now false t.toNat 0)) ∧
          (b ≠ 0#7 → asks i .none [t.toNat, b.toNat] [] (.pop q now false t.toNat b.toNat))))
    word (.qpop t a b) false ∧ word (.qtry t a b) true ∧
    (plain → s.canIssue [a.toNat] [b.toNat] = true → s.vdstOk v.toNat = true → good → x.etype = 1#2 ∨ x.etype = 2#2 → mine →
      x.resident = true →
      (b = 0#7 → asks (.qpopv v a b) (.pop q) [] [v.toNat] (.pop q false true v.toNat 0)) ∧
      (b ≠ 0#7 → asks (.qpopv v a b) .none [b.toNat] [v.toNat] (.pop q false true v.toNat b.toNat))) ∧
    (2 ≤ k.toNat → exec (.qstat t a k) s = .next (s.trapIll 2)) ∧
    (k.toNat < 2 → s.canIssue [a.toNat] [t.toNat] = true → good → asks (.qstat t a k) .none [t.toNat] [] (.qstat q k.toNat))

/-- R69, R70, R247: QMAP binds a slot of the strand to a word queue, QUNMAP frees it: the slot's field of QMAP alone changes, its held value
and its readiness are gone if the field changed, and the queue's home is asked to report. Both wait while the slot's register is not present. -/
def Obligations.QueueMapping : Prop :=
  ∀ (s : State) (n : BitVec 2) (a : GIdx),
    let h := s.g a.toNat
    let q := s.me.qkey (h.toNat % 65536)
    let r := 124 + n.toNat
    let busy : Prop := r < s.me.sg ∧ (s.gReg s.cur r).st ≠ .present
    let sets (i : Instr) (f : Half) (src : List Nat) : Prop :=
      (busy → exec i s = .next (s.waitFor (.slot r))) ∧
      (¬busy → ∃ t, exec i s = .next t ∧ Kept s t ∧ SameG s t ∧ SameV s t ∧ SameDies s t ∧ t.net = s.net ∧
        t.me = { s.me.after (s.pcNext 4) s.cycleNow src with ctl := t.me.ctl, held := t.me.held, slotReady := t.me.slotReady } ∧
        t.me.ctl = { s.me.ctl with qmap := t.me.ctl.qmap } ∧
        (∀ j, j < 4 → slotOf t.me.ctl.qmap j = if j = n.toNat then f else slotOf s.me.ctl.qmap j) ∧
        (slotOf s.me.ctl.qmap n.toNat ≠ f → n.toNat ∉ t.me.held ∧ Map.get t.me.slotReady n.toNat false = false ∧
          (f ≠ 0#16 → .queueStateReport s.cur n ∈ t.agenda)) ∧
        (∀ e, e ∈ t.agenda → e ∈ s.agenda ∨ e = .queueStateReport s.cur n))
    (s.canIssue [] [] = true → sets (.qunmap n) 0#16 []) ∧
    (s.canIssue [a.toNat] [] = true → h.toNat < 65536 → s.badHandle (h.toNat % 65536) q = false →
      ((s.queue q).etype ≠ 0#2 → exec (.qmap n a) s = .next (s.trapProt (BitVec.ofNat 64 (q % 65536)) 11)) ∧
      ((s.queue q).etype = 0#2 → (s.queue q).resident = true → sets (.qmap n a) (h.setWidth 16) [a.toNat]))

/-! ## Traps, work, contexts and control registers -/

/-- The slot of the current instruction has gone to a trap or a hold: nothing outside its context changes, and its context is x but
for the slot itself. -/
structure Enters (s t : State) (x : Ctx) : Prop where
  kept  : Kept s t
  me    : t.me = { x with lastIssue := some s.cycleNow, skipBrk := false, skipWatch := false, refused := none }
  gregs : SameG s t
  vregs : SameV s t
  dies  : SameDies s t
  quiet : Quiet s t

/-- R96, R266, R267, R352: a precise trap writes TRAPCAUSE, TRAPPC, TRAPADDR and TRAPINFO; with a handler address and none running,
TRAPSAVE takes the resume address, the instruction's own for a trap and the next one's for TRAP, with inh set, and the PC takes TRAPVEC; under
STEPCTL the delivery ends the step, STEP to be taken before the handler's first instruction (log entry 76). Otherwise
the context is held with cause 6, and a keeper stops (R357). TRET takes the PC back and clears inh, a step under STEPCTL as any other (R378), and a
precise trap that an attributed-imprecise one came before is pending again; outside a handler it traps PROT reason 25. TRAP, TRET and BRK count in
ISSUED (R262). -/
def Obligations.TrapsAndReturns : Prop :=
  ∀ (s : State) (code : BitVec 9),
    let x := s.me
    let low (w : Word) : Word := w &&& 0xFFFFFFFFFFFF#64
    let rec_ (cause : Byte) (addr info : Word) : TrapRegs :=
      { x.tr with cause := cause.setWidth 64, pc := low x.pc, addr := addr, info := info }
    let into (n : Word) (cause : Byte) (addr info resume : Word) (i : Host.Outcome State Fault Refusal) : Prop :=
      (x.tr.vec ≠ 0#64 → x.tr.inh = false ∨ cause = causeCANCEL → ∃ t, i = .next t ∧
        Enters s t { x with tr := { rec_ cause addr info with save := low resume + 0x1000000000000#64 }, pc := x.tr.vec,
                            wait := .none, precise := none, issued := n,
                            stepPend := if x.dbg.step.getLsbD 0 then some x.pc else x.stepPend }) ∧
      ((x.tr.inh = true ∧ cause ≠ causeCANCEL) ∨ x.tr.vec = 0#64 →
        (isKeeper s.cur = false → ∃ t, i = .next t ∧
          Enters s t { x with tr := rec_ cause addr info, wait := .none, precise := none, hold := .unhandled, issued := n }) ∧
        (isKeeper s.cur = true → ∃ t, i = .next t ∧ (t.core (coreOf s.cur)).stopped = true ∧ t.me.issued = n ∧
          t.outbox = s.outbox ++ [.coreFault (coreOf s.cur) (cause.setWidth 64) (low x.pc) info] ∧ t.me.hold = x.hold))
    (∀ cause addr info, into x.issued cause addr info x.pc (.next (s.trap cause addr info))) ∧
    into (x.issued + 1) causeTRAPI 0#64 (code.setWidth 64) (x.pc + 4#64) (exec (.trap code) s) ∧
    (x.tr.inh = false → exec .tret s = .next (s.trapProt 0#64 25)) ∧
    (x.tr.inh = true → ∃ t, exec .tret s = .next t ∧
      Enters s t { x with tr := { x.tr with save := low x.tr.save }, pc := low x.tr.save, wait := .none, issued := x.issued + 1,
                          later := none, precise := (match x.later with
                            | some w => if w.pc = low x.tr.save then some w else x.precise
                            | none => x.precise),
                          stepPend := if x.dbg.step.getLsbD 0 then some x.pc else x.stepPend }) ∧
    (isKeeper s.cur = true → into (x.issued + 1) causeBRKPT 0#64 (code.setWidth 64) x.pc (exec (.brk code) s)) ∧
    (isKeeper s.cur = false → ∃ t, exec (.brk code) s = .next t ∧
      Enters s t { x with tr := rec_ causeBRKPT 0#64 (code.setWidth 64), hold := .brkpt true, issued := x.issued + 1 })

/-- A strand has left its context: the registers keep their values, arms are cleared, every other context is untouched, and no byte of
memory changes but the log of a trace that records its galley (R384). -/
structure Left (s t : State) (cond : Cond) : Prop where
  cond   : (t.ctx s.cur).cond = cond
  others : ∀ c, c ≠ s.cur → t.ctx c = s.ctx c
  gregs  : ∀ c i, (s.gReg c i).st ≠ .armed → s.me.win = (t.ctx s.cur).win → t.gReg c i = s.gReg c i
  byte   : s.tracing (galOf s.cur) = none → ∀ k, t.byte k = s.byte k

/-- The updates of level records that go to other packages for the traps pending when a strand leaves: none where none is pending (R354, R419). -/
def Counted (x : Ctx) (r : List Msg) : Prop := (x.imps = [] → r = []) ∧ ∀ m ∈ r, ∃ l op, m.kind = .level l op

/-- R35, R41, R251 to R256: SPAWN reads its slug image; SUSPEND of a pooled strand pushes its slug to its strand queue, of a pinned
one stores it, and the context is free; the traps pending for a strand that leaves are counted (log entry 57); DONE retires the strand; YIELD suspends when a waiting slug comes first; CANCEL and LVLWAIT
act on a level of the strand's own job. A strand that holds a reservation may not suspend (PROT reason 5); one with a poisoned register among
g4 to g7, which its slug carries, traps ECC (R372). -/
def Obligations.Work : Prop :=
  ∀ (s : State) (d a : GIdx) (l : BitVec 3),
    let x := s.me
    let ea := s.g a.toNat
    let free : Cond := if s.inMask s.cur then .pooledFree else .emptyWin
    let q := x.squeueKey
    let lvl := x.namedLevel l.toNat ea
    let el : El := { ea := ea, size := 64 }
    let spoilt := [4, 5, 6, 7].find? (fun i => decide (i < x.sg) && (s.gReg s.cur i).poison)
    let ecc (r : Nat) : Prop := exec (.suspend a) s = .next (s.trap causeECC 0#64 (BitVec.ofNat 64 (1 + r * 256)))
    (s.canIssue [a.toNat] [] = true →
      (ea.toNat % 64 ≠ 0 → exec (.spawn a) s = .next (s.trap causeALIGN ea 6#64)) ∧
      (ea.toNat % 64 = 0 → s.watchBefore (seenOf s.cur .load .generic [el]) = none → ∀ ps, s.resolveAll .load .generic [el] = .ok ps →
        ∃ t, exec (.spawn a) s = .next t ∧ Asks s t .load [] [] (fun m => m.kind = .load ∧ m.parts = ps ∧ m.dest = .spawn)
          .memoryRequestAtHome (s.pcNext 4) [a.toNat])) ∧
    (a.toNat < x.sg → x.cond = .pooled → s.badHandle x.squeue.toNat q = false → (s.queue q).etype = 3#2 →
      (s.reservationBound s.cur = true → exec (.suspend a) s = .next (s.trapProt 0#64 5)) ∧
      (s.reservationBound s.cur = false → (s.queue q).resident = true →
        (s.quiet s.cur = false → exec (.suspend a) s = .next (s.waitFor .suspend)) ∧
        (∀ r, s.quiet s.cur = true → spoilt = some r → ecc r) ∧
        (s.quiet s.cur = true → spoilt = none → ∃ t m r, exec (.suspend a) s = .next t ∧ Left s t free ∧ t.net = s.net ++ m :: r ∧ Counted x r ∧
          let g := s.slugAt s.cur (x.pc + 4#64) false false
          m.kind = .push q { cls := g.prio, payload := g.bits, prog := x.program }))) ∧
    (x.cond ≠ .pooled → s.canIssue [a.toNat] [] = true →
      (ea = 0#64 → exec (.suspend a) s = .next (s.trapProt 0#64 26)) ∧
      (ea ≠ 0#64 → ea.toNat % 64 = 0 → s.reservationBound s.cur = false → s.quiet s.cur = true → x.posted + 1 ≤ 64 →
        let g := s.slugAt s.cur (x.pc + 4#64) true true
        ∀ ps, s.resolveAll .store .generic [{ el with data := leBytes 64 g.bits.toNat }] = .ok ps →
        (∀ r, spoilt = some r → ecc r) ∧
        (spoilt = none → ∃ t m r, exec (.suspend a) s = .next t ∧ Left s t .empty ∧ t.net = s.net ++ m :: r ∧ Counted x r ∧ m.kind = .store ∧
          m.parts = ps))) ∧
    (s.quiet s.cur = false → exec .done s = .next (s.waitFor .suspend)) ∧
    (s.quiet s.cur = true → ∃ u, exec .done s = .next (u.retireChild (pkgOf s.cur) x.program (u.clockOf s.cur)) ∧
      Left s u (if x.cond = .pooled then free else .finished) ∧ (x.imps = [] → u.levels = s.levels) ∧
      ((∀ r ∈ s.resvs, ∀ h, r.2.holder = some h → h.1 ≠ s.cur) → ∃ r, u.net = s.net ++ r ∧ Counted x r)) ∧
    (¬(x.cond = .pooled ∧ s.yieldsTo = true) → Transfers s .yield (s.pcNext 4) []) ∧
    (x.cond = .pooled → s.yieldsTo = true → 0 < x.sg → exec .yield s = exec (.suspend 0#7) s) ∧
    (l.toNat = 0 ∨ 5 ≤ l.toNat → exec (.cancel a l) s = .next (s.trapIll 2) ∧ exec (.lvlwait d a l) s = .next (s.trapIll 2)) ∧
    (1 ≤ l.toNat → l.toNat ≤ 4 → s.canIssue [a.toNat] [] = true →
      (s.levelOfJob x lvl = false → exec (.cancel a l) s = .next (s.trapProt 0#64 16)) ∧
      (s.levelOfJob x lvl = true → ∃ t, exec (.cancel a l) s = .next t ∧ Issued s t (s.pcNext 4) [a.toNat] ∧ SameG s t ∧ SameV s t ∧
        SameDies s t ∧ t.net = s.net ∧ t.agenda = s.agenda ++ [.cancelService lvl])) ∧
    (1 ≤ l.toNat → l.toNat ≤ 4 → s.canIssue [a.toNat] [d.toNat] = true → ea ≠ 0#64 → s.levelOfJob x lvl = true →
      s.under lvl 4 (progKey x.program) = false →
      let r := s.level lvl
      let asks (t : State) (ans : List Byte) : Prop := Asks s t .lvlwait [d.toNat] []
        (fun m => m.kind = .lvlwait lvl ∧ m.dest = .g d.toNat 8 false ∧ m.ans = ans) .loadValueLands (s.pcNext 4) [a.toNat]
      if r.final then ∃ t, exec (.lvlwait d a l) s = .next t ∧ asks t (leBytes 8 r.word.toNat)
      else ∃ t, exec (.lvlwait d a l) s = .next (t.setLevel lvl { r with waiters := r.waiters ++ [s.nextId] }) ∧ asks t [])

/-- One other context has changed to y; the rest of the machine is as after an issue. -/
structure Changes (s t : State) (c : Nat) (y : Ctx) (src : List Nat) : Prop where
  target : t.ctx c = y
  me     : t.me = s.me.after (s.pcNext 4) s.cycleNow src
  others : ∀ d, d ≠ c → d ≠ s.cur → t.ctx d = s.ctx d
  byte   : ∀ k, t.byte k = s.byte k

/-- R38, R258 to R261: the keeper's instructions; any other context that issues one is held with PRIV. CSTART gives windows and, with
an image, reads it; CREAP empties a context that is not running; CSTAT reports; CHOLD holds; CRELEASE releases, by the cause
of the hold. -/
def Obligations.Keeper : Prop :=
  ∀ (s : State) (d a : GIdx) (c : BitVec 4),
    let n := coreOf s.cur * 16 + c.toNat
    let y := s.ctx n
    let win := s.g d.toNat
    let ea := s.g a.toNat
    let el : El := { ea := ea, size := 64 }
    (isKeeper s.cur = false →
      exec (.cstart d a c) s = .next s.trapPriv ∧ exec (.creap c) s = .next s.trapPriv ∧ exec (.cstat d c) s = .next s.trapPriv ∧
      exec (.chold c) s = .next s.trapPriv ∧ exec (.crelease c) s = .next s.trapPriv) ∧
    (isKeeper s.cur = true →
      (s.canIssue [d.toNat, a.toNat] [] = true →
        let taken : Prop := c = 0#4 ∨ (y.cond ≠ .empty ∧ y.cond ≠ .emptyWin)
        let fits : Prop := windowWordOk win = true ∧ s.windowsFree n (windowsOf win) = true
        (taken → exec (.cstart d a c) s = .next (s.trapProt 0#64 18)) ∧
        (¬taken → ¬fits → exec (.cstart d a c) s = .next (s.trapProt 0#64 19)) ∧
        (¬taken → fits → ea = 0#64 → ∃ t, exec (.cstart d a c) s = .next t ∧
          Changes s t n { y with win := windowsOf win, sg := (windowsOf win).gn, sv := (windowsOf win).vn, sd := (windowsOf win).dn,
                                 cond := if s.inMask n then .pooledFree else .emptyWin } [d.toNat, a.toNat]) ∧
        (¬taken → fits → ea ≠ 0#64 → ea.toNat % 64 = 0 → s.watchBefore (seenOf s.cur .load .generic [el]) = none →
          ∀ ps, s.resolveAll .load .generic [el] = .ok ps → ∃ t, exec (.cstart d a c) s = .next t ∧
            Asks s t .load [] [] (fun m => m.kind = .load ∧ m.parts = ps ∧ m.dest = .cstart n win) .memoryRequestAtHome
              (s.pcNext 4) [d.toNat, a.toNat])) ∧
      (y.cond = .empty → Transfers s (.creap c) (s.pcNext 4) []) ∧
      (y.cond ≠ .empty → y.occupied = true → y.hold = .none → exec (.creap c) s = .next (s.trapProt 0#64 20)) ∧
      (c ≠ 0#4 → y.cond ≠ .empty → y.occupied = false ∨ y.hold ≠ .none → (s.withdraw n).enginesQuiet n = true →
        ∃ t, exec (.creap c) s = .next t ∧ t.me.pc = s.pcNext 4 ∧ (t.ctx n).cond = .empty ∧ (t.ctx n).win = {} ∧ (t.ctx n).dbg = {} ∧
          ∀ e, e ≠ n → e ≠ s.cur → (t.ctx e).pc = (s.ctx e).pc ∧ (t.ctx e).cond = (s.ctx e).cond) ∧
      (s.canIssue [] [d.toNat] = true → ∃ t w, exec (.cstat d c) s = .next t ∧ Alu s t d.toNat w (s.pcNext 4) [] ∧
        w.extractLsb' 0 4 = BitVec.ofNat 4 y.cond.code ∧ w.extractLsb' 8 4 = BitVec.ofNat 4 y.hold.code ∧
        w.extractLsb' 16 48 = (if y.occupied then y.pc.extractLsb' 0 48 else 0#48)) ∧
      (c = 0#4 → exec (.chold c) s = .next (s.trapProt 0#64 21)) ∧
      (c ≠ 0#4 → y.occupied = false ∨ y.hold ≠ .none → Transfers s (.chold c) (s.pcNext 4) []) ∧
      (c ≠ 0#4 → y.occupied = true → y.hold = .none → y.watchPend = none → y.stepPend = none → ∃ t, exec (.chold c) s = .next t ∧
        Changes s t n { y with hold := .chold } []) ∧
      (y.hold = .none → Transfers s (.crelease c) (s.pcNext 4) []) ∧
      (c ≠ 0#4 → y.hold ≠ .none →
        let z : Ctx := { y with hold := .none, wait := if y.wait.beforeIssue then .none else y.wait }
        let to_ (z : Ctx) : Prop := ∃ t, exec (.crelease c) s = .next t ∧ Changes s t n z []
        (y.cancel ≠ none ∨ y.hold = .chold ∨ y.hold = .step ∨ y.hold = .watch true ∨ y.hold = .unhandled → to_ z) ∧
        (y.cancel = none → y.hold = .brkpt true → to_ { z with pc := y.tr.pc + 4#64 }) ∧
        (y.cancel = none → y.hold = .brkpt false → to_ { z with pc := y.tr.pc, skipBrk := true }) ∧
        (y.cancel = none → y.hold = .watch false → to_ { z with pc := y.tr.pc, skipWatch := true }) ∧
        (y.cancel = none → y.hold = .priv → y.tr.vec ≠ 0#64 → y.tr.inh = false →
          ∃ t, exec (.crelease c) s = .next t ∧ (t.ctx n).pc = y.tr.vec ∧ (t.ctx n).tr.inh = true ∧ (t.ctx n).hold = .none)))

/-- R263, R264, R38: XRD reads a register of another context of the core, XWR writes one of a held context, XPRES reads the presence
and arm bits and with g[a][63] writes them, a vector register having no arm (PROT reason 23); only the keeper may. XRD of a poisoned register
is ECC (R372), and XWR of a doubleword leaves the other lanes' poison (R373). A keeper or an empty context is no target (PROT reason 21), an index must be
inside the target's window (23), a write needs a held target (22), and a write of XPRES may not arm a present register (23) nor change one
whose producer is pending (24). -/
def OtherRegistersRule : Prop :=
  ∀ (s : State) (d a : GIdx) (k : RClass) (c : BitVec 4),
    let n := coreOf s.cur * 16 + c.toNat
    let y := s.ctx n
    let w := s.g a.toNat
    let v := s.g d.toNat
    let i := w.toNat % 128
    let j := w.toNat / 256 % 8
    let target : Prop := c ≠ 0#4 ∧ y.cond ≠ .empty ∧ y.cond ≠ .emptyWin
    let inside : Prop := xIndexOk k w = true ∧ y.xInside k (xIndex k w) = true
    let sameG (c' i' : Nat) : Prop := i ≠ 0 ∧ i' ≠ 0 ∧ coreOf c' = coreOf n ∧ (s.ctx c').win.gb + i' = y.win.gb + i
    let reads (i : Instr) (x : Word) : Prop := ∃ t, exec i s = .next t ∧ Alu s t d.toNat x (s.pcNext 4) [a.toNat]
    (isKeeper s.cur = false → exec (.xrd d a k c) s = .next s.trapPriv ∧ exec (.xwr d a k c) s = .next s.trapPriv ∧
      (k = .g ∨ k = .v → exec (.xpres d a k c) s = .next s.trapPriv)) ∧
    (k = .m ∨ k = .ox → exec (.xpres d a k c) s = .next (s.trapIll 3)) ∧
    (isKeeper s.cur = true → s.canIssue [a.toNat] [d.toNat] = true →
      (xIndexOk k w = false → exec (.xrd d a k c) s = .next (s.trapProt 0#64 23)) ∧
      (xIndexOk k w = true → ¬target → exec (.xrd d a k c) s = .next (s.trapProt 0#64 21)) ∧
      (xIndexOk k w = true → target → ¬inside → exec (.xrd d a k c) s = .next (s.trapProt 0#64 23)) ∧
      (k = .g ∨ k = .v →
        let w' := w &&& 0x1FFFFFFFFFFFFFFF#64
        let in_ : Prop := xIndexOk k w' = true ∧ y.xInside k (xIndex k w') = true
        let prot (r : Nat) : Prop := exec (.xpres d a k c) s = .next (s.trapProt 0#64 r)
        (xIndexOk k w' = false → prot 23) ∧ (xIndexOk k w' = true → ¬target → prot 21) ∧
        (xIndexOk k w' = true → target → ¬in_ → prot 23) ∧
        (target → in_ → w.getLsbD 63 = true → y.hold = .none → prot 22) ∧
        (target → in_ → w.getLsbD 63 = true → y.hold ≠ .none → w.getLsbD 62 = true → w.getLsbD 61 = true → prot 23) ∧
        (target → in_ → w.getLsbD 63 = true → y.hold ≠ .none → w.getLsbD 61 = false → s.xPresence k (xIndex k w') n = .pending →
          prot 24)) ∧
      (∀ r, target → inside → s.xPoison k w n = some r →
        exec (.xrd d a k c) s = .next (s.trap causeECC 0#64 (BitVec.ofNat 64 (1 + r * 256)))) ∧
      (target → inside → s.xPoison k w n = none → reads (.xrd d a k c) (match k with
        | .g => (s.gReg n i).val
        | .v => (s.vReg n i).val.extractLsb' (64 * j) 64
        | .m => (y.mask i).setWidth 64
        | .ox => if w.toNat < 8 then y.oxr w.toNat else y.dbg.read (w.toNat - 0x100))) ∧
      (k = .g → w.toNat < 128 → target → i < y.sg →
        reads (.xpres d a k c) (match (s.gReg n i).st with | .present => 1#64 | .armed => 2#64 | _ => 0#64)) ∧
      (k = .v → w.toNat < 2048 → w.toNat / 128 % 2 = 0 → target → i < y.sv →
        reads (.xpres d a k c) (match (s.vReg n i).st with | .present => 1#64 | .armed => 2#64 | _ => 0#64)) ∧
      (k = .g → w.toNat / 2 ^ 63 = 1 → w.toNat % 2 ^ 61 < 128 → target → i < y.sg → y.hold ≠ .none → (s.gReg n i).st ≠ .pending →
        (w.getLsbD 62 && w.getLsbD 61) = false → s.me.mapped d.toNat = none →
        let p : Presence := if w.getLsbD 62 then .present else if w.getLsbD 61 then .armed else .absent
        ∃ t, exec (.xpres d a k c) s = .next t ∧ Issued s t (s.pcNext 4) [a.toNat] ∧
          ∀ c' i', s.namesG d.toNat c' i' = false → (sameG c' i' → t.gReg c' i' = { s.gReg c' i' with st := p }) ∧
            (¬sameG c' i' → t.gReg c' i' = s.gReg c' i')) ∧
      (k = .v → w.toNat / 2 ^ 63 = 1 → w.getLsbD 61 = true → w.toNat % 2 ^ 61 < 2048 → w.toNat / 128 % 2 = 0 → target → i < y.sv →
        y.hold ≠ .none → exec (.xpres d a k c) s = .next (s.trapProt 0#64 23))) ∧
    (isKeeper s.cur = true → s.canIssue [d.toNat, a.toNat] [] = true →
      (xIndexOk k w = false → exec (.xwr d a k c) s = .next (s.trapProt 0#64 23)) ∧
      (xIndexOk k w = true → ¬target → exec (.xwr d a k c) s = .next (s.trapProt 0#64 21)) ∧
      (xIndexOk k w = true → target → ¬inside → exec (.xwr d a k c) s = .next (s.trapProt 0#64 23))) ∧
    (isKeeper s.cur = true → s.canIssue [d.toNat, a.toNat] [] = true → target → inside →
      let src := [d.toNat, a.toNat]
      (y.hold = .none → exec (.xwr d a k c) s = .next (s.trapProt 0#64 22)) ∧
      (y.hold ≠ .none →
        (k = .g → (s.gReg n i).st = .pending → exec (.xwr d a k c) s = .next (s.trap causePEND 0#64 (BitVec.ofNat 64 i))) ∧
        (k = .g → (s.gReg n i).st ≠ .pending → ∃ t, exec (.xwr d a k c) s = .next t ∧ Issued s t (s.pcNext 4) src ∧ SameV s t ∧
          ∀ c' i', (sameG c' i' → t.gReg c' i' = { val := v }) ∧ (¬sameG c' i' → t.gReg c' i' = s.gReg c' i')) ∧
        (k = .v → (s.vReg n i).st ≠ .pending → ∃ t, exec (.xwr d a k c) s = .next t ∧ Issued s t (s.pcNext 4) src ∧ SameG s t ∧
          (t.vReg n i).st = .present ∧ (t.vReg n i).poison = (s.vReg n i).poison &&& ~~~(3#16 <<< (2 * j)) ∧ ∀ b, b < 512 → (t.vReg n i).val.getLsbD b =
            if b / 64 = j then v.getLsbD (b % 64) else (s.vReg n i).val.getLsbD b) ∧
        (k = .v → (s.vReg n i).st ≠ .pending → ∀ t, exec (.xwr d a k c) s = .next t →
          ∀ c' i', ¬(coreOf c' = coreOf n ∧ (s.ctx c').win.vb + i' = y.win.vb + i) → t.vReg c' i' = s.vReg c' i') ∧
        (k = .m → ∃ t, exec (.xwr d a k c) s = .next t ∧ Changes s t n (y.setMask i (v.setWidth 16)) src) ∧
        (k = .ox → ∃ t, exec (.xwr d a k c) s = .next t ∧
          Changes s t n (if w.toNat < 8 then y.setOx w.toNat v else { y with dbg := y.dbg.write (w.toNat - 0x100) v }) src)))

/-- R262, R49, R133 to R135, R407: CTRD reads every control register of the map; CTWR writes those that may be written, their zero bits
ignoring it. A number outside the map, and a write of a read-only one, is ILL reason 7; the engine registers on an I/O-die core are reason 8; a keeper-only
register written by another context traps PRIV. ENERGY read in the cycle of a tick is its value before it (R410); flags that land in the cycle
of a write of FPFLAGS are kept (R135). -/
def ControlRegistersRule : Prop :=
  ∀ (s : State) (d a : GIdx),
    let x := s.me
    let k := coreOf s.cur
    let v := s.g a.toNat
    let tick := (s.pkg (pkgOf s.cur)).ticked
    let total := (s.program x.program.toNat).energy
    let energy := if s.cycleNow ≤ tick.1 then Map.get tick.2 x.program.toNat total else total
    let flags := (if s.cycleNow ≤ x.late.1 then v ||| x.late.2.setWidth 64 else v) &&& 0x1F#64
    let engine (n : Nat) : Bool := isService s.cur && decide (0x40 ≤ n) && decide (n ≤ 0x44)
    let reads (n : BitVec 10) (w : Word) : Prop := engine n.toNat = false → s.canIssue [] [d.toNat] = true →
      ∃ t, exec (.ctrd d n) s = .next t ∧ Alu s t d.toNat w (s.pcNext 4) []
    let writes (n : BitVec 10) (y : Ctx) : Prop := engine n.toNat = false → s.canIssue [a.toNat] [] = true →
      ∃ t, exec (.ctwr a n) s = .next t ∧ OnlyMe s t y (s.pcNext 4) [a.toNat]
    let keeps (n : BitVec 10) (p : State → Prop) : Prop :=
      (isKeeper s.cur = false → exec (.ctwr a n) s = .next s.trapPriv) ∧
      (isKeeper s.cur = true → s.canIssue [a.toNat] [] = true → ∃ t, exec (.ctwr a n) s = .next t ∧ t.me.pc = s.pcNext 4 ∧
        (∀ b, t.byte b = s.byte b) ∧ p t)
    reads 0x000#10 (BitVec.ofNat 64 (s.cur % 2 ^ 22)) ∧ reads 0x001#10 (BitVec.ofNat 64 ((s.pkg (pkgOf s.cur)).time % 2 ^ 48)) ∧
    reads 0x002#10 x.issued ∧ reads 0x003#10 (BitVec.ofNat 64 energy) ∧
    reads 0x004#10 (x.job ++ x.run ++ x.program) ∧
    reads 0x010#10 x.ctl.fpctl ∧ reads 0x011#10 x.ctl.fpflags ∧ reads 0x020#10 x.tr.vec ∧ reads 0x021#10 x.tr.cause ∧
    reads 0x022#10 x.tr.pc ∧ reads 0x023#10 x.tr.addr ∧ reads 0x024#10 x.tr.info ∧ reads 0x025#10 x.tr.save ∧
    reads 0x030#10 x.ctl.deadline ∧ reads 0x031#10 x.ctl.prio ∧ reads 0x040#10 x.ctl.fmtb ∧ reads 0x041#10 x.ctl.scaleb ∧
    reads 0x042#10 x.ctl.platecfg ∧ reads 0x043#10 x.ctl.fmta ∧ reads 0x044#10 x.ctl.scalea ∧ reads 0x050#10 x.ctl.qmap ∧
    reads 0x100#10 x.dbg.ibrk0 ∧ reads 0x101#10 x.dbg.ibrk1 ∧ reads 0x102#10 x.dbg.ibrk2 ∧ reads 0x103#10 x.dbg.ibrk3 ∧
    reads 0x104#10 x.dbg.w0a ∧ reads 0x105#10 x.dbg.w0c ∧ reads 0x106#10 x.dbg.w1a ∧ reads 0x107#10 x.dbg.w1c ∧
    reads 0x108#10 x.dbg.step ∧ reads 0x210#10 (s.core k).poolmask ∧ reads 0x220#10 (s.core k).savearea ∧
    (∀ r : BitVec 3, reads (0x200#10 + r.setWidth 10) (Map.get (s.core k).wins r.toNat 0#64)) ∧
    writes 0x010#10 { x with ctl := { x.ctl with fpctl := v &&& 0x1FF#64 } } ∧
    writes 0x011#10 { x with ctl := { x.ctl with fpflags := flags } } ∧
    writes 0x020#10 { x with tr := { x.tr with vec := v &&& 0xFFFFFFFFFFFE#64 } } ∧
    writes 0x025#10 { x with tr := { x.tr with save := v &&& 0x1FFFFFFFFFFFE#64 } } ∧
    writes 0x030#10 { x with ctl := { x.ctl with deadline := v &&& 0xFFFFFFFFFFFF#64 } } ∧
    writes 0x031#10 { x with ctl := { x.ctl with prio := v &&& 3#64 } } ∧
    writes 0x040#10 { x with ctl := { x.ctl with fmtb := v &&& 1#64 } } ∧
    writes 0x041#10 { x with ctl := { x.ctl with scaleb := v &&& 0xFFFE#64 } } ∧
    writes 0x042#10 { x with ctl := { x.ctl with platecfg := v &&& 0xFFFFF#64 } } ∧
    writes 0x043#10 { x with ctl := { x.ctl with fmta := v &&& 1#64 } } ∧
    writes 0x044#10 { x with ctl := { x.ctl with scalea := v &&& 0x3FFFE#64 } } ∧
    keeps 0x100#10 (fun t => t.me.dbg = { x.dbg with ibrk0 := v &&& 0x8000FFFFFFFFFFFE#64 }) ∧
    keeps 0x101#10 (fun t => t.me.dbg = { x.dbg with ibrk1 := v &&& 0x8000FFFFFFFFFFFE#64 }) ∧
    keeps 0x102#10 (fun t => t.me.dbg = { x.dbg with ibrk2 := v &&& 0x8000FFFFFFFFFFFE#64 }) ∧
    keeps 0x103#10 (fun t => t.me.dbg = { x.dbg with ibrk3 := v &&& 0x8000FFFFFFFFFFFE#64 }) ∧
    keeps 0x104#10 (fun t => t.me.dbg = { x.dbg with w0a := v &&& 0x00FFFFFFFFFFFFFF#64 }) ∧
    keeps 0x105#10 (fun t => t.me.dbg = { x.dbg with w0c := v &&& 0xF000FFFFFFFFFFFF#64 }) ∧
    keeps 0x106#10 (fun t => t.me.dbg = { x.dbg with w1a := v &&& 0x00FFFFFFFFFFFFFF#64 }) ∧
    keeps 0x107#10 (fun t => t.me.dbg = { x.dbg with w1c := v &&& 0xF000FFFFFFFFFFFF#64 }) ∧
    keeps 0x108#10 (fun t => t.me.dbg = { x.dbg with step := v &&& 1#64 } ∧
      t.me.stepPend = if x.dbg.step.getLsbD 0 then some x.pc else x.stepPend) ∧
    keeps 0x210#10 (fun t => (t.core k).poolmask = v &&& 0xFFFE#64) ∧
    (∀ r : BitVec 3, keeps (0x200#10 + r.setWidth 10) (fun t => ∀ j, Map.get (t.core k).wins j 0#64 =
      if j = r.toNat then (if r.toNat % 2 = 0 then v &&& 0xEFFFFFFFFFFFFFC0#64 else v &&& 0x00FFFFFFFFFFFFC0#64)
      else Map.get (s.core k).wins j 0#64)) ∧
    keeps 0x220#10 (fun t => (t.core k).savearea =
      if s.saveAreaOk k v then v &&& 0xFFFFFFFFFFFFFF00#64 else (s.core k).savearea &&& 0x00FFFFFFFFFFFFFF#64) ∧
    (s.canIssue [a.toNat] [] = true → s.slotBusy (changedSlots x.ctl.qmap v) = none →
      ∃ t, exec (.ctwr a 0x050#10) s = .next t ∧ t.me.ctl = { x.ctl with qmap := v } ∧ t.me.pc = s.pcNext 4 ∧ SameG s t ∧ SameV s t) ∧
    (∀ n : BitVec 10, (ctlAccess n.toNat = none →
        exec (.ctrd d n) s = .next (s.trapIll 7) ∧ exec (.ctwr a n) s = .next (s.trapIll 7)) ∧
      (ctlAccess n.toNat = some .ro → exec (.ctwr a n) s = .next (s.trapIll 7)) ∧
      (engine n.toNat = true → exec (.ctrd d n) s = .next (s.trapIll 8) ∧ exec (.ctwr a n) s = .next (s.trapIll 8)))

/-- R38, R49, R133 to R135, R262 to R264, R407: registers of another context, and control registers.
Rests on readings of log entry 27. -/
def Obligations.ReadAndWriteRegisters : Prop := OtherRegistersRule ∧ ControlRegistersRule


/-! ## Engines at the issue of their instructions -/

/-- An operation has gone to an engine: the strand goes on at once, the token or result registers named are pending, no byte of memory
changes and nothing joins the network (R101, R268). -/
structure Takes (s t : State) (gs vs src : List Nat) : Prop where
  me     : t.me = s.me.after (s.pcNext 4) s.cycleNow src
  others : ∀ c, c ≠ s.cur → t.ctx c = s.ctx c
  gregs  : ∀ c i, t.gReg c i = if gs.any (fun d => s.namesG d c i) then { s.gReg c i with st := .pending } else s.gReg c i
  vregs  : ∀ c i, t.vReg c i = if vs.any (fun d => s.namesV d c i) then { s.vReg c i with st := .pending } else s.vReg c i
  byte   : ∀ k, t.byte k = s.byte k
  net    : t.net = s.net
  dies   : SameDies s t

/-- R101, R164: an instruction with a token register that can issue. -/
def TokenReady (s : State) (tok : Nat) (src : List Nat) : Prop :=
  s.canIssue src [tok] = true ∧ s.tokenOk tok = true ∧ (s.gReg s.cur tok).st = .present

/-- R101, R268 to R270, R273 to R277: a FEEDOP instruction takes a slot of its galley's feeder when fewer contexts wait before it
than slots are free, samples its operands, and leaves its token pending; with none free it has not issued and takes its turn.
Rests on readings of log entry 34. -/
def Obligations.FeederIssue : Prop :=
  ∀ (s : State) (t a b : GIdx),
    let g := galOf s.cur
    let src := [a.toNat, b.toNat]
    let x := s.me
    let issues (i : Instr) (k : FeedKind) (ev : Nat → Nat → Instr) : Prop :=
      (s.tokenOk t.toNat = false → exec i s = .next (s.trapIll 10)) ∧
      (TokenReady s t.toNat src →
        (s.feederOpen = true → (s.galley g).feeder.length < 8 → ∃ u n o, exec i s = .next u ∧ Takes s u [t.toNat] [] src ∧ n < 8 ∧
          Map.find (s.galley g).feeder n = none ∧ Map.find (u.galley g).feeder n = some o ∧ u.agenda = s.agenda ++ [ev g n] ∧
          o.ctx = s.cur ∧ o.tok = t.toNat ∧ o.kind = k ∧ o.dst = s.g a.toNat ∧ o.src = s.g b.toNat ∧ o.job = x.job ∧
          o.x0 = x.oxr 0 ∧ o.x1 = x.oxr 1 ∧ o.x2 = x.oxr 2 ∧ o.x3 = x.oxr 3 ∧ o.x4 = x.oxr 4 ∧ o.fpctl = x.ctl.fpctl) ∧
        (s.feederOpen = false → ∃ u, exec i s = .next u ∧ u.me = { x with notBefore := s.cycleNow + 1 } ∧ SameG s u ∧ SameV s u ∧ u.net = s.net ∧
          (u.galley g).feeder = (s.galley g).feeder))
    issues (.feed t a b) (.copy 0) .feedCopyEnd ∧ issues (.feedx t a b) (.copy 1) .feedCopyEnd ∧
    issues (.feedqz t a b) (.copy 2) .feedCopyEnd ∧ issues (.feedt t a b) (.copy 3) .feedCopyEnd ∧
    issues (.feedq t a b) (.bind (x.qkey ((s.g a.toNat).toNat % 65536))
      (if b = 0#7 then none else some (x.qkey ((s.g b.toNat).toNat % 65536)))) .feedqEntry

/-- R23, R278 to R285: the platen instructions, their checks passed, join the core's platen behind what it holds, at most four;
MDRAIN, PLLD and MSORT leave their token pending. A set the strand does not own traps PROT reason 27; on a core of the I/O die they are ILL
reason 8.
Rests on readings of log entry 35. -/
def Obligations.PlatenIssue : Prop :=
  ∀ (s : State) (t a b : GIdx) (x : BitVec 1) (f c : BitVec 2),
    let k := coreOf s.cur
    let cfg := s.me.ctl.platecfg
    let ga := (s.g a.toNat).toNat
    let gb := (s.g b.toNat).toNat
    let off := gb % 2 ^ 16
    let n := gb / 2 ^ 16
    let e := match f.toNat with | 0 => 4 | 1 => 8 | _ => 2
    let ds := if cfg.toNat % 2 ^ 16 = 0 then 32 * e else cfg.toNat % 2 ^ 16
    let q := (s.core k).platenQ
    let joins (i : Instr) (tok : Option Nat) (src : List Nat) (kind : PlatenKind) : Prop :=
      q.length < 4 → ∃ u o, exec i s = .next u ∧ Takes s u tok.toList [] src ∧ (u.core k).platenQ = q ++ [o] ∧ o.ctx = s.cur ∧
        o.kind = kind ∧ o.tok = tok.getD 0 ∧ o.platecfg = cfg ∧ o.fmta = s.me.ctl.fmta ∧ o.fmtb = s.me.ctl.fmtb ∧
        o.scalea = s.me.ctl.scalea ∧ o.scaleb = s.me.ctl.scaleb ∧ o.ox0 = s.me.oxr 0 ∧ o.ox1 = s.me.oxr 1 ∧ o.ox2 = s.me.oxr 2 ∧
        u.agenda = s.agenda ++ (if q = [] then [.platenOpStart k] else [])
    let own (j : Nat) : Bool := cfg.getLsbD (16 + j)
    (isService s.cur = true → exec .mma s = .next (s.trapIll 8) ∧ exec (.mclr c) s = .next (s.trapIll 8) ∧
      (f ≠ 3#2 → exec (.mdrain t a x f c) s = .next (s.trapIll 8)) ∧ exec (.plld t a b) s = .next (s.trapIll 8) ∧
      exec (.msort t) s = .next (s.trapIll 8)) ∧
    (f = 3#2 → exec (.mdrain t a x f c) s = .next (s.trapIll 3)) ∧
    (isService s.cur = false →
      (q.length < 4 → own ((s.me.oxr 1).toNat / 2 ^ 16 % 4) = false → exec .mma s = .next (s.trapProt 0#64 27)) ∧
      (q.length < 4 → own c.toNat = false → exec (.mclr c) s = .next (s.trapProt 0#64 27)) ∧
      (own c.toNat = true → joins (.mclr c) none [] (.mclr c.toNat)) ∧
      (let pa := (s.me.oxr 0).toNat
       let x1 := (s.me.oxr 1).toNat
       let pb := (s.me.oxr 2).toNat
       let m8a := s.me.ctl.fmta.getLsbD 0
       let m8b := s.me.ctl.fmtb.getLsbD 0
       let sa := s.me.ctl.scalea.toNat / 2 % 2 ^ 17 * 2
       let sb := s.me.ctl.scaleb.toNat / 2 % 2 ^ 15 * 2 + 2 * ((pb + 480) / 32)
       let row := if m8a then 16 else 32
       let tile := if m8b then 32 else 64
       own (x1 / 2 ^ 16) = true → x1 < 2 ^ 18 → pa < 2 ^ 18 → (m8a = false → pa % 2 = 0 ∧ x1 % 2 = 0) →
       pa + 31 * (x1 % 2 ^ 16) + row ≤ 2 ^ 18 → (m8a = true → sa + 64 ≤ 2 ^ 18) → pb % tile = 0 → pb + 16 * tile ≤ 2 ^ 16 →
       (m8b = true → sb + 2 ≤ 2 ^ 16) → joins .mma none [] .mma) ∧
      (f ≠ 3#2 → own c.toNat = true → TokenReady s t.toNat [a.toNat] → ga % e = 0 → ds % e = 0 → 32 * e ≤ ds →
        ga + 31 * ds + 32 * e ≤ 2 ^ 18 →
        joins (.mdrain t a x f c) (some t.toNat) [a.toNat] (.mdrain c.toNat f.toNat (x == 1#1) ga)) ∧
      (TokenReady s t.toNat [a.toNat, b.toNat] → gb < 2 ^ 27 → ga % 64 = 0 → off % 64 = 0 → 1 ≤ n → n ≤ 1024 →
        off + 64 * n ≤ 2 ^ 16 → ga + 64 * n ≤ 2 ^ 18 →
        joins (.plld t a b) (some t.toNat) [a.toNat, b.toNat] (.plld ga off n)) ∧
      (let from_ := (s.me.oxr 0).toNat
       let to_ := (s.me.oxr 1).toNat
       let x2 := (s.me.oxr 2).toNat
       let many := x2 % 2 ^ 11
       TokenReady s t.toNat [] → s.me.oxr 2 &&& ~~~0x307FF#64 = 0#64 → from_ % 16 = 0 → to_ % 16 = 0 → from_ + 16 * many ≤ 2 ^ 18 →
       to_ + 16 * many ≤ 2 ^ 18 → 1 ≤ many → many ≤ 1024 → x2 / 2 ^ 16 ≠ 3 →
       (from_ = to_ ∨ from_ + 16 * many ≤ to_ ∨ to_ + 16 * many ≤ from_) →
       joins (.msort t) (some t.toNat) [] (.msort from_ to_ many (x2 / 2 ^ 16))))

/-- R236: core k is the home core of a generic address: the core of a local store, the owner's core of a private region, and of a shared virtual
address, translated, that of the bank or the HBM4 page behind it. -/
def HomeCore (s : State) (ea : Word) (k : Nat) : Prop :=
  let named := s.genericTarget s.cur s.me.job .load ea.toNat
  let p := pkgOf s.cur * 4096
  (∃ off, named = .place (.local k off)) ∨
  (∃ c off, named = .place (.priv c off) ∧ s.hasPkg (pkgOf c) = true ∧ k = coreOf c) ∨
  (∃ off, named = .virt (privSpace s.cur) off ∧ k = coreOf s.cur) ∨
  (∃ sp va cell, named = .virt sp va ∧ sp < 65536 ∧ s.translate (galOf s.cur) sp va .load = .cell cell ∧
    let bank := (cell % 2 ^ 50 - bankBase) % 0x4000000 / 64 % 256
    k = p + homeDieNo cell * 512 +
      (if isBank cell then bank / 16 * 32 + 2 * (bank % 16) else va / 2 ^ 16 % 16 * 32 + va / 2 ^ 20 % 32))

/-- R236, R237, R287, R292: REPART leaves its token pending and hands its descriptor to the repartition engine, a misaligned one traps
ALIGN; RPSTAT is the one outstanding load; MIGRATE does nothing at home, and else sends the pooled strand's slug to the migration list of the home
core's galley once it holds fewer than 256; a strand that holds a reservation may not go (PROT reason 5), one with a poisoned register that its slug carries
traps ECC (R372), a pinned one PROT, by a reason the spec does not name; a remote address has no home core (PROT reason 0).
Rests on readings of log entries 5 and 36. -/
def Obligations.RepartitionAndMigrate : Prop :=
  (∀ (s : State) (t a : GIdx),
    let ga := s.g a.toNat
    (s.tokenOk t.toNat = false → exec (.repart t a) s = .next (s.trapIll 10)) ∧
    (TokenReady s t.toNat [a.toNat] → ga.toNat % 8 ≠ 0 → exec (.repart t a) s = .next (s.trap causeALIGN ga 3#64)) ∧
    (TokenReady s t.toNat [a.toNat] → ga.toNat % 8 = 0 → ∃ u o, exec (.repart t a) s = .next (u.repRead o) ∧
      Takes s u [t.toNat] [] [a.toNat] ∧ Quiet s u ∧ o.ctx = s.cur ∧ o.tok = t.toNat ∧ o.at_ = ga ∧ o.job = s.me.job) ∧
    (s.canIssue [a.toNat] [t.toNat] = true → ∃ u, exec (.rpstat t a) s = .next u ∧ Asks s u .load [t.toNat] []
      (fun m => m.kind = .rpstat (ga.toNat % 2 ^ 32) ∧ m.dest = .g t.toNat 8 false) .loadValueLands (s.pcNext 4) [a.toNat])) ∧
  (∀ (s : State) (a : GIdx), s.canIssue [a.toNat] [] = true →
    ∀ key off, s.genericTarget s.cur s.me.job .load (s.g a.toNat).toNat = .place (.remote key off) →
    exec (.migrate a) s = .next (s.trapProt (s.g a.toNat) 0)) ∧
  (∀ (s : State) (a : GIdx) (k : Nat), s.canIssue [a.toNat] [] = true → HomeCore s (s.g a.toNat) k →
    let g := galOfCore k
    let spoilt := [4, 5, 6, 7].find? (fun i => decide (i < s.me.sg) && (s.gReg s.cur i).poison)
    (k = coreOf s.cur → Transfers s (.migrate a) (s.pcNext 4) [a.toNat]) ∧
    (k ≠ coreOf s.cur → s.me.cond ≠ .pooled → ∃ r : Word, r.toNat < 256 ∧
      exec (.migrate a) s = .next ({ s with freeIdx := s.freeIdx + 1 }.trap causePROT (s.g a.toNat) r)) ∧
    (k ≠ coreOf s.cur → s.me.cond = .pooled →
      (s.reservationBound s.cur = true → exec (.migrate a) s = .next (s.trapProt 0#64 5)) ∧
      (s.reservationBound s.cur = false → 256 ≤ (s.galley g).migr.length →
        exec (.migrate a) s = .next (s.waitFor (.migration g))) ∧
      (s.reservationBound s.cur = false → (s.galley g).migr.length < 256 →
        (s.quiet s.cur = false → exec (.migrate a) s = .next (s.waitFor .suspend)) ∧
        (∀ r, s.quiet s.cur = true → spoilt = some r →
          exec (.migrate a) s = .next (s.trap causeECC 0#64 (BitVec.ofNat 64 (1 + r * 256)))) ∧
        (s.quiet s.cur = true → spoilt = none → ∃ t n, exec (.migrate a) s = .next t ∧ Left s t (if s.inMask s.cur then .pooledFree else .emptyWin) ∧
          (∃ r, t.net = s.net ++ r ∧ Counted s.me r) ∧
          (t.galley g).migr = (s.galley g).migr ++ [(s.slugAt s.cur (s.me.pc + 4#64) false true, k, n)]))))

/-- R16, R295 to R297: a condenser instruction, its registers inside the window and its sources free of poison, joins the core's
condenser behind what it holds, at most eight, with the operands it samples; it keeps the distribution registers as they are until it starts.
DMOM, DQNT and DCDF leave their vector register pending. On a core of the I/O die they are ILL reason 8. -/
def DistributionIssueRule : Prop :=
  ∀ (s : State) (d a b : DIdx) (m : MIdx) (v : VIdx) (i h l : BitVec 4),
    let k := coreOf s.cur
    let q := (s.core k).condQ
    let dOk (ds : List Nat) : Prop := ∀ j ∈ ds, j < s.me.sd
    let clean (ds : List Nat) : Prop := ∀ j ∈ ds, (s.dReg s.cur j).poison = 0#96
    let vOk (vs : List Nat) : Prop := ∀ j ∈ vs, s.vsrcOk j = true
    let joins (i : Instr) (mask : MIdx) (kind : CondKind) (pend : List Nat) : Prop :=
      isService s.cur = false → q.length < 8 → ∃ u o, exec i s = .next u ∧ Takes s u [] pend [] ∧ (u.core k).condQ = q ++ [o] ∧
        (u.core k).d = (s.core k).d ∧ o.ctx = s.cur ∧ o.kind = kind ∧ o.mask = s.m mask ∧ o.fpctl = s.me.ctl.fpctl ∧
        o.started = false ∧ u.agenda = s.agenda ++ (if q = [] then [.condenserOpStart k] else [])
    let pair (i : Instr) (fn : Nat) : Prop :=
      (isService s.cur = true → exec i s = .next (s.trapIll 8)) ∧
      (dOk [d.toNat, a.toNat, b.toNat] → clean [a.toNat, b.toNat] → joins i m (.bin fn d.toNat a.toNat b.toNat) [])
    pair (.dadd d a b m) 0 ∧ pair (.dsub d a b m) 1 ∧ pair (.dmul d a b m) 2 ∧ pair (.ddiv d a b m) 3 ∧ pair (.dmin d a b m) 4 ∧
    pair (.dmax d a b m) 5 ∧
    let away (i : Instr) : Prop := isService s.cur = true → exec i s = .next (s.trapIll 8)
    (v.toNat % 2 = 0 → away (.daff d a m v)) ∧ (i.toNat ≤ 10 → away (.dmap d a m i)) ∧ away (.dmix d a b m v) ∧
    away (.dtag d a h l) ∧ away (.dtagOr d a h l) ∧ away (.dfromv d m v i) ∧ away (.ddirac d m v i) ∧
    (i.toNat ≤ 3 → away (.dmom a m v i)) ∧ away (.dqnt a m v) ∧ away (.dcdf a m v) ∧ away (.dld d m i) ∧ away (.dst d m) ∧
    (v.toNat % 2 = 1 → exec (.daff d a m v) s = .next (s.trapIll 5)) ∧
    (v.toNat % 2 = 0 → dOk [d.toNat, a.toNat] → clean [a.toNat] → vOk [v.toNat, v.toNat + 1] →
      joins (.daff d a m v) m (.aff d.toNat a.toNat (s.v v.toNat) (s.v (v.toNat + 1))) []) ∧
    (10 < i.toNat → exec (.dmap d a m i) s = .next (s.trapIll 2)) ∧
    (i.toNat ≤ 10 → dOk [d.toNat, a.toNat] → clean [a.toNat] → joins (.dmap d a m i) m (.map d.toNat a.toNat i.toNat) []) ∧
    (dOk [d.toNat, a.toNat, b.toNat] → clean [a.toNat, b.toNat] → vOk [v.toNat] →
      joins (.dmix d a b m v) m (.mix d.toNat a.toNat b.toNat (s.v v.toNat)) []) ∧
    (dOk [d.toNat, a.toNat] → clean [a.toNat] → joins (.dtag d a h l) 0#3 (.tag d.toNat a.toNat (h ++ l) false) [] ∧
      joins (.dtagOr d a h l) 0#3 (.tag d.toNat a.toNat (h ++ l) true) []) ∧
    (dOk [d.toNat] → vOk ((List.range 8).map (fun p => v.toNat + p)) →
      joins (.dfromv d m v i) m (.fromv d.toNat ((List.range 8).map (fun p => s.v (v.toNat + p))) (tagOf i)) []) ∧
    (dOk [d.toNat] → vOk [v.toNat] → joins (.ddirac d m v i) m (.dirac d.toNat (s.v v.toNat) (tagOf i)) []) ∧
    (3 < i.toNat → exec (.dmom a m v i) s = .next (s.trapIll 2)) ∧
    (i.toNat ≤ 3 → dOk [a.toNat] → clean [a.toNat] → s.vdstOk v.toNat = true →
      joins (.dmom a m v i) m (.mom v.toNat a.toNat i.toNat) [v.toNat]) ∧
    (dOk [a.toNat] → clean [a.toNat] → vOk [v.toNat] → s.vdstOk v.toNat = true →
      joins (.dqnt a m v) m (.qnt v.toNat a.toNat (s.v v.toNat)) [v.toNat] ∧
      joins (.dcdf a m v) m (.cdf v.toNat a.toNat (s.v v.toNat)) [v.toNat])

/-- R307, R308, R354: DLD and DST of an image on 256 bytes, translated, join the condenser and hold their context: DLD until its image
lands, DST until its stores are posted. Another alignment traps ALIGN. -/
def DistributionMemoryRule : Prop :=
  ∀ (s : State) (d : DIdx) (m : MIdx) (g : BitVec 4), isService s.cur = false → d.toNat < s.me.sd →
    (s.core (coreOf s.cur)).condQ.length < 8 →
    let k := coreOf s.cur
    let ea := s.me.oxr 0
    let els : List El := [{ ea := ea, size := 256 }, { ea := ea + 256#64, size := 256 }, { ea := ea + 512#64, size := 256 }]
    let joins (i : Instr) (kind : CondKind) (w : Wait) (ps : List Part) : Prop :=
      ∃ t o, exec i s = .next t ∧ t.me = { s.me.after (s.pcNext 4) s.cycleNow [] with wait := w } ∧
        (t.core k).condQ = (s.core k).condQ ++ [o] ∧ o.kind = kind ∧ o.parts = ps ∧ o.mask = s.m m ∧
        SameG s t ∧ SameV s t ∧ t.net = s.net ∧ ∀ b, t.byte b = s.byte b
    (ea.toNat % 256 ≠ 0 → exec (.dld d m g) s = .next (s.trap causeALIGN ea 8#64)) ∧
    (ea.toNat % 256 = 0 → s.me.watchRegs.watching = false → ∀ ps, s.resolveAll .load .generic els = .ok ps →
      joins (.dld d m g) (.ld d.toNat (tagOf g)) .load ps) ∧
    ((s.dReg s.cur d.toNat).poison = 0#96 →
      (ea.toNat % 256 ≠ 0 → exec (.dst d m) s = .next (s.trap causeALIGN ea 8#64)) ∧
      (ea.toNat % 256 = 0 → s.me.watchRegs.watching = false →
        s.me.posted + 2 * ((List.range 16).filter (fun i => (s.m m).getLsbD i)).length ≤ 64 →
        ∀ ps, s.resolveAll .store .generic els = .ok ps → joins (.dst d m) (.st d.toNat) .dst ps))

/-- R16, R295 to R297, R307, R308, R354: the distribution instructions at issue.
Rests on readings of log entry 35. -/
def Obligations.Distribution : Prop := DistributionIssueRule ∧ DistributionMemoryRule

/-! ## The checks of issue -/

/-- R14, R164, R166, R352, R372: an instruction that names the registers of u, whatever it does: the first field outside its window
traps REGLIM; then a source that is not present waits; then a destination whose producer is pending traps PEND; then a poisoned source
traps ECC.
Rests on readings of log entry 11. -/
def Obligations.IssueChecks : Prop :=
  ∀ (s : State) (u : Use) (body : State → State),
    let x := s.me
    (∀ c i lsb l r, u.lim = l ++ (c, i, lsb) :: r → (∀ f ∈ l, x.outside f.1 f.2.1 = false) → x.outside c i = true →
      s.issue u body = s.trap causeREGLIM 0#64 (BitVec.ofNat 64 (i + c.code * 256 + lsb * 1024))) ∧
    ((∀ f ∈ u.lim, x.outside f.1 f.2.1 = false) →
      (∀ i l r, u.gsrc = l ++ i :: r → (∀ j ∈ l, s.gReady s.cur j = true) → s.gReady s.cur i = false →
        s.issue u body = s.waitFor (.reg .g i)) ∧
      ((∀ j ∈ u.gsrc, s.gReady s.cur j = true) → (∀ j ∈ u.vsrc, s.vReady s.cur j = true) →
        let busy (i : Nat) : Bool := (x.mapped i).isNone && (s.gReg s.cur i).st == .pending
        (∀ i l r, u.gdst = l ++ i :: r → (∀ j ∈ l, busy j = false) → busy i = true →
          s.issue u body = s.trap causePEND 0#64 (BitVec.ofNat 64 i)) ∧
        ((∀ j ∈ u.gdst, busy j = false) → (∀ j ∈ u.vdst, (s.vReg s.cur j).st ≠ .pending) →
          let bad (i : Nat) : Bool := (x.mapped i).isNone && (s.gReg s.cur i).poison
          ∀ i l r, u.gsrc = l ++ i :: r → (∀ j ∈ l, bad j = false) → bad i = true →
            s.issue u body = s.trap causeECC 0#64 (BitVec.ofNat 64 (1 + i * 256)))))

/-! ## Events: answers, refusals, deposits and accesses at their homes -/

/-- Register i of context c is the one that context c0 names d; g0 is none. -/
def NamedBy (s : State) (c0 d c i : Nat) : Prop :=
  d ≠ 0 ∧ i ≠ 0 ∧ coreOf c = coreOf c0 ∧ (s.ctx c).win.gb + i = (s.ctx c0).win.gb + d

/-- Register d of context c0 takes v, present and without poison; every other general register keeps what it holds (R20). -/
def FillG (s t : State) (c0 d : Nat) (v : Word) : Prop :=
  ∀ c i, (NamedBy s c0 d c i → t.gReg c i = { val := v }) ∧ (¬NamedBy s c0 d c i → t.gReg c i = s.gReg c i)

/-- Only the context c0 changes, to y; memory, queues and levels stay. -/
structure CtxOnly (s t : State) (c0 : Nat) (y : Ctx) : Prop where
  ctx    : ∀ c, t.ctx c = if c = c0 then y else s.ctx c
  byte   : ∀ k, t.byte k = s.byte k
  queues : t.queues = s.queues
  levels : t.levels = s.levels

/-- R20, R21, R70, R96, R110, R135, R354: what reaches a context. A load's value lands, present, and its context goes on. The result of a long unit
lands with its flags ORed into FPFLAGS, or with its imprecise trap pending; where its register was mapped at issue it is pushed to the queue
(R70). An acknowledgement frees the places of its requests. A
refusal of a posted request pends; one of a load leaves the destination its value, present, and is precise at the load's
address. A clock message raises what a die knows of another.
Rests on readings of log entries 8 and 49. -/
def Obligations.AnswersLand : Prop :=
  ∀ (s : State) (id : Nat) (m : Msg), s.message id = some m →
    let y := s.ctx m.src
    let here : Prop := s.live m = true ∧ m.drop = false ∧ m.watch.watching = false
    (∀ d size sext, here → m.kind = .load → m.dest = .g d size sext → m.pushTo d = none → m.flags = 0#5 → m.trap = none →
      ∃ t, exec (.loadValueLands id) s = .next t ∧ FillG s t m.src d (extendLoad size sext (leNat m.bytes)) ∧ SameV s t ∧
        CtxOnly s t m.src (if m.waits then { y with wait := .none } else y) ∧ t.net = s.net.filter (fun n => n.id != id) ∧
        t.agenda = s.agenda ∧ (t.die (dieOf m.src)).clock = (s.die (dieOf m.src)).clock.merge m.seen) ∧
    (∀ d v, here → m.kind = .result → m.dest = .vals [(.g, d, v)] → m.pushTo d = none → m.waits = false →
      (m.trap = none → ∃ t, exec (.longLatencyResultLands id) s = .next t ∧ FillG s t m.src d (BitVec.ofNat 64 v) ∧ SameV s t ∧
        CtxOnly s t m.src (y.raised m.flags) ∧ t.net = s.net.filter (fun n => n.id != id) ∧ t.agenda = s.agenda) ∧
      (∀ tr, m.trap = some tr → m.flags = 0#5 → ∃ t, exec (.longLatencyResultLands id) s = .next t ∧
        FillG s t m.src d (BitVec.ofNat 64 v) ∧ CtxOnly s t m.src { y with imps := y.imps ++ [tr] })) ∧
    (∀ d v, here → m.kind = .result → m.dest = .vals [(.v, d, v)] → m.waits = false → m.trap = none →
      ∃ t, exec (.longLatencyResultLands id) s = .next t ∧ SameG s t ∧ CtxOnly s t m.src (y.raised m.flags) ∧ ∀ c i, t.vReg c i =
        if coreOf c = coreOf m.src ∧ (s.ctx c).win.vb + i = y.win.vb + d then (s.vReg c i).written v (m.lanes.setWidth 16)
        else s.vReg c i) ∧
    (∀ d v q, here → m.kind = .result → m.dest = .vals [(.g, d, v)] → m.pushTo d = some q → m.waits = false → m.trap = none →
      ∃ t n, exec (.longLatencyResultLands id) s = .next t ∧ SameG s t ∧ SameV s t ∧ CtxOnly s t m.src (y.raised m.flags) ∧
        t.net = s.net.filter (fun n => n.id != id) ++ [n] ∧ t.agenda = s.agenda ++ [.queuePushAtHome n.id] ∧ n.src = m.src ∧
        n.kind = .push q { payload := (BitVec.ofNat 64 v).setWidth 512, prog := m.prog }) ∧
    (∃ t, exec (.storeAcknowledgement id) s = .next (t.checkRunOf m.prog.toNat) ∧ SameG s t ∧ SameV s t ∧
      CtxOnly s t m.src { y with posted := y.posted - m.posted } ∧ t.net = s.net.filter (fun n => n.id != id) ∧ t.agenda = s.agenda) ∧
    (∀ tr, m.refusal = some tr →
      (s.live m = true → m.posted ≠ 0 → tr.imp = true → ∃ t, exec (.refusalArrives id) s = .next (t.checkRunOf m.prog.toNat) ∧ SameG s t ∧ SameV s t ∧
        CtxOnly s t m.src { y with posted := y.posted - m.posted, imps := y.imps ++ [tr] } ∧
        t.net = s.net.filter (fun n => n.id != id)) ∧
      (∀ d size sext, here → m.kind = .load → m.dest = .g d size sext → m.posted = 0 → tr.imp = false →
        ∃ t, exec (.refusalArrives id) s = .next t ∧ SameV s t ∧
          CtxOnly s t m.src { y with pc := m.pc, precise := some tr, wait := if m.waits then .none else y.wait } ∧
          t.net = s.net.filter (fun n => n.id != id) ∧
          ∀ c i, (t.gReg c i).val = (s.gReg c i).val ∧ (NamedBy s m.src d c i → (t.gReg c i).st ≠ .pending) ∧
            (¬NamedBy s m.src d c i → t.gReg c i = s.gReg c i))) ∧
    (∀ d origin count, ∃ t, exec (.clockMessage d origin count) s = .next t ∧ SameG s t ∧ (∀ k, t.byte k = s.byte k) ∧
      ∀ e, t.die e = if e = d then { s.die d with known := (s.die d).known.put origin (max ((s.die d).known.get origin) count) }
        else s.die e)

/-- R98, R108, R218, R232, R233, R372: what happens at a home. A load takes the bytes of its cells; a store writes its bytes and nothing
else; a read of a poisoned granule answers ECC instead; an atomic of one bank step writes the new value and answers the old one. A deposit fills an
armed register and is refused where the register is not armed; its answer ends the NPUT, which is counted in ISSUED then, sends it again, or
traps NACK at the NPUT's own PC (log entry 49).
Rests on readings of log entries 16, 21 and 49. -/
def Obligations.AtTheHome : Prop :=
  ∀ (s : State) (id : Nat) (m : Msg), s.message id = some m →
    let y := s.ctx m.src
    (∀ p k, m.parts = [p] → p.done = false → s.homeOf m.src m.job m.kind.acc p.loc p.size = .cell k →
      (∀ d size sext, m.kind = .load → m.dest = .g d size sext → m.num = 0 → m.posted = 0 → s.poisoned k p.size = false →
        ∃ t, exec (.memoryRequestAtHome id) s = .next t ∧ SameG s t ∧ (∀ a, t.byte a = s.byte a) ∧ t.poison = s.poison ∧
          t.message id = some { m with parts := [{ p with data := s.readThrough (coreOf m.src) k p.size, done := true }] } ∧
          t.agenda = s.agenda ++ [.loadValueLands id]) ∧
      (∀ d size sext, m.kind = .load → m.dest = .g d size sext → m.posted = 0 → s.poisoned k p.size = true →
        ∃ t, exec (.memoryRequestAtHome id) s = .next t ∧ SameG s t ∧ (∀ a, t.byte a = s.byte a) ∧
          (∃ n, t.message id = some n ∧
            n.refusal = some ⟨false, causeECC, m.pc, BitVec.ofNat 64 p.addr, BitVec.ofNat 64 (eccWhere k)⟩) ∧
          t.agenda = s.agenda ++ [.refusalArrives id]) ∧
      (m.kind = .store → m.refusal = none → m.drop = false → s.memWf → ∃ t, exec (.memoryRequestAtHome id) s = .next t ∧ SameG s t ∧ SameV s t ∧
        (∀ i, i < p.data.length → p.data[i]? = some (t.byte (k + i))) ∧
        (∀ a, a < k ∨ k + p.data.length ≤ a → t.byte a = s.byte a) ∧ (∀ c, t.ctx c = s.ctx c) ∧
        Instr.storeAcknowledgement id ∈ t.agenda) ∧
      (∀ op val cmp, m.kind = .atomic op val cmp → m.posted = 0 → isBank k = true → s.poisoned k op.size = false → s.memWf →
        let old := s.load k op.size
        let new := op.apply old (val.toNat % 2 ^ (8 * op.size)) cmp.toNat
        ∃ t, exec (.bankAluOperation id) s = .next t ∧ SameG s t ∧ SameV s t ∧
          (new.2.1 = true → t.bytes k op.size = leBytes op.size new.1) ∧
          (new.2.1 = false → ∀ a, t.byte a = s.byte a) ∧ (∀ a, a < k ∨ k + op.size ≤ a → t.byte a = s.byte a) ∧
          (∃ n, t.message id = some n ∧ n.ans = leBytes 8 old ∧ n.flags = new.2.2) ∧ Instr.loadValueLands id ∈ t.agenda)) ∧
    (∀ sender tgt r v, m.kind = .deposit sender tgt r v → (s.ctx tgt).occupied = true → r ≠ 0 → r < (s.ctx tgt).sg →
      (s.ctx tgt).mapped r = none →
      ((s.gReg tgt r).st = .armed → ∃ t, exec (.depositArrival id) s = .next t ∧ FillG s t tgt r v ∧ SameV s t ∧
        t.message id = some { m with num := 0 } ∧ t.agenda = s.agenda ++ [.depositAnswer id]) ∧
      ((s.gReg tgt r).st ≠ .armed → ∃ t, exec (.depositArrival id) s = .next t ∧ SameG s t ∧ SameV s t ∧
        t.message id = some { m with num := 1 } ∧ t.agenda = s.agenda ++ [.depositAnswer id])) ∧
    (s.live m = true → m.drop = false →
      let answered (z : Ctx) : Prop := ∃ t, exec (.depositAnswer id) s = .next t ∧ SameG s t ∧ SameV s t ∧ CtxOnly s t m.src z ∧
        t.net = s.net.filter (fun n => n.id != id)
      (m.num = 0 → answered { y with
        pc := m.pc + BitVec.ofNat 64 m.len
        wait := .none
        issued := y.issued + 1
        held := y.held.filter (fun j => !m.srcs.contains (j + 124))
        stepPend := if y.dbg.step.getLsbD 0 then some m.pc else y.stepPend }) ∧
      (m.num = 1 → answered { y with wait := .depositRetry }) ∧
      (2 ≤ m.num → answered { y with
        wait := .none
        precise := some ⟨false, causeNACK, m.pc, 0#64, BitVec.ofNat 64 (m.num - 1)⟩ }))

/-- The answer in message id is the word w, and it is on its way to its register. -/
def Answered (s t : State) (id : Nat) (w : Word) : Prop :=
  (∃ n, t.message id = some n ∧ n.ans = leBytes 8 w.toNat) ∧ t.agenda = s.agenda ++ [.loadValueLands id]

/-- No TLB of package p holds an entry of a buffer (R370). -/
def Dropped (t : State) (b : Shadow) : Prop :=
  ∀ g, g / 128 = b.pkg → ∀ e ∈ (t.galley g).tlb, e.space = b.job.toNat → ¬(e.base < b.base + b.len ∧ b.base < e.base + e.size)

/-- The table entries of a buffer's pages: of each its leaf and its companion. -/
def entriesOf (l : List BufPage) : List Nat := l.flatMap (fun x => [x.at_, companionAt x.at_ x.size])

/-- No two of some table entries overlap. -/
def Apart (l : List Nat) : Prop := l.Pairwise (fun i j => i + 8 ≤ j ∨ j + 8 ≤ i)

/-- A publish or a withdrawal of a buffer has rewritten the leaf and the companion of every one of its pages, and no other byte (R104, R370):
every TLB has dropped its entries, and the answer 0 is on its way. -/
def Rewrote (s t : State) (id : Nat) (b : Shadow) (leaf comp : BufPage → Word) : Prop :=
  (∀ x ∈ s.pagesOf b, t.load x.at_ 8 = (leaf x).toNat ∧ t.load (companionAt x.at_ x.size) 8 = (comp x).toNat) ∧
    (∀ a, (∀ k ∈ entriesOf (s.pagesOf b), a < k ∨ k + 8 ≤ a) → t.byte a = s.byte a) ∧ Dropped t b ∧ SameG s t ∧
    (∃ n, t.message id = some n ∧ n.ans = leBytes 8 0) ∧ Instr.loadValueLands id ∈ t.agenda

/-- R103 to R105, R225, R226, R234, R235, R370: a publish exchanges the addresses of the leaf and the companion of every page in one step, or reports
the fault of a failed write and clears it, or answers −7 where nothing is declared. A withdrawal drops the shadow and leaves the visible copy. A wait enters the table when the
doubleword holds its value and is answered 1 when it does not; a wake answers the waiters of its address in entry order and
counts them; a deadline answers 2.
Rests on readings of log entry 12. -/
def Obligations.PublishAndWait : Prop :=
  ∀ (s : State) (id : Nat) (m : Msg), s.message id = some m →
    let p := pkgOf m.src
    (∀ base, m.kind = .publish base →
      (s.shadowAt p m.job base = none → ∃ t, exec (.publishExchange id) s = .next t ∧ Answered s t id (codeWord (-7)) ∧
        t.mem = s.mem ∧ t.shadows = s.shadows ∧ SameG s t) ∧
      (∀ b, s.shadowAt p m.job base = some b → b.fault ≠ 0#64 → ∃ t, exec (.publishExchange id) s = .next t ∧
        Answered s t id b.fault ∧ t.mem = s.mem ∧ t.shadowAt p m.job base = some { b with fault := 0#64 } ∧ SameG s t) ∧
      (∀ b, s.shadowAt p m.job base = some b → b.fault = 0#64 → Apart (entriesOf (s.pagesOf b)) → s.memWf →
        let c (x : BufPage) : Word := BitVec.ofNat 64 (s.load (companionAt x.at_ x.size) 8)
        ∃ t, exec (.publishExchange id) s = .next t ∧ t.shadows = s.shadows ∧
          Rewrote s t id b (fun x => withAddr x.leaf (leafAddr (c x))) (fun x => withAddr (c x) (leafAddr x.leaf)))) ∧
    (∀ base len, m.kind = .shadow base len →
      (s.shadowAt p m.job base = none → ∃ t, exec (.shadowWithdrawal id) s = .next t ∧ Answered s t id (codeWord (-7)) ∧ t.mem = s.mem ∧
        t.shadows = s.shadows ∧ SameG s t) ∧
      (∀ b, s.shadowAt p m.job base = some b → Apart (entriesOf (s.pagesOf b)) → s.memWf →
        ∃ t, exec (.shadowWithdrawal id) s = .next t ∧ t.shadowAt p m.job base = none ∧
          Rewrote s t id b (fun x => x.leaf &&& ~~~0x0200000000000000#64) (fun _ => 0#64))) ∧
    (∀ a v dl q r k, m.kind = .waitv a v dl → tableFull (s.pkg p).waiters m.job a = false → m.parts = q :: r → s.cellOf m q = some k →
      let now := BitVec.ofNat 64 (leNat (s.readThrough (coreOf m.src) k 8))
      (now ≠ v → ∃ t, exec (.waitTableEnter id) s = .next t ∧ Answered s t id 1#64 ∧
        (t.pkg p).waiters = (s.pkg p).waiters ∧ t.mem = s.mem) ∧
      (now = v → ∃ t, exec (.waitTableEnter id) s = .next t ∧ t.mem = s.mem ∧ SameG s t ∧
        (t.pkg p).waiters = (s.pkg p).waiters ++ [{ job := m.job, addr := a, msg := id, deadline := dl }] ∧
        t.agenda = s.agenda ++ (if dl = 0#64 then [] else [.waitDeadlineExpiry p id]))) ∧
    (∀ a n, m.kind = .wakev a n → m.posted = 0 →
      let l := matching (s.pkg p).waiters m.job a n.toNat
      ∃ t, exec (.waitTableWake id) s = .next t ∧ (∃ n, t.message id = some n ∧ n.ans = leBytes 8 l.length) ∧
        Instr.loadValueLands id ∈ t.agenda ∧ (t.pkg p).waiters = (s.pkg p).waiters.filter (fun w => !l.contains w) ∧ SameG s t ∧
        ∀ w ∈ l, w.hostAt = none → w.msg ≠ id → (s.message w.msg).isSome = true →
          (∃ n, t.message w.msg = some n ∧ n.ans = leBytes 8 0) ∧ Instr.loadValueLands w.msg ∈ t.agenda) ∧
    (∀ w, (s.pkg p).waiters.find? (fun w => w.msg == id) = some w → w.hostAt = none → w.deadline ≠ 0#64 →
      dist (w.deadline.setWidth 48) (s.time p) ≤ 0 → ∃ t, exec (.waitDeadlineExpiry p id) s = .next t ∧ Answered s t id 2#64 ∧
        (t.pkg p).waiters = (s.pkg p).waiters.filter (fun y => !(y == w)) ∧ t.mem = s.mem)

/-- R87, R217, R366 to R370: a walk that finds a leaf fills the TLB that waits for it, and that of a prefetch where the page can be read; one that
finds none leaves a fault record, tells the pager, and its contexts wait for the pager. PAGER_MAP writes the entry, clears the record and
starts the walk again, and every TLB is to drop what the tables no longer give; an entry that would break R87 has no effect, and one whose frame a
TLB has still to give up is written later (log entry 67). A private space without a root takes the table that PAGER_MAP writes first (log entry 67).
PAGER_REFUSE has the waiting contexts trap XLATE, page-table error noted where a walk has met one (log entry 56). An invalidation drops the entries of
the range and no other.
Rests on readings of log entries 38, 56 and 67. -/
def Obligations.Paging : Prop :=
  ∀ (s : State) (p d space gran : Nat),
    let here (e : TlbEntry) (pages : Nat) : Prop := e.space = space ∧ e.base < (gran + pages) * 65536 ∧ gran * 65536 < e.base + e.size
    (∀ w, (s.die d).walks.find? (fun w => w.space == space && w.gran == gran) = some w →
      let found := s.walkBy (s.die d).nonleaf (d / 8) space (gran * 65536)
      (∀ base size at_ e, found = .leaf base size at_ e →
        ∃ t, exec (.pageWalkComplete d space gran) s = .next t ∧ t.mem = s.mem ∧ (∀ c, t.ctx c = s.ctx c) ∧
          (t.die d).walking space gran = false ∧
          let filled (g : Nat) : Prop := g ∈ w.gals ∨ (g ∈ w.prefs ∧ leafRd e = true ∧ leafEo e = false)
          (∀ g, filled g → (t.galley g).tlb.head? =
            some { space := space, base := base, size := size, leaf := e, comp := s.companion at_ size e }) ∧
          ∀ g, ¬filled g → t.galley g = s.galley g) ∧
      (∀ err, found = .fault err →
        ∃ t, exec (.pageWalkComplete d space gran) s = .next t ∧ t.mem = s.mem ∧ (∀ g, t.galley g = s.galley g) ∧
          (t.die d).faults = (s.die d).faults ++ [{ space := space, gran := gran, ptErr := err, gals := w.gals, prefs := w.prefs }] ∧
          (t.die d).walking space gran = false ∧ Output.faultRecord d space gran err ∈ t.outbox ∧
          ∀ c, t.ctx c = if dieOf c = d ∧ (s.ctx c).wait = .walk space gran then { s.ctx c with wait := .fault space gran }
            else s.ctx c)) ∧
    ((∀ q, (s.pkg q).repIn = []) → (∀ f ∈ s.faultsOf p space gran, f.slugs = []) →
      (∀ a e, (s.pkg p).pageCache = [] → (s.pkg p).cacheUse = [] → s.fillOf p space gran = none → s.memWf →
        let w := s.writeEntries space gran p [(a, e)]
        (w.mayMap p space gran = false → exec (.pagerMap p space gran [(a, e)]) s = .next s) ∧
        (w.mayMap p space gran = true → s.mayUse w p space gran = false →
          exec (.pagerMap p space gran [(a, e)]) s = .next (s.dueOnce (.pagerMap p space gran [(a, e)]))) ∧
        (w.mayMap p space gran = true → s.mayUse w p space gran = true → ∃ t, exec (.pagerMap p space gran [(a, e)]) s = .next t ∧
        (65536 ≤ space → (s.ctx (space - 65536)).ptab = 0 → (t.ctx (space - 65536)).ptab = a - gran / 16384 % 4 * 8) ∧
        t.load (physKey p a) 8 = e.toNat ∧ (∀ k, k < physKey p a ∨ physKey p a + 8 ≤ k → t.byte k = s.byte k) ∧
        t.faultsOf p space gran = [] ∧
        (∀ g ∈ s.galleys, g.1 / 128 = p → ∀ y ∈ g.2.tlb, w.stale p y = true →
          Instr.tlbInvalidationAck g.1 y.space (y.base / 65536) (y.size / 65536) ∈ t.agenda) ∧
        (∀ f ∈ s.faultsOf p space gran, ∀ g ∈ f.gals, g / 128 = p → (t.die (dieOfGal g)).walking space gran = true ∧
          ∀ c, dieOf c = dieOfGal g → (s.ctx c).wait = .fault space gran → (t.ctx c).wait = .walk space gran))) ∧
      (s.refusable p space gran = false → exec (.pagerRefuse p space gran) s = .next s) ∧
      (s.refusable p space gran = true → ∃ t, exec (.pagerRefuse p space gran) s = .next t ∧ t.mem = s.mem ∧ t.faultsOf p space gran = [] ∧
        ∀ c, t.ctx c = if pkgOf c = p ∧ (s.ctx c).wait = .fault space gran then
            { s.ctx c with refused := some (space, gran, (s.faultsOf p space gran).any (·.ptErr)) }
          else s.ctx c)) ∧
    (∀ g pages, ∃ t, exec (.tlbInvalidationAck g space gran pages) s = .next t ∧ t.mem = s.mem ∧
      (∀ e, e ∈ (t.galley g).tlb ↔ e ∈ (s.galley g).tlb ∧ ¬here e pages) ∧ ∀ g', g' ≠ g → t.galley g' = s.galley g')

/-- R38, R41, R45, R50, R95, R163, R165, R247, R355 to R357, R374 to R378: what happens in a context's own slot. A pending imprecise trap and a pending CANCEL
enter the handler; a breakpoint, a watchpoint and a step hold the context for its keeper; an encoding that is no
instruction traps ILL with its reason; a stopped keeper restarts at its entry; the keeper's registers and QMAP take what is
written.
Rests on readings of log entries 29, 30 and 76. -/
def Obligations.SlotEvents : Prop :=
  ∀ (s : State),
    let x := s.me
    let k := coreOf s.cur
    let low (w : Word) : Word := w &&& 0xFFFFFFFFFFFF#64
    let enters (t : State) (tr : PendTrap) (resume : Word) (y : Ctx) : Prop := Enters s t { y with
      tr := { x.tr with cause := (if tr.imp then 0x100#64 else 0#64) ||| tr.cause.setWidth 64, pc := low tr.pc, addr := tr.addr, info := tr.info,
                        save := low resume + 0x1000000000000#64 }
      pc := x.tr.vec, wait := .none, precise := none, later := if tr.imp && x.precise.isSome then x.precise else x.later
      stepPend := if x.dbg.step.getLsbD 0 then some tr.pc else x.stepPend }
    let held (t : State) (h : Hold) (cause : Byte) (pc addr info : Word) : Prop :=
      t.me.hold = h ∧ t.me.tr = { x.tr with cause := cause.setWidth 64, pc := low pc, addr := addr, info := info } ∧ t.me.pc = x.pc ∧
      SameG s t ∧ SameV s t ∧ (∀ b, t.byte b = s.byte b) ∧ ∀ c, c ≠ s.cur → t.ctx c = s.ctx c
    (∀ tr r, x.imps = tr :: r → x.tr.inh = false → x.tr.vec ≠ 0#64 → ∃ t, exec .attributedImpreciseTrap s = .next t ∧
      enters t tr (if tr.imp then x.pc else tr.pc) { x with imps := r }) ∧
    (∀ l, x.cancel = some l → x.tr.vec ≠ 0#64 → ∃ t, exec .cancelTrap s = .next t ∧
      enters t ⟨false, causeCANCEL, x.pc, 0#64, l.setWidth 64⟩ x.pc { x with cancel := none }) ∧
    (∀ w r, x.tr.inh = false → x.tr.vec ≠ 0#64 → ∃ t, exec (.encodingNotAnInstruction w r) s = .next t ∧ t.fetched = w ∧
      t.me.pc = x.tr.vec ∧ t.me.tr.cause = 1#64 ∧ t.me.tr.pc = low x.pc ∧
      t.me.tr.info = w.setWidth 64 + (r.code.setWidth 64 <<< 32) ∧ t.me.tr.save = low x.pc + 0x1000000000000#64 ∧ t.me.issued = x.issued ∧
      SameG s t ∧ SameV s t ∧ (∀ b, t.byte b = s.byte b) ∧ t.net = s.net) ∧
    (isKeeper s.cur = false →
      (∀ i, ∃ t, exec (.ibrkMatch i) s = .next t ∧
        held t (.brkpt false) causeBRKPT x.pc 0#64 (0x4000#64 ||| (i.setWidth 64 <<< 12)) ∧ t.me.skipWatch = x.skipWatch) ∧
      (∀ a info pc, ∃ t, exec (.watchpointMatch a info pc) s = .next t ∧
        held t (.watch (info.getLsbD 2)) causeWATCH pc a (info.setWidth 64) ∧ t.me.watchPend = none) ∧
      (∀ pc, ∃ t, exec (.stepHold pc) s = .next t ∧ held t .step causeSTEP pc 0#64 0#64 ∧ t.me.stepPend = none)) ∧
    (∀ core entry, (s.core core).stopped = true → (s.pkg (core / 4096)).mappedOut.contains (core / 32 % 128) = false → ∃ t,
      exec (.keeperRestart core entry) s = .next t ∧
      let y := t.ctx (16 * core)
      (t.core core).stopped = false ∧ y.pc = entry.setWidth 64 ∧ y.cond = .pinned ∧ y.hold = .none ∧ y.wait = .none ∧ y.tr = {} ∧ y.ctl = {} ∧
        (∀ i, i < 128 → t.gReg (16 * core) i = {}) ∧ (∀ i, i < 32 → t.vReg (16 * core) i = {}) ∧ (∀ b, t.byte b = s.byte b) ∧
        ∀ c, c ≠ 16 * core → t.ctx c = s.ctx c) ∧
    (∀ v, ∃ t, exec (.poolmaskWrite v) s = .next t ∧ (t.core k).poolmask = v &&& 0xFFFE#64 ∧ (∀ b, t.byte b = s.byte b) ∧
      (∀ i, i < 16 → ((s.ctx (16 * k + i)).cond = .emptyWin ∨ (s.ctx (16 * k + i)).cond = .pooledFree →
          (t.ctx (16 * k + i)).cond = if v.getLsbD i && i != 0 then .pooledFree else .emptyWin) ∧
        ((s.ctx (16 * k + i)).cond ≠ .emptyWin → (s.ctx (16 * k + i)).cond ≠ .pooledFree →
          (t.ctx (16 * k + i)).cond = (s.ctx (16 * k + i)).cond)) ∧
      ∀ c, coreOf c ≠ k → t.ctx c = s.ctx c) ∧
    (∀ v, ∃ t, exec (.saveareaWrite v) s = .next t ∧ (∀ b, t.byte b = s.byte b) ∧ (∀ c, t.ctx c = s.ctx c) ∧ (t.core k).savearea =
      (if s.saveAreaOk k v then v &&& 0xFFFFFFFFFFFFFF00#64 else (s.core k).savearea &&& 0x00FFFFFFFFFFFFFF#64) ∧
      ∀ i, (Map.get (t.core k).slots i {}).poison = false ∧ (Map.get (t.core k).slots i {}).used = (Map.get (s.core k).slots i {}).used) ∧
    (∀ (r : BitVec 3) v, ∃ t, exec (.windowRegisterWrite r v) s = .next t ∧ (∀ c, t.ctx c = s.ctx c) ∧ (∀ b, t.byte b = s.byte b) ∧
      ∀ j, Map.get (t.core k).wins j 0#64 =
        if j = r.toNat then (if r.toNat % 2 = 0 then v &&& 0xEFFFFFFFFFFFFFC0#64 else v &&& 0x00FFFFFFFFFFFFC0#64)
        else Map.get (s.core k).wins j 0#64) ∧
    (∀ v, s.slotBusy (changedSlots x.ctl.qmap v) = none → ∃ t, exec (.qmapWrite v) s = .next t ∧ t.me.ctl = { x.ctl with qmap := v } ∧
      t.me.pc = x.pc ∧ SameG s t ∧ SameV s t ∧ (∀ b, t.byte b = s.byte b) ∧ ∀ c, c ≠ s.cur → t.ctx c = s.ctx c)

/-- R60, R61: the order of a queue. The entry a program takes it has not taken before, and it is a data entry of the highest class
among the untaken entries before the first untaken marker, the earliest of its class, or that marker when no entry is before it. -/
def Obligations.EntryOrder : Prop :=
  ∀ (P : Half) (l : List QEntry),
    let open_ (j : Nat) : Prop := ∃ e, l[j]? = some e ∧ e.taken.contains P = false
    let mark (j : Nat) : Prop := ∃ e, l[j]? = some e ∧ e.taken.contains P = false ∧ e.kind ≠ .data
    (pickFrom P 0 l none = none ↔ ∀ j, ¬open_ j) ∧
    ∀ i, pickFrom P 0 l none = some i → ∃ e, l[i]? = some e ∧ e.taken.contains P = false ∧
      (e.kind ≠ .data → ∀ j, j < i → ¬open_ j) ∧
      (e.kind = .data → (∀ j, j < i → ¬mark j) ∧
        ∀ j f, l[j]? = some f → f.taken.contains P = false → f.kind = .data → (∀ h, h < j → ¬mark h) →
          f.cls.ule e.cls ∧ (j < i → f.cls.ult e.cls))

/-- R59 to R67, R186, R244 to R249: at a queue's home. A push takes a slot, waits when the queue is full, and is discarded when it is closed;
the last producer's colophon ends the queue. A pop takes the entry it meets and answers its value and status, or waits; a QTRY that
meets nothing answers status 4. The queue service makes a queue resident; a mapped slot's core learns its readiness.
Rests on readings of log entries 22 to 24. -/
def Obligations.QueueEvents : Prop :=
  (∀ (s : State) (id : Nat) (m : Msg) (q : Nat) (e : QEntry), s.message id = some m → m.kind = .push q e →
    let x := s.queue q
    let P : Half := m.prog.setWidth 16
    let e' : QEntry := { e with stamp := if x.homePkg = pkgOf m.src then m.seen else {} }
    (x.valid = false ∨ x.closed = true → x.etype ≠ 3#2 → exec (.queuePushAtHome id) s = .next (s.dropMsg id)) ∧
    (x.valid = true → x.closed = false → x.coloph.contains P = false → x.waitPop = [] → x.etype ≠ 3#2 →
      (e.kind ≠ .colophon → x.waitPush = [] → x.entries.length < x.cap → ∃ t, exec (.queuePushAtHome id) s = .next t ∧
        (t.queue q).entries = x.entries ++ [e'] ∧ (t.queue q).ended = x.ended ∧ t.net = s.net.filter (fun n => n.id != id) ∧
        t.mem = s.mem ∧ SameG s t ∧ SameV s t ∧ ∀ r, r ≠ q → t.queue r = s.queue r) ∧
      (e.kind ≠ .colophon → x.cap ≤ x.entries.length → x.ended = false → ∃ t, exec (.queuePushAtHome id) s = .next t ∧
        (t.queue q).entries = x.entries ∧ (t.queue q).waitPush = x.waitPush ++ [id] ∧ (t.message id).isSome = true ∧ t.mem = s.mem ∧
        SameG s t ∧ SameV s t ∧ ∀ r, r ≠ q → t.queue r = s.queue r) ∧
      (e.kind = .colophon → x.waitPush = [] → x.entries.length < x.cap →
        (∀ p ∈ x.producers, p ≠ 0xFFFE#16 → p = P ∨ x.coloph.contains p = true) → ∃ t, exec (.queuePushAtHome id) s = .next t ∧
        (t.queue q).ended = true ∧ (t.queue q).entries = x.entries ++ [e'] ∧ (t.queue q).coloph = x.coloph ++ [P]) ∧
      (e.kind = .colophon → ∀ p ∈ x.producers, p ≠ 0xFFFE#16 → p ≠ P → x.coloph.contains p = false →
        ∃ t, exec (.queuePushAtHome id) s = .next t ∧ t.queue q = { x with coloph := x.coloph ++ [P] } ∧
          t.net = s.net.filter (fun n => n.id != id)))) ∧
  (∀ (s : State) (id : Nat) (m : Msg) (q : Nat) (now vec : Bool) (d b : Nat), s.message id = some m → m.kind = .pop q now vec d b →
    let x := s.queue q
    let P : Half := m.prog.setWidth 16
    (s.meet q P = .nothing → now = false → exec (.queuePopAtHome id) s = .next (s.setQueue q { x with waitPop := x.waitPop ++ [id] })) ∧
    (x.waitPush = [] → x.waitPop = [] → b ≠ 0 →
      let answers (t : State) (v : Nat) (st : Word) : Prop := SameG s t ∧ SameV s t ∧ Instr.loadValueLands id ∈ t.agenda ∧
        ∃ n, t.message id = some n ∧ n.dest = .vals [(if vec then RC.v else RC.g, d, v), (.g, b, st.toNat)]
      (∀ i e, s.meet q P = .entry i e → e.kind = .data → e.poison = false → ∃ t, exec (.queuePopAtHome id) s = .next t ∧
        answers t (popValue x.etype e) (popStatus x.etype 0 e) ∧ (t.queue q).entries = (x.take P i).entries) ∧
      (s.meet q P = .closed → ∃ t, exec (.queuePopAtHome id) s = .next t ∧ answers t 0 3#64) ∧
      (s.meet q P = .ended → ∃ t, exec (.queuePopAtHome id) s = .next t ∧ answers t 0 1#64) ∧
      (s.meet q P = .nothing → now = true → ∃ t, exec (.queuePopAtHome id) s = .next t ∧ answers t 0 4#64 ∧
        (t.queue q).entries = x.entries))) ∧
  (∀ (s : State) (q : Nat), (s.queue q).resident = false → (s.die (s.queue q).die).resident.length < residentMax →
    ∃ t, exec (.queueMissService q) s = .next t ∧ t.queue q = { s.queue q with resident := true } ∧ (∀ r, r ≠ q → t.queue r = s.queue r) ∧
      (t.die (s.queue q).die).resident = (s.die (s.queue q).die).resident ++ [q] ∧ t.mem = s.mem ∧ SameG s t) ∧
  (∀ (s : State) (c h : Nat) (slot : BitVec 2), (s.ctx c).mapped (124 + slot.toNat) = some h →
    let ready : Bool := (s.queue ((s.ctx c).qkey h)).consumedBy (s.ctx c).program &&
      s.meet ((s.ctx c).qkey h) ((s.ctx c).program.setWidth 16) != .nothing
    ∃ t, exec (.queueStateReport c slot) s = .next t ∧
      CtxOnly s t c { s.ctx c with slotReady := Map.set (s.ctx c).slotReady slot.toNat ready })

/-- Queue q takes a push at once: it is open, has room, nothing waits at it, and the program has not ended it (R59, R62). -/
def OpenTo (s : State) (q : Nat) (prog : BitVec 32) : Prop :=
  let x := s.queue q
  x.valid = true ∧ x.closed = false ∧ x.coloph.contains (prog.setWidth 16) = false ∧ x.waitPush = [] ∧ x.waitPop = [] ∧
    x.entries.length < x.cap

/-- Queue q holds one entry more, with that payload, after those it held. -/
def Took (s t : State) (q : Nat) (v : BitVec 512) : Prop :=
  (t.queue q).entries.map (·.payload) = (s.queue q).entries.map (·.payload) ++ [v]

/-! ## Events: strands placed, saved, cancelled and retired -/

/-- R31, R32, R34, R43, R44, R76: DISPATCH_STEP completes in every state. The first valid slug begins in the first context that holds it, a saved
strand resumes from its slot; a late one is counted; with nothing to place an urgent slug has a strand saved; else nothing but the agenda
changes. Rests on readings of log entries 23, 24, 37, 59 and 60. -/
def DispatchRule : Prop :=
  ∀ (s : State) (g : Nat), ∃ t, exec (.dispatchStep g) s = .next t ∧
    let now : Bool := decide ((s.galley g).placed ≤ (s.pkg (g / 128)).cycle)
    let idle : Prop := s.badSlug g = none ∧ (now = true → s.nextSlug g = none)
    (idle → s.preemption g = none → ∃ a, t = { s with agenda := a }) ∧
    (∀ c, idle → s.preemption g = some c → Instr.forcedSave c ∈ t.agenda ∧ (∀ d, t.ctx d = s.ctx d) ∧ t.mem = s.mem ∧
      ∃ i, (s.core (coreOf c)).freeSlot = some i ∧
        Map.get (t.core (coreOf c)).slots i {} = { used := true, ctx := c, epoch := (s.ctx c).epoch }) ∧
    (∀ x c, s.badSlug g = none → now = true → s.nextSlug g = some x → s.placeFor g x = some c →
      (t.galley g).placed = (s.pkg (g / 128)).cycle + 8 ∧
      (dist x.slug.deadline (s.time (g / 128)) < 0 → (s.level (progKey x.slug.program)).home = g / 128 →
        (t.level (progKey x.slug.program)).late = (s.level (progKey x.slug.program)).late + 1) ∧
      (0 ≤ dist x.slug.deadline (s.time (g / 128)) →
        let y := t.ctx c
        (x.slug.fsave = false → 8 ≤ x.slug.gwin →
          y.cond = .pooled ∧ y.hold = .none ∧ y.wait = .none ∧ y.pc = x.slug.pc ∧ y.program = x.slug.program ∧
          y.squeue = x.slug.squeue ∧ y.sg = x.slug.gwin ∧ y.sv = x.slug.vwin ∧ y.sd = x.slug.dwin ∧ y.issued = 0#64 ∧
          y.masks = [] ∧ y.ox = [] ∧ y.imps = [] ∧ y.cancel = none ∧ y.held = [] ∧
          y.tr = { vec := (s.program x.slug.program.toNat).trapVec } ∧
          y.ctl = { deadline := x.slug.deadline.setWidth 64, prio := x.slug.prio.setWidth 64 } ∧
          t.gReg c 2 = { val := privateTop c } ∧ t.gReg c 3 = { val := x.slug.dw2 } ∧ t.gReg c 4 = { val := x.slug.dw4 } ∧
          t.gReg c 5 = { val := x.slug.dw5 } ∧ t.gReg c 6 = { val := x.slug.dw6 } ∧ t.gReg c 7 = { val := x.slug.dw7 } ∧
          ∀ i, 8 ≤ i → i < x.slug.gwin → t.gReg c i = {}) ∧
        (∀ i cell q j, x.slug.fsave = true → x.src = some (q, j) → (s.queue q).ring = 0 →
          s.slotOfSlug g x.slug = some (coreOf c, i) → s.slotKey (coreOf c) i = some cell → s.poisoned cell 9728 = false →
          let e : SaveSlot := Map.get (s.core (coreOf c)).slots i {}
          let w (k : Nat) : Word := BitVec.ofNat 64 (s.load (cell + k) 8)
          y.cond = .pooled ∧ y.wait = .none ∧ y.pc = ((w 0x2480).extractLsb' 0 48).setWidth 64 ∧ y.ctl.fpctl = w 0x2490 ∧
          y.ctl.fpflags = w 0x2498 ∧ y.tr.vec = w 0x24A0 ∧ y.program = e.program ∧ y.epoch = e.epoch ∧ y.imps = e.imps ∧
          y.held = e.held ∧ (Map.get (t.core (coreOf c)).slots i {}).used = false ∧
          ∀ k, 0 < k → k < y.sg → (t.gReg c k).val = w (8 * k))))

/-- R43, R44, R359 to R361: PREEMPT_REQUEST and FORCED_SAVE complete in every state. A request is answered either way; one that may be met has a save
slot in use from then on. A save whose strand still has something to complete is put off with the context as it was; one that may end
writes the strand's image to the slot, the slug goes to its queue or to the pager, and the context is free; a poisoned register
loses the strand. Rests on readings of log entries 23, 37 and 59. -/
def SaveRule : Prop :=
  ∀ (s : State) (c : Nat),
    (∃ t, exec (.preemptRequest c) s = .next t ∧ t.outbox = s.outbox ++ [.preemptAnswer c (s.mayPreempt c)] ∧ CtxOnly s t c (s.ctx c) ∧
      SameG s t ∧ SameV s t ∧ t.net = s.net ∧
      (s.mayPreempt c = true ↔ (s.ctx c).cond = .pooled ∧ (s.ctx c).hold = .none ∧ s.reservationBound c = false ∧
        Instr.forcedSave c ∉ s.agenda ∧ (s.core (coreOf c)).freeSlot.isSome = true) ∧
      (s.mayPreempt c = false → t.cores = s.cores ∧ t.agenda = s.agenda) ∧
      (∀ i, s.mayPreempt c = true → (s.core (coreOf c)).freeSlot = some i → Instr.forcedSave c ∈ t.agenda ∧
        Map.get (t.core (coreOf c)).slots i {} = { used := true, ctx := c, epoch := (s.ctx c).epoch })) ∧
    (∃ t, exec (.forcedSave c) s = .next t ∧
      ((s.ctx c).cond ≠ .pooled → t = s) ∧
      ((s.ctx c).cond = .pooled → s.mayEndSave c = false → Instr.forcedSave c ∈ t.agenda ∧ ∃ a, t = { s with agenda := a }) ∧
      (∀ i cell, (s.ctx c).cond = .pooled → s.mayEndSave c = true → (∀ m ∈ s.net, m.src ≠ c) → s.slotFor c = some i →
        s.slotKey (coreOf c) i = some cell →
        (s.windowPoisoned c = true → (s.forme ((s.ctx c).program.toNat / 65536)).statusQ = 0 →
          (Map.get (t.core (coreOf c)).slots i {}).poison = true ∧ (t.ctx c).cond = (if s.inMask c then .pooledFree else .emptyWin)) ∧
        (s.windowPoisoned c = false → s.tracing (galOf c) = none → s.memWf →
          let x := s.ctx c
          let l := s.slugAt c x.pc false false
          let g : Slug := { l with dw2 := l.dw2 ||| 0x0002000000000000#64, dw3 := (s.core (coreOf c)).slotAddr i }
          ∃ u : State, t = u.homeSlug c x.wait g x.squeueKey x.program ∧
            (u.ctx c).cond = (if s.inMask c then .pooledFree else .emptyWin) ∧
            (∀ j, j < (s.slotImage c g).length → (s.slotImage c g)[j]? = some (u.byte (cell + j))) ∧
            (∀ a, a < cell ∨ cell + (s.slotImage c g).length ≤ a → u.byte a = s.byte a) ∧
            (let e : SaveSlot := Map.get (u.core (coreOf c)).slots i {}
             e.used = true ∧ e.ctx = c ∧ e.epoch = x.epoch ∧ e.imps = x.imps ∧ e.program = x.program ∧ e.held = x.held ∧
               e.stepPend = x.stepPend ∧ e.precise = x.precise ∧ e.skipBrk = x.skipBrk ∧ e.skipWatch = x.skipWatch) ∧
            ∀ d, d ≠ c → u.ctx d = s.ctx d)))

/-- R50, R294: CANCEL_SERVICE completes in every state. A level not known, or whose state is not 0, is left alone. Else every strand under it takes
CANCEL at its next slot and waits no more, no other context changes; every level under it is cancelling or cancelled; the queues of formes
under it are closed; the feeder operations of strands under it stop. Rests on a reading of log entry 69. -/
def CancelRule : Prop :=
  ∀ (s : State) (l : Nat), ∃ t, exec (.cancelService l) s = .next t ∧
    ((s.level l).known = false ∨ (s.level l).state ≠ 0 → t = s) ∧
    ((s.level l).known = true → (s.level l).state = 0 →
      (∀ c, t.ctx c = if c ∈ s.ctxs.map (·.1) ∧ (s.ctx c).occupied = true ∧ s.under l 4 (progKey (s.ctx c).program) = true
        then { s.ctx c with wait := .none, cancel := some (BitVec.ofNat 3 (l / 2 ^ 32)) } else s.ctx c) ∧
      (∀ k ∈ s.levels.map (·.1), s.under l 4 k = true → (s.level k).state = 0 → (t.level k).state = 2 ∨ (t.level k).state = 4) ∧
      (∀ q, (s.queue q).valid = true → s.under l 4 (levelKey 2 (s.queue q).owner.toNat) = true → (t.queue q).closed = true) ∧
      (∀ g i o, Map.find (s.galley g).feeder i = some o → s.under l 4 (progKey o.prog) = true →
        ∃ o', Map.find (t.galley g).feeder i = some o' ∧ o'.abort = true))

/-- R46, R48, R253, R419: a strand that retires is one live fewer and one finished more of its program, at once where the record lies on the package,
else by an operation that goes to it; the last live one of a cancelled program ends it. -/
def RetireRule : Prop :=
  ∀ (s : State) (p : Nat) (prog : BitVec 32) (c : Clock),
    let k := progKey prog
    let r := s.level k
    let t := s.retireChild p prog c
    (r.home = p → 2 ≤ r.live.toNat → (t.level k).live = r.live - 1 ∧ (t.level k).finished = r.finished + 1 ∧
      (t.level k).state = r.state ∧ ∀ l, l ≠ k → t.level l = s.level l) ∧
    (r.home = p → r.live = 1#32 → r.state = 4 → r.parent = 0 → (t.level k).live = 0#32 ∧ (t.level k).state = 2) ∧
    (r.home ≠ p → t.levels = s.levels ∧ t.agenda = s.agenda ++ [.bankAluOperation s.nextId] ∧
      ∃ m, t.net = s.net ++ [m] ∧ m.id = s.nextId ∧ m.kind = .level k .retired)

/-- R31, R32, R34, R35, R43, R44, R48, R50, R76, R253, R361, R419: strands placed, saved, cancelled and retired; each event completes in every state. -/
def Obligations.Dispatching : Prop := DispatchRule ∧ SaveRule ∧ CancelRule ∧ RetireRule

/-! ## Events: the engines -/

/-- The token of an operation of context c lands with a code, the flags of the operation are ORed into FPFLAGS, and no other register and
context changes (R101, R135, R268). -/
def TokenLands (s t : State) (c tok : Nat) (code : Int) (fl : Flags) : Prop :=
  FillG s t c tok (codeWord code) ∧ ∀ d, t.ctx d = if d = c then (s.ctx c).raised fl else s.ctx d

/-- The strand that issued an operation still runs in its context, and the token is no mapped register. -/
def TokenOwn (s : State) (c epoch tok : Nat) : Prop := (s.ctx c).epoch = epoch ∧ (s.ctx c).mapped tok = none

/-- R269 to R277, R294: FEED_COPY_END and FEEDQ_ENTRY complete in every state. A copy that meets nothing in its way writes all it has to, its token has
the code at which it stopped or 0, and its slot is free; one whose page is missing waits for it in its slot; a cancelled one writes a prefix
and ends with −6. A binding ends with −6 at a closed queue or a cancel, with −2 where its queues are not what they must be, and with 0 at its
colophon; it asks for queues that are not resident; a request writes, and its code is pushed to the output; a malformed one has −7.
Rests on readings of log entries 34 and 66. -/
def FeederRule : Prop :=
  ∀ (s : State) (g i : Nat),
    let dz := dieOfGal g
    (∃ t, exec (.feedCopyEnd g i) s = .next t ∧
      (Map.find (s.galley g).feeder i = none → t = s) ∧
      ∀ o, Map.find (s.galley g).feeder i = some o → TokenOwn s o.ctx o.epoch o.tok →
        let x := s.feedRun o.agent o.args (modeOf o.fpctl)
        (o.x7.getLsbD 63 = false → o.abort = false → x.miss = none → TokenLands s t o.ctx o.tok (x.stop.getD 0) x.flags ∧
          Map.find (t.galley g).feeder i = none ∧ t.mem = (s.putAll dz (o.clock.merge x.stamp) x.writes.reverse).1.mem) ∧
        (∀ m, o.x7.getLsbD 63 = false → o.abort = false → x.miss = some m → Instr.feedCopyEnd g i ∈ t.agenda ∧ t.mem = s.mem ∧ SameG s t ∧
          Map.find (t.galley g).feeder i = some { o with wait := some (onPkg (m.1 / 128) m.2.1, m.2.2 / 65536) }) ∧
        (o.x7.getLsbD 63 = false → o.abort = true → TokenLands s t o.ctx o.tok (-6) x.flags ∧ Map.find (t.galley g).feeder i = none ∧
          ∃ n, t.mem = (s.putAll dz (o.clock.merge x.stamp) (x.writes.reverse.take n)).1.mem) ∧
        (∀ c, s.boundTo o.agent o.x7 = .code c → o.abort = false → TokenLands s t o.ctx o.tok c 0#5 ∧ t.mem = s.mem ∧
          Map.find (t.galley g).feeder i = none)) ∧
    (∃ t, exec (.feedqEntry g i) s = .next t ∧
      (Map.find (s.galley g).feeder i = none → t = s) ∧
      ∀ o inq out, Map.find (s.galley g).feeder i = some o → o.kind = .bind inq out → TokenOwn s o.ctx o.epoch o.tok →
        let ends (code : Int) : Prop := TokenLands s t o.ctx o.tok code 0#5 ∧ Map.find (t.galley g).feeder i = none ∧ t.mem = s.mem
        let kept : Prop := ∃ o', Map.find (t.galley g).feeder i = some o' ∧ o'.got = none ∧ o'.kind = o.kind ∧ o'.tok = o.tok
        let tells (e : QEntry) (code : Int) : Prop := ∀ q, out = some q → (s.queue q).etype = 2#2 → OpenTo s q o.prog →
          Took s t q (completionRecord (requestTag e.payload) code)
        (o.got = some none → ends (-6)) ∧
        (o.got = none → o.abort = true → ends (-6)) ∧
        (o.got = none → o.abort = false → o.last = true → ends 0) ∧
        (o.got = none → o.abort = false → o.last = false → s.bindValid o inq out = false → ends (-2)) ∧
        (o.got = none → o.abort = false → o.last = false → s.bindValid o inq out = true → (s.queue inq).resident = false →
          Instr.queueMissService inq ∈ t.agenda ∧ Instr.feedqEntry g i ∈ t.agenda ∧ t.mem = s.mem ∧ SameG s t) ∧
        (∀ e, o.got = some (some e) → o.abort = false → (∀ q, out = some q → (s.queue q).ring = 0) →
          (e.kind = .colophon → out = none → ends 0) ∧
          (e.kind = .data → e.poison = true → t.mem = s.mem ∧ SameG s t ∧ Instr.feedqEntry g i ∈ t.agenda ∧ kept ∧ tells e (-3)) ∧
          (e.kind = .data → e.poison = false → requestOf e.payload = none → t.mem = s.mem ∧ SameG s t ∧ Instr.feedqEntry g i ∈ t.agenda ∧
            kept ∧ tells e (-7)) ∧
          (∀ r, e.kind = .data → e.poison = false → requestOf e.payload = some r →
            let x := s.feedRun o.agent r (modeOf o.fpctl)
            x.miss = none → SameG s t ∧ t.mem = (s.putAll dz (o.clock.merge x.stamp) x.writes.reverse).1.mem ∧
              Instr.feedqEntry g i ∈ t.agenda ∧ kept ∧ tells e (x.stop.getD 0))))

/-- R122, R278, R281 to R286, R420: PLATEN_OP_START and PLATEN_OP_END complete in every state. The head of the queue starts by reading its operands,
with nothing written; one that has started ends: an accumulator set is written, cleared or drained to local store, the plate is
loaded, records are sorted; its token lands, where it has one, its flags are ORed in, and the next may start.
Rests on a reading of log entry 35. -/
def PlatenRule : Prop :=
  ∀ (s : State) (core : Nat),
    (∃ t, exec (.platenOpStart core) s = .next t ∧
      ((s.core core).platenQ = [] → t = s) ∧
      (∀ o r, (s.core core).platenQ = o :: r → o.started = true → t = s) ∧
      (∀ o r, (s.core core).platenQ = o :: r → o.started = false → (t.core core).platenQ = s.platenStarted core o :: r ∧
        t.agenda = s.agenda ++ [.platenOpEnd core] ∧ t.mem = s.mem ∧ SameG s t ∧ SameV s t ∧ (∀ c, t.ctx c = s.ctx c) ∧
        (t.core core).acc = (s.core core).acc ∧ (t.core core).plate = (s.core core).plate)) ∧
    (∃ t, exec (.platenOpEnd core) s = .next t ∧
      ((s.core core).platenQ = [] → t = s) ∧
      (∀ o r, (s.core core).platenQ = o :: r → o.started = false → t = s) ∧
      ∀ o r, (s.core core).platenQ = o :: r → o.started = true → TokenOwn s o.ctx o.epoch o.tok →
        let ends (code : Int) (fl : Flags) : Prop := (o.tok ≠ 0 → TokenLands s t o.ctx o.tok code fl) ∧
          (o.tok = 0 → SameG s t ∧ ∀ d, t.ctx d = if d = o.ctx then (s.ctx d).raised fl else s.ctx d)
        let k := t.core core
        k.platenQ = r ∧ (r ≠ [] → Instr.platenOpStart core ∈ t.agenda) ∧
        (∀ z, o.kind = .mclr z → ends 0 0#5 ∧ t.mem = s.mem ∧ k.accPoison.contains z = false ∧ ∀ a b, a < 32 → b < 32 → k.accAt z a b = 0) ∧
        (o.kind = .mma → o.code = 0 → ends 0 o.flags ∧ t.mem = s.mem ∧
          ∀ a b, a < 32 → b < 32 → k.accAt o.set a b = (o.sums.getD (32 * a + b) 0#64).toNat) ∧
        (o.kind = .mma → o.code ≠ 0 → ends o.code o.flags ∧ t.mem = s.mem ∧ k.acc = (s.core core).acc ∧
          k.accPoison.contains o.set = true) ∧
        (∀ z f clr at_, o.kind = .mdrain z f clr at_ →
          let rs := ((s.core core).setVals z).map (drainOne f (modeOf o.fpctl))
          let e := drainElem f
          ((s.core core).accPoison.contains z = true → ends (-3) 0#5 ∧ t.mem = s.mem) ∧
          ((s.core core).accPoison.contains z = false → ends 0 (rs.foldl (fun fl r => fl ||| r.2) 0#5) ∧
            t.mem = (s.putAll (dieOf o.ctx) (o.clock.merge o.stamp)
              (drainRows core at_ (drainStride o.platecfg e) e (rs.map (·.1)))).1.mem) ∧
          (clr = true → ∀ a b, a < 32 → b < 32 → k.accAt z a b = 0) ∧ (clr = false → k.acc = (s.core core).acc)) ∧
        (∀ src at_ n, o.kind = .plld src at_ n → ends o.code 0#5 ∧ t.mem = s.mem ∧
          ∀ j, j < 64 * n → Map.get k.plate (at_ + j) 0#8 = o.bytes.getD j 0#8) ∧
        (∀ src dst n order, o.kind = .msort src dst n order →
          (o.code = 0 → ends 0 0#5 ∧ t.mem =
            (s.putAll (dieOf o.ctx) (o.clock.merge o.stamp) [(lsAddr core dst, lsKey core dst, o.bytes)]).1.mem) ∧
          (o.code ≠ 0 → ends o.code 0#5 ∧ t.mem = s.mem)))

/-- R295 to R299, R307, R308, R373: CONDENSER_OP_START and CONDENSER_OP_END complete in every state. The head of the queue starts by reading its
distribution sources; a DLD sends its load, a DST posts its stores and its context rejoins. One that has started ends: its destination has
the lanes under the mask, a vector register is present, the others keep their lanes and poison, and the flags are ORed in, or an
enabled exception is pending; the next may start. Rests on readings of log entry 35. -/
def CondenserRule : Prop :=
  ∀ (s : State) (core : Nat),
    (∃ t, exec (.condenserOpStart core) s = .next t ∧
      ((s.core core).condQ = [] → t = s) ∧
      (∀ o r, (s.core core).condQ = o :: r → o.started = true → t = s) ∧
      ∀ o r, (s.core core).condQ = o :: r → o.started = false →
        (t.core core).condQ = { o with started := true, srcA := s.dReg o.ctx o.kind.sources.1, srcB := s.dReg o.ctx o.kind.sources.2,
                                       msg := s.nextId } :: r ∧ t.mem = s.mem ∧ SameG s t ∧ SameV s t ∧
        ((∀ d tag, o.kind ≠ .ld d tag) → Instr.condenserOpEnd core ∈ t.agenda) ∧
        ((∀ d tag, o.kind ≠ .ld d tag) → (∀ a, o.kind ≠ .st a) → t.net = s.net ∧ ∀ c, t.ctx c = s.ctx c) ∧
        (∀ a, o.kind = .st a → ((s.ctx o.ctx).epoch = o.epoch → (t.ctx o.ctx).wait = .none) ∧
          (o.mask ≠ 0#16 → ∃ m, t.net = s.net ++ [m] ∧ m.kind = .store ∧ m.parts = dstParts o (s.dReg o.ctx a).img ∧
            m.posted = m.parts.length ∧ (t.ctx o.ctx).posted = (s.ctx o.ctx).posted + m.posted)) ∧
        (∀ d tag, o.kind = .ld d tag → t.agenda = s.agenda ++ [.memoryRequestAtHome s.nextId] ∧ ∃ m, t.net = s.net ++ [m] ∧
          m.id = s.nextId ∧ m.kind = .load ∧ m.parts = o.parts ∧ m.dest = .dist d o.mask tag)) ∧
    (∃ t, exec (.condenserOpEnd core) s = .next t ∧
      ((s.core core).condQ = [] → t = s) ∧
      (∀ o r, (s.core core).condQ = o :: r → o.started = false → t = s) ∧
      ∀ o r, (s.core core).condQ = o :: r → o.started = true →
        (t.core core).condQ = r ∧ (r ≠ [] → Instr.condenserOpStart core ∈ t.agenda) ∧
        (∀ d tag m, o.kind = .ld d tag → s.message o.msg = some m → m.refusal = none → s.live m = true → m.drop = false → m.kind = .load →
          ∀ mask, m.dest = .dist d mask tag →
          let img : BitVec 6144 := BitVec.ofNat 6144 (leNat (m.parts.flatMap (·.data)))
          t.dReg m.src d = { img := (maskedLanes (s.dReg m.src d).img mask (fun i => (laneOf img i, 0#5))).1, tag := tag,
                             poison := (s.dReg m.src d).poison &&& ~~~laneGranules mask }) ∧
        ((s.ctx o.ctx).epoch = o.epoch → (∀ d tag, o.kind ≠ .ld d tag) →
          (∀ d img tag fls, o.kind.vdest = none → s.condResult o = some (d, img, tag, fls) →
            let fl := fls.foldl (fun a f => a ||| f) 0#5
            t.dReg o.ctx d = { img := img, tag := tag, poison := (s.dReg o.ctx d).poison &&& ~~~laneGranules o.lanes } ∧
            SameG s t ∧ SameV s t ∧ t.mem = s.mem ∧
            (enabledFlags o.fpctl fl = 0#5 → ∀ c, t.ctx c = if c = o.ctx then (s.ctx c).raised fl else s.ctx c) ∧
            (enabledFlags o.fpctl fl ≠ 0#5 → ∃ p, (t.ctx o.ctx).imps = (s.ctx o.ctx).imps ++ [p] ∧ p.imp = true ∧ p.cause = causeFPX ∧
              p.pc = o.pc)) ∧
          (∀ v, o.kind.vdest = some v → o.abort = false → (t.vReg o.ctx v).st = .present ∧ SameG s t ∧ t.mem = s.mem ∧
            (t.vReg o.ctx v).poison = (s.vReg o.ctx v).poison &&& ~~~o.mask ∧ ∀ i, i < 16 →
              (o.mask.getLsbD i = false → vlane (t.vReg o.ctx v).val i = vlane (s.vReg o.ctx v).val i) ∧
              (o.mask.getLsbD i = true → ∀ y, (o.outLane i).1 = some y → vlane (t.vReg o.ctx v).val i = y % 2 ^ 32)) ∧
          (∀ v, o.kind.vdest = some v → o.abort = true → (s.vReg o.ctx v).st = .pending → SameG s t ∧ t.mem = s.mem ∧
            t.vReg o.ctx v = { s.vReg o.ctx v with st := .present })))

/-- R289, R290: the records of a group are put in the order of ascending key, source rank and source index, and each falls to the part that the
weight before it gives, or its position where no record has weight. -/
def RepartSplitRule : Prop :=
  (∀ a b : GRec, a.before b = true ↔ a.key < b.key ∨ (a.key = b.key ∧ (a.rank < b.rank ∨ (a.rank = b.rank ∧ a.idx ≤ b.idx)))) ∧
  (∀ l : List GRec, (sortGRecs l).Perm l ∧ (sortGRecs l).Pairwise (fun a b => a.before b = true)) ∧
  ∀ (parts : Nat) (l : List GRec),
    let w (k : Nat) : Nat := ((l.take k).map (·.w)).sum
    (splitParts parts l).map (·.1) = l ∧ ∀ i x, (splitParts parts l)[i]? = some x →
      x.2 = if w l.length = 0 then parts * i / l.length else min (parts - 1) (parts * w i / w l.length)

/-- R289, R291, R294: REPART_MOVEMENT, no rank cancelled. A rank accepts the records of its part that others hold, in the group's order up to its
capacity; they stand from its receive base on by source rank and source order, and those a rank keeps, its own part's and the refused ones,
from its record base on in their order, each with the bytes it had and its key where the descriptor asks for it. Every other byte is kept. The
status record has the counts; a rank with a poisoned record ends with −3. -/
def RepartMovementRule : Prop :=
  ∀ (s : State) (h : Nat),
    let os := s.heads h
    let n := os.length
    let recs (i : Nat) : List GRec := match os[i]? with | some o => o.rankRecs i | none => []
    let all := (List.range n).flatMap recs
    let split := splitParts n (sortGRecs all)
    let wants (r : Nat) : List GRec := (split.filter (fun x => x.2 == r && x.1.rank != r)).map (·.1)
    let gets (r : Nat) : List GRec := (wants r).take (match os[r]? with | some o => o.cap | none => 0)
    let leaves (x : GRec) : Bool := (List.range n).any (fun r => (gets r).contains x)
    let keeps (r : Nat) : List GRec := (recs r).filter (fun x => !leaves x)
    let lies (r : Nat) (o : RepOp) : List (Nat × GRec) := o.places (all.filter (fun x => (gets r).contains x)) (keeps r)
    let put (r : Nat) (o : RepOp) (e : Nat × GRec) (i : Nat) : Prop := os[r]? = some o ∧ e ∈ lies r o ∧ i < o.stride
    (∀ o ∈ os, o.cancel = false) → (∀ o ∈ os, ∀ o' ∈ os, o.stride = o'.stride) → s.memWf →
    ∃ t, exec (.repartMovement h) s = .next t ∧
      (∀ k, (∀ r o e i, put r o e i → o.cell (e.1 + i) ≠ k) → t.byte k = s.byte k) ∧
      ((∀ r o e i r' o' e' i', put r o e i → put r' o' e' i' → o.cell (e.1 + i) = o'.cell (e'.1 + i') → r = r' ∧ e = e' ∧ i = i') →
        ∀ r o e i src, put r o e i → os[e.2.rank]? = some src → t.byte (o.cell (e.1 + i)) =
          if src.keyAt ≠ 0xFFFF ∧ src.keyAt ≤ i ∧ i < src.keyAt + 8 then (leBytes 8 e.2.key).getD (i - src.keyAt) 0#8
          else s.byte (src.readCell (src.base + e.2.idx * src.stride + i))) ∧
      ((s.ranks h).Nodup → s.pkgs.Pairwise (fun a b => a.1 < b.1) → (∀ (r : Nat) (o : RepOp), os[r]? = some o → (s.ranks h)[r]? = some o.pkg) →
        ∀ r o, os[r]? = some o →
        let own := (recs r).filter (fun x => split.contains (x, r))
        ∃ o' q, (t.group o.pkg h).queue = o' :: q ∧ o'.tok = o.tok ∧ o'.ctx = o.ctx ∧ o'.stat = o.stat ∧
          o'.code = (if (recs r).any (fun x => s.repPoisoned o (o.base + x.idx * o.stride) o.stride) then -3 else 0) ∧
          recNat o'.status 0 4 = own.length % 2 ^ 32 ∧ recNat o'.status 4 4 = ((recs r).filter leaves).length % 2 ^ 32 ∧
          recNat o'.status 8 4 = (gets r).length % 2 ^ 32 ∧ recNat o'.status 12 4 = ((wants r).length - (gets r).length) % 2 ^ 32 ∧
          recNat o'.status 16 4 = ((keeps r).length - own.length) % 2 ^ 32 ∧ recNat o'.status 28 4 = 0 ∧
          recNat o'.status 56 8 = (keeps r).length % 2 ^ 64)

/-- R123, R287 to R291, R294, R335: REPART_RANKS_GATHERED, REPART_MOVEMENT and REPART_END complete in every state. Nothing happens while a rank has not
issued and none is to abort, nor past the gathering; ranks that agree and are found in order enter the movement, their keys written where they ask
for it; the movement, or an abort for a cancel, gives every rank its end, a cancel before all have issued those that have, and each of the others with
its next REPART; the end of a rank writes its status record and lands its token.
Rests on readings of log entries 36 and 37. -/
def RepartRule : Prop :=
  ∀ (s : State) (h : Nat),
    let os := s.heads h
    let fresh : Prop := ∀ p ∈ s.ranks h, (s.group p h).phase = 0 ∧ (s.group p h).owed = []
    (∃ t, exec (.repartRanksGathered h) s = .next t ∧
      (s.ranks h = [] ∨ (∃ p ∈ s.ranks h, (s.group p h).phase ≠ 0) → t = s) ∧
      (os.length ≠ (s.ranks h).length → (∀ p ∈ s.ranks h, (s.group p h).owed = []) → (∀ o ∈ os, o.cancel = false) → t = s) ∧
      (fresh → os.length < (s.ranks h).length → (s.ranks h).Nodup → s.pkgs.Pairwise (fun a b => a.1 < b.1) → (∀ o ∈ os, s.statMiss o = none) →
        (∀ p ∈ s.ranks h, ∀ o ∈ (s.group p h).queue.head?, o.pkg = p) → (∃ o ∈ os, o.cancel = true) → SameG s t ∧ SameV s t ∧ t.mem = s.mem ∧
        ∀ r p, (s.ranks h)[r]? = some p →
          (∀ o q, (s.group p h).queue = o :: q → Instr.repartEnd h r ∈ t.agenda ∧
            ∃ o', (t.group p h).queue = o' :: q ∧ o'.code = -6 ∧ o'.tok = o.tok) ∧
          ((s.group p h).queue = [] → (t.group p h).queue = [] ∧ (t.group p h).owed.length = 1)) ∧
      (fresh → os.length = (s.ranks h).length → os ≠ [] → (∀ o ∈ os, ∃ o', s.gathered o = .inr o') → (∀ o ∈ os, (os.headD o).agrees o = true) →
        t.agenda.getLast? = some (.repartMovement h) ∧ SameG s t ∧ SameV s t ∧ (∀ o ∈ os, (t.group o.pkg h).phase = 1) ∧
        ((∀ o ∈ os, o.keyAt = 0xFFFF) → t.mem = s.mem)) ∧
      (fresh → os.length = (s.ranks h).length → os ≠ [] → (∀ o ∈ os, ∃ o', s.gathered o = .inr o') → (∃ o ∈ os, (os.headD o).agrees o = false) →
        (∀ o ∈ os, s.statMiss o = none) → s.pkgs.Pairwise (fun a b => a.1 < b.1) → SameG s t ∧ SameV s t ∧ t.mem = s.mem ∧
        ∀ r, r < os.length → Instr.repartEnd h r ∈ t.agenda)) ∧
    (∃ t, exec (.repartMovement h) s = .next t ∧ SameG s t ∧ SameV s t ∧
      ((∀ o ∈ os, o.cancel = false) → (∀ o ∈ os, (t.group o.pkg h).phase = 2) ∧ ∀ r, r < os.length → Instr.repartEnd h r ∈ t.agenda) ∧
      ((∃ o ∈ os, o.cancel = true) → t.mem = s.mem ∧ ∀ r p o q, (s.ranks h)[r]? = some p → (s.group p h).queue = o :: q →
        Instr.repartEnd h r ∈ t.agenda ∧ ∃ o', (t.group p h).queue = o' :: q ∧ o'.code = -6 ∧ o'.tok = o.tok)) ∧
    (∀ r, ∃ t, exec (.repartEnd h r) s = .next t ∧
      ((s.ranks h)[r]? = none → t = s) ∧
      (∀ p, (s.ranks h)[r]? = some p → (s.group p h).queue = [] → t = s) ∧
      (∀ p o q, (s.ranks h)[r]? = some p → (s.group p h).queue = o :: q → TokenOwn s o.ctx o.epoch o.tok →
        TokenLands s t o.ctx o.tok o.code 0#5 ∧ (t.group p h).queue = q ∧ (t.group p h).phase = 0 ∧
        t.mem = (s.putAll o.die o.clock (if o.statOk then [(o.stat, o.cell o.stat, o.status)] else [])).1.mem))

/-- R101, R102, R122, R123, R269 to R299: the engines; each event of theirs completes in every state. -/
def Obligations.EngineEvents : Prop :=
  FeederRule ∧ PlatenRule ∧ CondenserRule ∧ RepartRule ∧ RepartSplitRule ∧ RepartMovementRule

/-! ## Events: formes -/

/-- R57, R73 to R75, R319, R324, R408: formes. A malformed image loads nothing; one the plan places has its programs, levels, code and record
written and the load is reported. A gang waits for the reports of its packages and begins at its tick, or is put off by 200,000 ns: a report after the
deadline holds it back, and a package that is unsynchronised at the tick (R408). A replacement
marks the quiesce word; once the mark has reached every sink and the instances have suspended, the program is exchanged for one that declares
the same, and fresh slugs take the place of its suspension slugs. An unload closes the queues and forgets the programs.
Rests on readings of log entries 39 to 42 and 71. -/
def Obligations.FormeEvents : Prop :=
  ∀ (s : State) (p f : Nat) (b : List Byte) (pl₀ : FormePlan),
    (parseImage b = none → exec (.formeLoad p b pl₀) s = .next (s.emit (.answer p (-7)))) ∧
    (∀ img, parseImage b = some img →
      let key := s.imposition b pl₀
      let pl := s.placed p key img pl₀
      (∀ r, s.rejection img pl = some r → (s.forme pl.forme).loaded = true → exec (.formeLoad p b pl₀) s =
        .next (s.pushStatus p pl.forme r.1 r.2.1 (BitVec.ofNat 64 r.2.2.1) (BitVec.ofNat 64 r.2.2.2))) ∧
      (s.rejection img pl = none → (s.forme pl.forme).loaded = false → pl.packages = [p] → pl.slugs = [] →
        ∃ t, exec (.formeLoad p b pl₀) s = .next t ∧ t.outbox.getLast? = some (.loadDone p key) ∧
          (t.forme pl.forme).loaded = true ∧ (t.forme pl.forme).job = BitVec.ofNat 16 pl.job ∧
          (t.forme pl.forme).run = BitVec.ofNat 16 pl.run ∧ (t.pkg p).lastImage = Config.sha384 (imageBytes b) ∧
          (∀ i g, img.programs[i]? = some g → t.program (pl.forme * 65536 + i) = progRecord img pl i g (pl.codeAt.getD i 0#64) ∧
            t.level (levelKey 1 (pl.forme * 65536 + i)) = { known := true, parent := levelKey 2 pl.forme, home := p }) ∧
          ∀ g, img.programs = [g] → img.queues = [] → g.data = [] → s.memWf → ∃ u : State,
            (let bs := relocated img pl 0 false g.code
             u.bytes (physKey p (pl.codePhys.getD 0 0)) bs.length = bs) ∧ t.mem = (u.clearQuiesce p pl).mem)) ∧
    (∃ t, exec (.gangReadyReport f p) s = .next t ∧ (t.forme f).ready.contains p = true ∧ (∀ q, q ≠ p →
      ((t.forme f).ready.contains q = (s.forme f).ready.contains q)) ∧ t.mem = s.mem ∧ t.queues = s.queues ∧ t.agenda = s.agenda ∧
      (∀ tick, (s.forme f).gang = some tick → (s.forme f).ready.contains p = false → (s.forme f).tardy = none →
        dist ((tick - 10000#64).setWidth 48) (s.time (leastOf (s.forme f).packages)) < 0 → t.holdsBack f = some p)) ∧
    (∀ tick, (s.forme f).gang = some tick →
      (s.holdsBack f = none → ∃ t, exec (.gangReadyDeadline f) s = .next t ∧
        t.agenda = s.agenda ++ (s.forme f).packages.map (fun q => .gangStartTick f q) ∧ t.mem = s.mem ∧ t.forme f = s.forme f) ∧
      (∀ q, s.holdsBack f = some q → ∃ t, exec (.gangReadyDeadline f) s = .next t ∧ Instr.gangReadyDeadline f ∈ t.agenda ∧
        (∀ r, Instr.gangStartTick f r ∉ t.agenda) ∧ (t.forme f).tardy = none ∧ (t.forme f).gang = some ((s.time (leastOf (s.forme f).packages) + 200000#48).setWidth 64))) ∧
    ((s.forme f).started = [] → (∃ q ∈ (s.forme f).packages, (s.pkg q).synced = false) → exec (.gangStartTick f p) s = .next s) ∧
    (∀ l, (s.forme f).loaded = true → (s.forme f).started.contains p = false →
      (∀ q ∈ (s.forme f).packages, (s.pkg q).synced = true) → (s.forme f).pending.filter (fun e => e.1 == p) = [(p, l)] →
      let q := (s.forme f).job.toNat * 65536 + l.squeue.toNat
      OpenTo s q l.program → ∃ t, exec (.gangStartTick f p) s = .next t ∧ Took s t q l.bits ∧
        (t.level (progKey l.program)).live = (s.level (progKey l.program)).live ∧
        (t.forme f).started = (s.forme f).started ++ [p] ∧ (t.forme f).pending = (s.forme f).pending.filter (fun e => e.1 != p)) ∧
    (∀ (prog k : BitVec 32),
      let x := s.forme (prog.toNat / 65536)
      let at_ := s.walkCell (leastOf x.packages) x.job.toNat x.quiesceAt.toNat
      (at_ = none → exec (.programReplacement prog k) s = .next s) ∧
      (∀ cell leaf, at_ = some (cell, leaf) → s.memWf → ∃ t, exec (.programReplacement prog k) s = .next t ∧ t.load cell 8 = k.toNat ∧
        (∀ a, a < cell ∨ cell + 8 ≤ a → t.byte a = s.byte a) ∧
        t.program prog.toNat = { s.program prog.toNat with quiesced := some k })) ∧
    (∀ (prog k : BitVec 32) (new : NewProgram) (at_ : Word),
      let x := s.program prog.toNat
      let g := new.prog
      let drained : Prop := x.quiesced = some k ∧ s.markReached (prog.toNat / 65536) k = true ∧ s.suspended prog = true
      (¬drained → exec (.replacementRegionDrained prog k new at_) s = .next s) ∧
      (drained → s.replaceable prog.toNat new = false → ∃ t, exec (.replacementRegionDrained prog k new at_) s = .next t ∧
        t.program prog.toNat = { x with quiesced := none }) ∧
      (drained → s.replaceable prog.toNat new = true → ∃ t, exec (.replacementRegionDrained prog k new at_) s = .next t ∧
        t.program prog.toNat = { x with
          codeAt := at_, entry := g.entry, gwin := g.gwin, vwin := g.vwin, dwin := g.dwin, folios := g.folios
          trapVec := (match g.trapOff with | some o => at_ + BitVec.ofNat 64 o | none => 0#64), quiesced := none } ∧
        ∀ q, (s.queue q).etype = 3#2 → (t.queue q).entries = (s.queue q).entries.map (fun e =>
          if (slugOf e.payload).program = prog then { e with payload := (freshSlug (slugOf e.payload) g at_).bits } else e))) ∧
    (∃ t, exec (.formeUnload f) s = .next t ∧ (t.forme f).loaded = false ∧ (t.forme f).pending = [] ∧ (t.forme f).gang = none ∧
      (∀ e ∈ t.programs, e.1 / 65536 ≠ f) ∧ (∀ g, g ≠ f → t.forme g = s.forme g) ∧
      ∀ q, (s.queue q).valid = true → (s.queue q).owner.toNat = f → q / 65536 = (s.forme f).job.toNat → (t.queue q).closed = true)

/-- R338 to R343, R347: the host. It reads and writes the memory of its bound job through the HDM range, pushes to and pops from its queues, waits
and wakes; what it may not do returns all-ones or is discarded and sets HSTATUS.bad, an access of BAR0 other than a read of a register and one of
BAR2 other than a pop of 16 bytes among them. A marker at the head of a queue is
refused and stays. An attestation is written signed to the address it names.
Rests on readings of log entry 33. -/
def Obligations.HostEvents : Prop :=
  ∀ (s : State) (p : Nat),
    let job := (s.pkg p).hjob
    let tells (i : Instr) (o : Output) : Prop := exec i s = .next (s.emit o)
    let bad (i : Instr) : Prop := ∃ t, exec i s = .next t ∧ t = s.updPkg p (fun x => { x with hstatus := x.hstatus ||| 2#64 })
    let badRead (i : Instr) (n : Nat) : Prop := ∃ t, exec i s = .next t ∧
      t = (s.updPkg p (fun x => { x with hstatus := x.hstatus ||| 2#64 })).emit (.hostAnswer p (allOnes n) false)
    (∀ off n,
      let a := (s.pkg p).hwinbase.toNat % 2 ^ 56 + off
      (hdmSize < off + n ∨ s.hostCells p a n .load = none → tells (.hostHdmAccess p off n none) (.hostAnswer p (allOnes n) true)) ∧
      (∀ ks, off + n ≤ hdmSize → s.hostCells p a n .load = some ks → tells (.hostHdmAccess p off n none)
        (.hostAnswer p (ks.flatMap (fun x => s.bytes x.1 x.2)) (ks.any (fun x => s.poisoned x.1 x.2)))) ∧
      (∀ bs k, bs.length = n → off + n ≤ hdmSize → s.hostCells p a n .store = some [(k, n)] → s.memWf →
        ∃ t, exec (.hostHdmAccess p off n (some bs)) s = .next t ∧ t.bytes k n = bs ∧
          (∀ b, b < k ∨ k + n ≤ b → t.byte b = s.byte b) ∧ t.queues = s.queues ∧ ∀ c, t.ctx c = s.ctx c)) ∧
    (∀ (h : Half) (data : List Byte),
      (s.hostQueue p h = none → bad (.hostQueuePush p h data) ∧ badRead (.hostQueuePop p h) 16) ∧
      ∀ q, s.hostQueue p h = some q →
        let x := s.queue q
        (data.length ≠ 64 ∨ x.producers.contains 0xFFFE#16 = false → bad (.hostQueuePush p h data)) ∧
        (data.length = 64 → x.producers.contains 0xFFFE#16 = true → 256 ≤ s.hostInFlight p → ∃ t, exec (.hostQueuePush p h data) s =
          .next t ∧ t = s.updPkg p (fun x => { x with hstatus := x.hstatus ||| 1#64 })) ∧
        (data.length = 64 → x.producers.contains 0xFFFE#16 = true → s.hostInFlight p < 256 → x.resident = true →
          OpenTo s q hostProg → ∃ t, exec (.hostQueuePush p h data) s = .next t ∧
            Took s t q (BitVec.ofNat 512 (leNat (if x.etype = 0#2 then data.take 8 else data)))) ∧
        (x.etype ≠ 0#2 ∨ x.consumers.contains 0xFFFE#16 = false → badRead (.hostQueuePop p h) 16) ∧
        (x.etype = 0#2 → x.consumers.contains 0xFFFE#16 = true →
          (s.meet q 0xFFFE#16 = .closed → tells (.hostQueuePop p h) (.hostAnswer p (popBytes 0 3#64) false)) ∧
          (s.meet q 0xFFFE#16 = .ended → tells (.hostQueuePop p h) (.hostAnswer p (popBytes 0 1#64) false)) ∧
          (s.meet q 0xFFFE#16 = .nothing → tells (.hostQueuePop p h) (.hostAnswer p (popBytes 0 4#64) false)) ∧
          (∀ i e, s.meet q 0xFFFE#16 = .entry i e → e.kind ≠ .data → badRead (.hostQueuePop p h) 16) ∧
          (∀ i e, s.meet q 0xFFFE#16 = .entry i e → e.kind = .data → x.waitPush = [] → x.waitPop = [] →
            ∃ t, exec (.hostQueuePop p h) s = .next t ∧ (t.queue q).entries = (x.take 0xFFFE#16 i).entries ∧
              t.outbox = s.outbox ++ [.hostAnswer p
                (leBytes 8 (e.payload.extractLsb' 0 64).toNat ++ leBytes 8 (popStatus 0#2 0 e).toNat) e.poison]))) ∧
    (∀ v, ∃ t, exec (.hstatusWrite p v) s = .next t ∧
      t = s.updPkg p (fun x => { x with hstatus := x.hstatus &&& ~~~(v &&& 3#64) })) ∧
    (∀ off n, bad (.hostBadAccess p ⟨false, off, n, false⟩) ∧ bad (.hostBadAccess p ⟨true, off, n, false⟩) ∧
      (n ≠ 8 ∨ (off ≠ 0 ∧ off ≠ 8 ∧ off ≠ 16) → badRead (.hostBadAccess p ⟨false, off, n, true⟩) n) ∧
      (n ≠ 16 ∨ off % 64 ≠ 0 ∨ off < 0x400000 ∨ 0x800000 ≤ off → badRead (.hostBadAccess p ⟨true, off, n, true⟩) n)) ∧
    (∀ h : Half, exec (.hostBadAccess p ⟨true, 0x400000 + 64 * h.toNat, 16, true⟩) s = exec (.hostQueuePop p h) s) ∧
    tells (.hostBadAccess p ⟨false, 0, 8, true⟩) (.hostAnswer p (leBytes 8 (s.pkg p).hstatus.toNat) false) ∧
    tells (.hostBadAccess p ⟨false, 8, 8, true⟩) (.hostAnswer p (leBytes 8 (s.pkg p).hjob.toNat) false) ∧
    tells (.hostBadAccess p ⟨false, 16, 8, true⟩) (.hostAnswer p (leBytes 8 (s.pkg p).hwinbase.toNat) false) ∧
    (∀ job base, ∃ t, exec (.hostFunctionJobBind p job base) s = .next t ∧
      t = s.updPkg p (fun x => { x with hjob := job, hwinbase := base &&& 0x00FFFFFFFFFFFFFF#64 })) ∧
    (∀ req : List Byte,
      let a := recNat req 0 8
      let done_ (at_ st : Nat) : Output := .hostWrite p (BitVec.ofNat 64 at_) (leBytes 8 (2 ^ 63 + st))
      (job = 0#16 ∨ req.length ≠ 64 → bad (.hwait p req) ∧ bad (.hwake p req) ∧ bad (.hattest p req)) ∧
      (job ≠ 0#16 → req.length = 64 →
        (a % 8 ≠ 0 ∨ recNat req 24 8 % 8 ≠ 0 ∨ zeroFrom req 32 = false → bad (.hwait p req)) ∧
        (a % 8 = 0 → recNat req 24 8 % 8 = 0 → zeroFrom req 32 = true →
          (tableFull (s.pkg p).waiters job a = true → tells (.hwait p req) (done_ (recNat req 24 8) 3)) ∧
          (tableFull (s.pkg p).waiters job a = false → ∀ ks, s.hostCells p a 8 .load = some ks →
            (leNat (s.hostRead ks) ≠ recNat req 8 8 → tells (.hwait p req) (done_ (recNat req 24 8) 1)) ∧
            (leNat (s.hostRead ks) = recNat req 8 8 → ∃ t, exec (.hwait p req) s = .next t ∧ t.mem = s.mem ∧ t.outbox = s.outbox ∧
              (t.pkg p).waiters = (s.pkg p).waiters ++ [{ job := job, addr := a, msg := s.nextId
                                                          hostAt := some (BitVec.ofNat 64 (recNat req 24 8))
                                                          deadline := BitVec.ofNat 64 (recNat req 16 8) }]))) ∧
        (zeroFrom req 24 = true → ∃ t, exec (.hwake p req) s = .next t ∧ t.mem = s.mem ∧
          (let l := matching (s.pkg p).waiters job a (recNat req 8 8)
           (t.pkg p).waiters = (s.pkg p).waiters.filter (fun w => !l.contains w) ∧
           (recNat req 16 8 ≠ 0 → t.outbox.getLast? = some (done_ (recNat req 16 8) l.length)))) ∧
        (zeroFrom req 56 = true → recNat req 48 8 % 64 = 0 →
          let body := s.attestBody p (req.take 48)
          tells (.hattest p req) (.hostWrite p (BitVec.ofNat 64 (recNat req 48 8))
            (body ++ leBytes 96 (Config.ecdsaSign (Config.serial p) (Config.sha384 body)).toNat)))))

/-! ## Events: boot, leadership, keys, groups and time -/

/-- Package p has been reset: its contexts are as after reset, other packages' contexts are as they were, memory keeps its bytes, and its local
stores have no poison (R373). -/
def HasReset (s t : State) (p : Nat) : Prop :=
  (∀ c, t.ctx c = if pkgOf c = p then Ctx.initial c else s.ctx c) ∧ t.mem = s.mem ∧ (∀ m ∈ t.net, pkgOf m.src ≠ p) ∧
  t.poison = s.poison.filter (fun g => g / 2 ^ 56 != p || !isLs g)

/-- R344 to R346, R413, R416: boot. A power-on takes the copy of the boot record that is good, resets the package and begins step 1 with outcome 3
and one more attempt; a step that is done is recorded and the next begins; a failed one is tried again on its alternate path, three times in all,
and then the boot stops with BOOTERR_N low. Step 2 accepts no image that fails its checks; what step 5 or 6 finds is given up, step 6 with the links
marked down since and no other; until step 9 is done HSTATUS shows no rank and no leader.
A rail fault and a thermal trip hold the package in reset. Rests on readings of log entry 44. -/
def Obligations.BootEvents : Prop :=
  ∀ (s : State) (p : Nat),
    let x := s.pkg p
    let n := x.bootStep
    let e := x.step n
    (∀ good other inputs,
      let r := x.chooseRecord good other
      (r = if good then (x.boot, x.bootOther) else if other then (x.bootOther, x.boot) else ({}, {})) ∧
      ∃ t, exec (.powerOnBoot p ⟨good, other, inputs⟩) s = .next t ∧ HasReset s t p ∧ (t.pkg p).booting = true ∧ (t.pkg p).booterr = false ∧
        (t.pkg p).bootStep = 1 ∧ ((t.pkg p).step 1).outcome = 3 ∧
        ((t.pkg p).step 1).attempts = (Map.get r.1.steps 1 {}).attempts + 1 ∧ (t.pkg p).boot.seq = r.1.seq + 1 ∧
        (t.pkg p).inputs = inputs ∧ (t.pkg p).minVersion = x.minVersion) ∧
    (∀ ok path digest seen,
      let found := x.findings n seen
      let good : Prop := ok = true ∧ (n ≠ 2 ∨ x.accepts (x.firmware p) = true) ∧ ¬(x.tries = 0 ∧ needsAlternate n found = true)
      (x.booting = false → exec (.bootStepEnd p ok path digest seen) s = .next s) ∧
      (x.booting = true → good → ∃ t,
        let q := donePath n e path
        exec (.bootStepEnd p ok path digest seen) s = .next t ∧ t.mem = s.mem ∧
        ((t.pkg p).step n).outcome = doneOutcome n x.tries q ∧
        ((t.pkg p).step n).attempts = 0 ∧ ((t.pkg p).step n).path = q ∧ ((t.pkg p).step n).digest = digest ∧
        (n = 5 → ∀ g, g ∈ (t.pkg p).mappedOut ↔ 2 ≤ failedIn found g) ∧ (n = 6 → (t.pkg p).fellDown = [] ∧ ∀ l, (t.link p l).down = true ↔ l ∈ found.map (·.1)) ∧
        (n = 8 → x.skips 9 = false → (t.pkg p).hstatus.getLsbD 2 = false ∧ (t.pkg p).hstatus.extractLsb' 32 8 = 0xFF#8) ∧
        (10 ≤ n → (t.pkg p).booting = false ∧ ((t.pkg p).firmware p).version.ule (t.pkg p).minVersion) ∧
        (n < 10 → x.skips (n + 1) = false → (t.pkg p).bootStep = n + 1 ∧ ((t.pkg p).step (n + 1)).outcome = 3 ∧
          ((t.pkg p).step (n + 1)).attempts = (x.step (n + 1)).attempts + 1 ∧ (t.pkg p).booting = true)) ∧
      (x.booting = true → ¬good →
        (n ≠ 1 → x.tries < 2 → ∃ t, exec (.bootStepEnd p ok path digest seen) s = .next t ∧ (t.pkg p).bootStep = n ∧
          ((t.pkg p).step n).outcome = 3 ∧ ((t.pkg p).step n).attempts = e.attempts + 1 ∧ (t.pkg p).tries = x.tries + 1 ∧
          (n = 2 → x.tries = 0 → ((t.pkg p).step 2).path = 1#32 - e.path) ∧ (t.pkg p).booting = true) ∧
        (n = 1 ∨ 2 ≤ x.tries → ∃ t, exec (.bootStepEnd p ok path digest seen) s = .next t ∧ (t.pkg p).booting = false ∧
          (t.pkg p).booterr = true ∧ ((t.pkg p).step n).outcome = 2 ∧ (n = 1 → (t.pkg p).reset = true ∧ HasReset s t p)))) ∧
    (∃ t, exec (.railFault p) s = .next t ∧ HasReset s t p ∧ (t.pkg p).reset = true ∧ (t.pkg p).booterr = true ∧
      (t.pkg p).booting = false ∧ (x.booting = true → n = 1 → ((t.pkg p).step 1).outcome = 2)) ∧
    (∃ t, exec (.thermalTrip p) s = .next t ∧ HasReset s t p ∧ (t.pkg p).reset = true ∧ ((t.pkg p).step 1).outcome = 2)

/-- R348, R349: leadership. A package that hears no heartbeat announces the round after the highest it knows; a better candidacy, first by round and then by
serial, makes it withdraw; one not withdrawn leads. A LEAD is accepted only when signed, with a torus that may be, and not beaten; a leader that
one beats sends its signed YIELD. A follower obeys signed commands of its leader and counts the rest. -/
def LeadershipRule : Prop :=
  ∀ (s : State) (p : Nat) (round serial : Word),
    let l := (s.pkg p).lead
    let me := Config.serial p
    let lead (t : State) := (t.pkg p).lead
    let h : Word := maxRound l.highest ((s.pkg p).step 9).round + 1
    let announces (i : Instr) : Prop := ∃ t, exec i s = .next t ∧ (lead t).best = (h, me) ∧ (lead t).announced = true ∧
      (lead t).withdrawn = false ∧ (lead t).highest = h ∧ me ∈ (lead t).members ∧ ((t.pkg p).step 9).round = h ∧
      t.outbox = s.outbox ++ [.message p msgCandidacy h me]
    (beats (round, serial) l.best = true ↔ l.best.1.toNat < round.toNat ∨ (l.best.1 = round ∧ l.best.2.toNat < serial.toNat)) ∧
    (l.listening = true → l.heard = false → announces (.heartbeatListenTimeout p)) ∧
    (l.listening = false ∨ l.heard = true → exec (.heartbeatListenTimeout p) s = .next s) ∧
    (l.leads = false → announces (.leaderLossTimeout p)) ∧ (l.leads = true → exec (.leaderLossTimeout p) s = .next s) ∧
    (l.seen.contains (msgCandidacy, round, serial) = true → exec (.candidacyReceived p round serial) s = .next s) ∧
    (l.seen.contains (msgCandidacy, round, serial) = false → ∃ t, exec (.candidacyReceived p round serial) s = .next t ∧
      t.outbox = s.outbox ++ [.message p msgCandidacy round serial] ∧ (lead t).seen.contains (msgCandidacy, round, serial) = true ∧
      round.ule (lead t).highest ∧ serial ∈ (lead t).members ∧
      (beats (round, serial) l.best = true → (lead t).withdrawn = true ∧ (lead t).best = (round, serial) ∧
        ((t.pkg p).step 9).round = round) ∧
      (beats (round, serial) l.best = false → (lead t).withdrawn = l.withdrawn ∧ (lead t).best = l.best)) ∧
    (l.announced = true → l.withdrawn = false → l.leads = false → ∃ t, exec (.candidacyQuietTimeout p) s = .next t ∧
      (lead t).leads = true ∧ (lead t).leader = some l.best ∧ (t.pkg p).rank = some (l.members.findIdx (· == l.best.2)) ∧
      (lead t).collected = (s.pkgs.filter (fun e => e.1 != p)).map (fun e => (e.1, e.2.boot.steps, e.2.lead.done.map (·.1))) ∧
      ∃ m : LeadMsg, m.round = l.best.1 ∧ m.serial = l.best.2 ∧ m.members = l.members ∧ m.signed = true ∧ m.dims = torusDims ∧
        m.coords = l.members.map torusOf ∧ torusOk m = true ∧ t.outbox = s.outbox ++
        [.lead p m (Config.certificate p) (Config.ecdsaSign m.serial (Config.sha384 (leadBytes m (Config.certificate p))))]) ∧
    (l.announced = false ∨ l.withdrawn = true ∨ l.leads = true → exec (.candidacyQuietTimeout p) s = .next s) ∧
    (∀ m : LeadMsg,
      (m.signed = false ∨ torusOk m = false ∨ beats l.best (m.round, m.serial) = true → exec (.leadReceived p m) s = .next s) ∧
      (∀ c, l.leader = some c → m.signed = true → torusOk m = true → beats l.best (m.round, m.serial) = false → l.leads = true → m.serial ≠ me →
        ∃ t, exec (.leadReceived p m) s = .next t ∧ (lead t).leads = false ∧ (lead t).leader = some (m.round, m.serial) ∧
          (beats (m.round, m.serial) c = true → t.outbox = s.outbox ++
            [.yields p m.round m.serial (Config.ecdsaSign me (Config.sha384 (yieldBytes m.round m.serial)))])) ∧
      (m.signed = true → torusOk m = true → beats l.best (m.round, m.serial) = false → l.leads = false → ∃ t, exec (.leadReceived p m) s = .next t ∧
        (lead t).leader = some (m.round, m.serial) ∧ (lead t).leads = false ∧ (lead t).epoch = m.epoch ∧
        (lead t).members = m.members.foldl joinSerial [] ∧
        (t.pkg p).rank = some ((m.members.foldl joinSerial []).findIdx (· == me)) ∧ t.outbox = s.outbox)) ∧
    (∀ r n, l.leads = true → l.leader = some (r, n) →
      exec (.heartbeatSend p) s = .next (s.emit (.message p msgHeartbeat r n))) ∧
    (l.leads = false → exec (.heartbeatSend p) s = .next s) ∧
    (∀ beat, ∃ t, exec (.heartbeatReceived p (round, serial) beat) s = .next t ∧ (lead t).heard = true ∧ round.ule (lead t).highest ∧
      (serial ≠ me → (lead t).knows round serial beat = true) ∧
      (serial ≠ me → l.knows round serial beat = false → Output.message p msgHeartbeat round serial ∈ t.outbox) ∧
      (l.knows round serial beat = true → l.listening = false → t.outbox = s.outbox) ∧
      (l.listening = true → (lead t).listening = false ∧ Output.message p msgAsk round serial ∈ t.outbox ∧
        (lead t).best = if beats (round, serial) l.best = true then (round, serial) else l.best)) ∧
    (beats (round, serial) l.best = true → ∃ t, exec (.yieldReceived p true round serial) s = .next t ∧ (lead t).best = (round, serial) ∧
      (lead t).leader = none ∧ round.ule (lead t).highest) ∧
    (exec (.yieldReceived p false round serial) s = .next s) ∧
    (∀ cmd, (l.leader = some (round, serial) → ∃ t, exec (.leaderCommand p round serial true cmd) s = .next t ∧
        t.agenda = s.agenda ++ [commandStep p cmd] ∧ t.outbox = s.outbox ∧ (t.pkg p).lead = l ∧ ∀ c ∈ registrations cmd, c ∈ (t.pkg p).commands) ∧
      (∀ signed, signed = false ∨ l.leader ≠ some (round, serial) → ∃ t, exec (.leaderCommand p round serial signed cmd) s = .next t ∧
        (t.pkg p).boot.discarded = (s.pkg p).boot.discarded + 1 ∧ t.agenda = s.agenda))

/-- R99, R350, R404 to R408: the pod. A registration takes the lowest run of free key numbers and is idempotent under its digest; a
revocation clears valid in every entry of the region. A group has 1 to 64 different members, this package among them. An ordered load is done
once under its digest. The first time exchange of a package that follows a leader sets TIME to the leader's epoch and the delay, never backward; later
ones correct the rate by at most 200 ppm, and a leader's exchanges change nothing. A package that is unsynchronised withdraws the gang starts that
include it. -/
def PodEventsRule : Prop :=
  ∀ (s : State) (p : Nat) (digest : BitVec 384),
    let x := s.pkg p
    let known := x.lead.done.find? (fun e => e.1 == digest)
    (∀ r : KeyRequest,
      let n := (r.len + keySpan - 1) / keySpan
      (∀ a m, known = some (digest, a, m) → exec (.keyRegister p digest r) s = .next (s.emit (.keyAnswer p a m 0))) ∧
      (known = none → keyRequestOk r = false → exec (.keyRegister p digest r) s = .next (s.emit (.keyAnswer p 0 0 (-7)))) ∧
      (known = none → keyRequestOk r = true → freeKeys x.keys (s.revoking p) n = none →
        exec (.keyRegister p digest r) s = .next (s.emit (.keyAnswer p 0 0 (-2)))) ∧
      (∀ b, known = none → keyRequestOk r = true → freeKeys x.keys (s.revoking p) n = some b → ∃ t, exec (.keyRegister p digest r) s = .next t ∧
        t.outbox = s.outbox ++ [.keyAnswer p b n 0] ∧ (t.pkg p).lead.done = (digest, b, n) :: x.lead.done ∧
        ∀ k, Map.find (t.pkg p).keys k = if b ≤ k ∧ k < b + n then some (keyEntryOf r b (k - b)) else Map.find x.keys k)) ∧
    (∀ region,
      let m := (x.keys.filter (fun e => e.2.region == region)).length
      ∃ t, exec (.keyRevoke p region) s = .next t ∧
        (∀ e ∈ (t.pkg p).keys, e.2.region = region → e.2.flags.getLsbD 0 = false) ∧
        (∀ e ∈ x.keys, e.2.region ≠ region → e ∈ (t.pkg p).keys) ∧
        (m = 0 → t.outbox = s.outbox ++ [.keyAnswer p region 0 (-7)]) ∧
        (m ≠ 0 → s.regionHeld p region = false → t.outbox = s.outbox ++ [.keyAnswer p region m 0]) ∧
        (m ≠ 0 → s.regionHeld p region = true → t.outbox = s.outbox ∧ t.agenda = s.agenda ++ [.keyRevoke p region])) ∧
    (∀ (h : BitVec 32) (ms : List Nat),
      let before : Bool := x.lead.done.any (fun e => e.1 == digest)
      let ok : Prop := 1 ≤ ms.length ∧ ms.length ≤ 64 ∧ ms.eraseDups.length = ms.length ∧ p ∈ ms ∧ x.groups.length < 256 ∧ Map.find x.groups h.toNat = none
      (before = true → exec (.groupRegister p digest ⟨h, ms⟩) s = .next (s.emit (.answer p 0))) ∧
      (before = false → ¬ok → exec (.groupRegister p digest ⟨h, ms⟩) s = .next (s.emit (.answer p (-7)))) ∧
      (before = false → ok → ∃ t, exec (.groupRegister p digest ⟨h, ms⟩) s = .next t ∧ t.outbox = s.outbox ++ [.answer p 0] ∧
        (t.pkg p).lead.done.any (fun e => e.1 == digest) = true ∧
        (t.group p h.toNat).members = ms ∧ (t.group p h.toNat).queue = [] ∧ ∀ g, g ≠ h.toNat → t.group p g = s.group p g) ∧
      (Map.find x.groups h.toNat = none → exec (.groupDeregister p h) s = .next (s.emit (.answer p (-7)))) ∧
      (Map.find x.groups h.toNat ≠ none → (s.group p h.toNat).queue = [] → ∃ t, exec (.groupDeregister p h) s = .next t ∧
        Map.find (t.pkg p).groups h.toNat = none ∧ t.outbox = s.outbox ++ [.answer p 0]) ∧
      (Map.find x.groups h.toNat ≠ none → (s.group p h.toNat).queue ≠ [] →
        exec (.groupDeregister p h) s = .next (s.due (.groupDeregister p h)))) ∧
    (∀ round serial signed b pl,
      let key := s.imposition b pl
      let obeyed : Prop := signed = true ∧ x.lead.leader = some (round, serial)
      (¬obeyed → ∃ t, exec (.formeLoadOrder p ⟨round, serial, signed⟩ b pl) s = .next t ∧ t.formes = s.formes ∧ t.outbox = s.outbox ∧
        (t.pkg p).boot.discarded = x.boot.discarded + 1) ∧
      (obeyed → x.lead.done.any (fun e => e.1 == key) = true →
        exec (.formeLoadOrder p ⟨round, serial, signed⟩ b pl) s = .next (s.emit (.loadDone p key))) ∧
      (∀ img, obeyed → x.lead.done.any (fun e => e.1 == key) = false → parseImage b = some img →
        s.rejection img (s.placed p key img pl) = none → (s.forme pl.forme).loaded = false → pl.packages = [p] → pl.slugs = [] →
        ∃ t, exec (.formeLoadOrder p ⟨round, serial, signed⟩ b pl) s = .next t ∧ (t.forme pl.forme).loaded = true ∧
          (t.pkg p).lead.done.any (fun e => e.1 == key) = true)) ∧
    (∀ off, ∃ t, exec (.timeSyncExchange p off) s = .next t ∧ t.mem = s.mem ∧
      (x.lead.leads = true ∨ x.lead.leader = none → t.pkg p = x) ∧
      (x.lead.leads = false → x.lead.leader ≠ none →
        (x.timed = false → (t.pkg p).timed = true ∧ (t.pkg p).rate = x.rate ∧
          (let ahead := dist (x.lead.epoch.setWidth 48 + BitVec.ofNat 48 off.toNat) (BitVec.ofNat 48 x.time)
           (t.pkg p).time = x.time + if 0 < ahead then ahead.toNat else 0)) ∧
        (x.timed = true → (t.pkg p).time = x.time ∧ (t.pkg p).rate = max (-200) (min 200 off)))) ∧
    (∀ lost, ∃ t, exec (.unsyncReport p lost) s = .next t ∧ (t.pkg p).synced = !lost ∧ Output.unsynced p lost ∈ t.outbox ∧
      (lost = false ∨ (∀ e ∈ s.formes, e.2.awaits p = false) → t.outbox = s.outbox ++ [.unsynced p lost] ∧ t.formes = s.formes) ∧
      (lost = true → s.formes.Pairwise (fun a b => a.1 < b.1) → ∀ f x, (f, x) ∈ s.formes → x.awaits p = true →
        Instr.gangReadyDeadline f ∈ t.agenda ∧ ∀ q, Instr.gangStartTick f q ∉ t.agenda))

/-- R99, R348 to R350, R404 to R408: the lead package, and the events of the pod.
Rests on readings of log entry 45. -/
def Obligations.LeadershipAndPod : Prop := LeadershipRule ∧ PodEventsRule


/-! ## Events: fabric, power, records, storage and editions -/

/-- R397 to R402, R408: the fabric. Of up to four flits a router ejects or sends every one, on different ports; one alone is ejected at its
destination, dropped and counted when its check fails, and otherwise sent on its first productive port. A message is delivered when its flits have
come from the first to the last, and an answer ends the resends of the message of its id; a message whose id is in flight is not begun. A starved
router will inject; an unanswered message is sent again. A packet of more than 17 flits is none; one that fails its CRC is a failed try, the 16th in
1 ms of which marks the sending link down; one for this package enters its fabric and another is forwarded once a link has room in its 64 KiB; a link
that is down hands its packets to the other of its pair, and a package cut off from its leader reports itself unsynchronised. -/
def FabricEventsRule : Prop :=
  ∀ (s : State) (p pos : Nat),
    let r := s.router p pos
    (∀ fs : List Flit, fs.length ≤ 4 →
      let x := fs.foldl (fun x f => routeOne pos x f) {}
      x.out.length + x.sent.length = fs.length ∧ (x.sent.map (·.1)).Nodup ∧ ∀ e ∈ x.sent, e.1 < 4) ∧
    (∀ port f, r = { inputs := [(port, f)] } →
      let d := p * 8 + dieOfPos pos
      (flitOk f = false → ∃ t, exec (.routerCycle p pos) s = .next t ∧ (t.die d).dropped = (s.die d).dropped + 1 ∧ t.outbox = s.outbox ∧
        (t.router p pos).inputs = []) ∧
      (flitOk f = true → arrivedAt pos f = true → ∃ t, exec (.routerCycle p pos) s = .next t ∧
        (t.router p pos).inputs = [] ∧ t.die d = s.die d ∧
        (flitSeq f = 0 ∧ flitLast f = true → t.outbox = s.outbox ++ [.flit p (if flitIod f then 5 + portOwner pos else 4) f] ∧
          (t.router p pos).partly = []) ∧
        (¬(flitSeq f = 0 ∧ flitLast f = true) → t.outbox = s.outbox ∧ (t.router p pos).partly = [(flitMsg f, [f])])) ∧
      (∀ q l, flitOk f = true → arrivedAt pos f = false → productive pos f = q :: l → beyond pos q ≠ pos →
        ∃ t, exec (.routerCycle p pos) s = .next t ∧ t.outbox = s.outbox ∧ Instr.routerCycle p (beyond pos q) ∈ t.agenda ∧
          (t.router p (beyond pos q)).coming =
            (s.router p (beyond pos q)).coming ++ [(if crosses pos (beyond pos q) then 4 else 0, opposite q, f)])) ∧
    (∀ l : List Flit, wholeMessage l = true ↔ (∀ i f, l[i]? = some f → flitSeq f = i) ∧ ∃ f, l.getLast? = some f ∧ flitLast f = true) ∧
    (∀ f : Flit,
      let l := joinFlit (Map.get r.partly (flitMsg f) []) f
      let r' := (r.eject f).1
      (wholeMessage l = false → (r.eject f).2 = [] ∧ Map.find r'.partly (flitMsg f) = some l ∧ r'.sent = r.sent) ∧
      (wholeMessage l = true → (r.eject f).2 = l ∧ Map.find r'.partly (flitMsg f) = none ∧
        (flitKind f = 1 ∨ flitKind f = 2 → Map.find r'.sent (flitId f) = none) ∧ (flitKind f ≠ 1 → flitKind f ≠ 2 → r'.sent = r.sent))) ∧
    (∀ (x : Routed) f rest, r.side = none → r.inject = f :: rest → flitSeq f = 0 → (Map.find r.sent (flitId f)).isSome = true →
      injectLocal pos r x = ({ r with waited := r.waited + 1 }, x)) ∧
    (r.waited < 32 → exec (.injectionStarvation p pos) s = .next s) ∧
    (32 ≤ r.waited → ∃ t, exec (.injectionStarvation p pos) s = .next t ∧ t.router p pos = { r with starved := true } ∧
      Instr.routerCycle p pos ∈ t.agenda) ∧
    (∀ (id : BitVec 12) fs, Map.find r.sent id.toNat = some fs → ∃ t, exec (.messageResend p pos id) s = .next t ∧
      (t.router p pos).inject = fs ++ r.inject ∧ Map.find (t.router p pos).sent id.toNat = none ∧ Instr.routerCycle p pos ∈ t.agenda) ∧
    (∀ link (k : Packet),
      (packetOk k = true ↔ 1 ≤ k.flits.length ∧ k.flits.length ≤ 17) ∧
      (packetOk k = false → exec (.linkPacketArrival p link k) s = .next s) ∧
      (packetOk k = true → k.crcOk = false → (s.linkEnd p link = none → exec (.linkPacketArrival p link k) s = .next s) ∧
        ∀ n l, s.linkEnd p link = some (n, l) → ∃ t, exec (.linkPacketArrival p link k) s = .next t ∧ t.outbox = s.outbox ∧
          (t.link n l).unacked = (s.link n l).unacked ∧
          (t.link n l).failed = (s.link n l).failed.filter (fun x => decide ((s.pkg n).time < x + 1000000)) ++ [(s.pkg n).time] ∧
          (16 ≤ (t.link n l).failed.length → Instr.linkDown n l ∈ t.agenda)) ∧
      (packetOk k = true → k.crcOk = true → k.dest = p → ∃ t, exec (.linkPacketArrival p link k) s = .next t ∧
        (t.router p (portRouter link)).inject = (s.router p (portRouter link)).inject ++ k.flits ∧
        ∀ n, (s.pkg p).lead.beyond p (link / 2) = some n →
          let far := if link / 2 % 2 = 0 then link + 2 else link - 2
          (t.link n far).unacked = (s.link n far).unacked.erase k) ∧
      (∀ l k', packetOk k = true → k.crcOk = true → k.dest ≠ p →
        let u := s.acknowledge p link k
        (s.onward p k = some (l, k') ↔ s.chooseLink p k = some (l, k') ∧ (s.link p l).fill + (20 * k'.flits.length + 4) ≤ 65536) ∧
        (s.onward p k = some (l, k') → ∃ t, exec (.linkPacketArrival p link k) s = .next t ∧
          (t.link p l).egress = (u.link p l).egress ++ [k'] ∧ (t.link p l).unacked = (u.link p l).unacked ++ [k'] ∧
          t.outbox = s.outbox ++ [.packet p l k']) ∧
        (s.onward p k = none → exec (.linkPacketArrival p link k) s = .next (s.due (.linkPacketArrival p link k))))) ∧
    (∀ link,
      let other := if link % 2 = 0 then link + 1 else link - 1
      ∃ t, exec (.linkDown p link) s = .next t ∧ (t.link p link).down = true ∧ link ∈ (t.pkg p).fellDown ∧
        (t.cutOff p = true → Instr.unsyncReport p true ∈ t.agenda) ∧
        ((s.link p other).down = false → (t.link p link).unacked = [] ∧
          (t.link p other).egress = (s.link p other).egress ++ (s.link p link).unacked ∧
          t.outbox = s.outbox ++ (s.link p link).unacked.map (fun k => .packet p other k)))

/-- R371, R385, R409 to R417: energy and the governor. A tick adds each program's scaled share to its energy, reads and clears the cycle classes and
charges the allotment; the tick that ends an interval clears its use at once. A sample above a threshold lowers the clock a step, at the floor leaves
only even cycles, and below 1,760 W ends those; ten calm ones in a row, whatever the next, call for a raise; above 3,600 A the fast response is due.
TIME keeps its fraction of a tick when the clock changes. An error of storage is counted on its die and, when not of a single bit, poisons its granule
(that a sample brings the errors is the model's choice, log entry 74). A health record is sent and its counts begin anew. -/
def PowerEventsRule : Prop :=
  ∀ (s : State) (p f : Nat),
    let x := s.pkg p
    let allot (t : State) : Allot := Map.get (t.pkg p).allots f {}
    (∀ uj, ∃ t, exec (.accountingTick p uj) s = .next t ∧
      (∀ h, (t.program h).energy = (s.program h).energy + (x.scaled p uj).foldl (fun n e => if e.1 = h then n + e.2 else n) 0) ∧
      (∀ c, pkgOf c = p → (t.ctx c).classes = []) ∧ (x.allots = [] → ∀ c, pkgOf c ≠ p → t.ctx c = s.ctx c) ∧
      ∀ a, x.allots = [(f, a)] →
        let c := formeCharge (x.scaled p uj) f
        (∀ l n, a.next = some (l, n) → allot t = { limit := l, len := n }) ∧
        (a.next = none → a.ticks + 1 < a.len → (allot t).used = a.used + c ∧ (allot t).ticks = a.ticks + 1 ∧
          ((allot t).exhausted = true ↔ a.exhausted = true ∨ (a.limit ≠ 0 ∧ a.limit ≤ a.used + c))) ∧
        (a.next = none → a.len ≤ a.ticks + 1 → allot t = { a with used := 0, ticks := 0, exhausted := false })) ∧
    (∀ uj, x.allots = [] → ∃ t, exec (.accountingTick p uj) s = .next t ∧ ∀ k ∈ coresOf p, (t.core k).idle = (s.core k).idle +
      idleCycles (s.ctxs.filter (fun e => pkgOf e.1 == p && e.2.classes != [])) k (x.cycle - x.ticked.1)) ∧
    (∃ t, exec (.allotmentIntervalEnd p f) s = .next t ∧ (allot t).used = 0 ∧ (allot t).ticks = 0 ∧ (allot t).exhausted = false ∧
      (allot t).limit = (allot s).limit ∧ t.mem = s.mem) ∧
    (∀ rcd : List Byte,
      let g := recNat rcd 4 4
      let n := recNat rcd 16 4
      let ok : Prop := rcd.length = 64 ∧ recNat rcd 0 4 = 1 ∧ zeroFrom rcd 20 = true ∧ 1 ≤ n ∧ n ≤ 1000 ∧ (s.forme g).loaded = true
      (¬ok → exec (.allotmentRequest p rcd) s = .next (s.emit (.answer p (-7)))) ∧
      (ok → ∃ t, exec (.allotmentRequest p rcd) s = .next t ∧
        Map.get (t.pkg p).allots g {} = { (Map.get x.allots g {} : Allot) with next := some (recNat rcd 8 8, n) } ∧ t.outbox = s.outbox)) ∧
    (∀ mw ma hot errors, ∃ t, exec (.governorSample p mw ma ⟨hot, errors⟩) s = .next t ∧
      let excess : Prop := 1760000 < mw ∨ 3520000 < ma ∨ hot = true
      (excess → x.clkStep < 12 → (t.pkg p).clkStep = x.clkStep + 1) ∧
      (excess → 12 ≤ x.clkStep → (t.pkg p).clkStep = x.clkStep ∧ (t.pkg p).evenOnly = true) ∧
      (¬excess → (t.pkg p).clkStep = x.clkStep) ∧ (¬excess → mw < 1760000 → (t.pkg p).evenOnly = false) ∧
      (¬excess → ¬mw < 1760000 → (t.pkg p).evenOnly = x.evenOnly) ∧
      let calm : Prop := mw < 1700000 ∧ ma < 3300000 ∧ hot = false
      (¬calm → (t.pkg p).calm = 0) ∧ (calm → x.calm < 9 → (t.pkg p).calm = x.calm + 1) ∧ (calm → 9 ≤ x.calm → (t.pkg p).calm = 0) ∧
      ((t.pkg p).raise = true ↔ x.raise = true ∨ (calm ∧ 9 ≤ x.calm)) ∧ ((t.pkg p).raise = true → Instr.clockRaise p ∈ t.agenda) ∧
      (3600000 < ma → Instr.fastResponse p ∈ t.agenda) ∧ (t.pkg p).time = x.time ∧
      (x.clkStep < 24 → (t.pkg p).acc = x.acc * (24 - (t.pkg p).clkStep) / (24 - x.clkStep)) ∧ t.mem = s.mem ∧
      (errors = [] → t.dies = s.dies ∧ t.poison = s.poison)) ∧
    (∀ e : StorageError,
      let w := s.protectedAt e.place
      let t := s.strike e
      t.mem = s.mem ∧ (∀ d, d ≠ w.1 → t.die d = s.die d) ∧
      (e.single = true → t.die w.1 = { s.die w.1 with corrected := Map.modify (s.die w.1).corrected w.2 0 (· + 1) } ∧ t.poison = s.poison ∧
        t.cores = s.cores ∧ t.queues = s.queues) ∧
      (e.single = false → t.die w.1 = { s.die w.1 with uncorrected := (s.die w.1).uncorrected + 1 } ∧
        (∀ c i, e.place = .gReg c i → i ≠ 0 → w = (dieOf c, 0) ∧ t.gReg c i = { s.gReg c i with poison := true }) ∧
        (∀ c i l, e.place = .vReg c i l → l < 16 → w = (dieOf c, 0) ∧ (t.vReg c i).poison.getLsbD l = true ∧ (t.vReg c i).val = (s.vReg c i).val) ∧
        (∀ c i l, e.place = .dReg c i l → l < 96 → w = (dieOf c, 0) ∧ (t.dReg c i).poison.getLsbD l = true ∧ (t.dReg c i).img = (s.dReg c i).img) ∧
        (∀ k, e.place = .cell k → w.1 = homeDie k ∧ t.poisoned k 1 = true) ∧
        (∀ k o, e.place = .plate k o → w = (k / 512, 2) ∧ (t.core k).platePoison.contains o = true) ∧
        (∀ q i y, e.place = .slot q i → (s.queue q).entries[i]? = some y → w = ((s.queue q).die, 5) ∧
          (t.queue q).entries[i]? = some { y with poison := true }))) ∧
    (∃ t, exec (.clockRaise p) s = .next t ∧ (x.raise = false → t.pkg p = x) ∧
      (x.raise = true → t = s.updPkg p (fun y => { y with
        clkStep := y.clkStep - 1, acc := y.acc * (24 - (y.clkStep - 1)) / (24 - y.clkStep), raise := false }))) ∧
    (∃ t, exec (.fastResponse p) s = .next t ∧ (t.pkg p).clkStep = 12 ∧ (t.pkg p).acc = x.acc * 12 / (24 - x.clkStep) ∧
      (t.pkg p).time = x.time ∧ (t.pkg p).calm = 0 ∧ (t.pkg p).raise = false ∧ t.mem = s.mem ∧
      ∀ d, t.die d = if d / 8 = p ∧ d % 8 < 5 then { s.die d with fast := (s.die d).fast + 1 } else s.die d) ∧
    (∀ d hottest, ∃ t, exec (.healthRecord d hottest) s = .next t ∧ t.outbox = s.outbox ++ [.health d (s.healthBytes d hottest)] ∧
      (t.die d).corrected = [] ∧ (t.die d).uncorrected = 0 ∧ (t.die d).dropped = 0 ∧ (t.die d).fast = 0 ∧ ∀ e, e ≠ d → t.die e = s.die e)

/-- R371, R385, R397 to R402, R408 to R417: the fabric, and energy.
Rests on readings of log entries 7, 46, 47 and 74. -/
def Obligations.FabricAndPowerEvents : Prop := FabricEventsRule ∧ PowerEventsRule

/-- R382 to R384, R386: the proof buffer and dumps. A bad request is answered −7 in the queue it names; a good one waits its turn; a trace that starts
records from this cycle; one that ends copies its 65,536 rows, row 0 first, and reports, its push waiting while the queue is full. A dump is taken at its time, and the contexts go on
or are held with CHOLD.
Rests on readings of log entries 43, 47 and 70. -/
def Obligations.RecordEvents : Prop :=
  ∀ (s : State) (d p : Nat),
    let answers (t : State) (rcd res : List Byte) : Prop :=
      let q := recNat rcd 40 2
      if (s.queue q).valid = false then t.outbox = s.outbox ++ [.traceResult d q res]
      else Took s t q (BitVec.ofNat 512 (leNat res)) ∧ t.outbox = s.outbox
    let takes (rcd : List Byte) : Prop :=
      let q := recNat rcd 40 2
      (s.queue q).valid = false ∨ (OpenTo s q 0xFFFF#32 ∧ (s.queue q).etype ≠ 3#2)
    (∀ rcd : List Byte,
      (traceOk d rcd = false → ∃ t, exec (.traceRequest d rcd) s = .next t ∧ (takes rcd → t.mem = s.mem ∧
        (t.die d).traces = (s.die d).traces ∧ answers t rcd (traceRecord (recNat rcd 0 1) 0 0 0 (-7))) ∧
        (let q := recNat rcd 40 2
         let x := s.queue q
         x.valid = true → x.closed = false → x.coloph.contains 0xFFFF#16 = false → x.etype ≠ 3#2 → x.waitPush = [] → x.waitPop = [] →
           0 < x.cap → x.cap ≤ x.entries.length → t.mem = s.mem ∧ (t.queue q).entries = x.entries ∧ (t.queue q).waitPush = [s.nextId] ∧
             (t.message s.nextId).isSome = true)) ∧
      (traceOk d rcd = true → ∃ t, exec (.traceRequest d rcd) s = .next t ∧ (t.die d).traces = (s.die d).traces ++ [{ rcd := rcd }] ∧
        t.agenda = s.agenda ++ (if (s.die d).traces = [] then [.traceStart d] else []) ∧ t.mem = s.mem)) ∧
    (∀ y r, (s.die d).traces = y :: r →
      (y.running = false → ∃ t z, exec (.traceStart d) s = .next t ∧ (t.die d).traces = z :: r ∧ z.running = true ∧ z.rcd = y.rcd ∧
        z.start = (s.pkg (d / 8)).cycle ∧ z.time = (s.pkg (d / 8)).time ∧
        z.rows = (s.die d).proof.filter (fun e => e.1 / 32 != 0) ∧ ∀ c, t.ctx c = s.ctx c) ∧
      (y.running = true → ∃ t, exec (.traceEnd d) s = .next t ∧ (takes y.rcd → (t.die d).traces = r ∧ (t.die d).proof = y.rows ∧
        answers t y.rcd (traceRecord y.galley y.time y.events y.dropped 0) ∧
        (s.memWf → ∀ i, i < 65536 → t.bytes (physKey (d / 8) (recNat y.rcd 16 8) + 128 * i) 128 = rowBytes y.rows i)))) ∧
    (∀ time hold dest, ∃ t, exec (.coreDumpRequest p time hold dest) s = .next t ∧ (t.pkg p).dump = some (time, hold, dest) ∧
      t.agenda = s.agenda ++ [.coreDumpAtT p] ∧ t.mem = s.mem) ∧
    (∀ time hold dest, (s.pkg p).dump = some (time, hold, dest) → ∃ t, exec (.coreDumpAtT p) s = .next t ∧ (t.pkg p).dump = none ∧
      t.mem = s.mem ∧ t.outbox = s.outbox ++ [.dump p (s.dumpBytes p time).1 (s.memoryImage p).1 (s.memoryImage p).2] ∧
      ∀ c, (s.ctx c).watchPend = none → (s.ctx c).stepPend = none → t.ctx c =
        if hold = true ∧ c ∈ s.ctxs.map (·.1) ∧ pkgOf c = p ∧ (s.ctx c).occupied = true ∧ (s.ctx c).hold = .none ∧ isKeeper c = false
        then { s.ctx c with hold := .chold } else s.ctx c)

/-- A record queue of the job that can take a service's record now (R57, R59). -/
def SvcOpen (s : State) (job h : Nat) : Prop :=
  let q := job * 65536 + h
  s.svcQueue job h = true ∧ OpenTo s q 0xFFFF#32 ∧ (s.queue q).resident = true

/-- R388, R396: a service takes a record of its request queue. A record popped before and kept is at hand; else it is the next of the queue, which
gives it up, or the service takes nothing; a job whose queue the model is not given hands its records over (log entry 48). The next record of a
request queue is due to be taken, when the service has none at hand. -/
def ServiceTakesRule : Prop :=
  ∀ (s : State) (p job kind : Nat) (r : List Byte),
    ((s.pkg p).taken.contains (job, r) = true →
      s.svcTake p job kind r = some (s.updPkg p (fun x => { x with taken := x.taken.erase (job, r) }))) ∧
    ((s.pkg p).taken.contains (job, r) = false →
      (Map.find (s.pkg p).services (job * 4 + kind) = none → s.svcTake p job kind r = some s) ∧
      (∀ h, Map.find (s.pkg p).services (job * 4 + kind) = some h →
        let q := job * 65536 + h
        (∀ i e, s.meet q 0xFFFF#16 = .entry i e →
          (e.bytes ≠ r → s.svcTake p job kind r = none) ∧
          (e.bytes = r → (s.queue q).waitPush = [] → (s.queue q).waitPop = [] → ∃ u, s.svcTake p job kind r = some u ∧
            (u.queue q).entries = ((s.queue q).take 0xFFFF#16 i).entries)) ∧
        (s.meet q 0xFFFF#16 = .nothing → s.svcTake p job kind r = none))) ∧
    (∀ q, (s.serviceDue q).mem = s.mem ∧ (s.serviceDue q).queues = s.queues ∧ (s.serviceDue q).outbox = s.outbox ∧
      (∀ e ∈ s.agenda, e ∈ (s.serviceDue q).agenda) ∧ ∀ i e, s.meet q 0xFFFF#16 = .entry i e → s.serves 1 q = false → s.serves 0 q = true →
        (∀ ev ∈ s.agenda, serviceRecord (s.queue q).homePkg (q / 65536) false ev = none) →
          s.serviceDue q = s.due (storageEvent (s.queue q).homePkg (q / 65536) e.bytes))

/-- R387 to R391: storage. A record the service does not take does nothing but have the next of the queue be due. One it takes that is malformed, names what is not the job's, or comes after
a cancel completes with its status; another becomes commands, and completes when they have ended, a read after its buffer is written. A
mapped range has an entry for each granule, an unmapped one none. -/
def StorageEventsRule : Prop :=
  (∀ (s : State) (p job : Nat) (r : List Byte), s.svcTake p job 0 r = none →
    ∀ e ∈ [Instr.storageRead p job r, .storageWrite p job r, .storageFlush p job r, .mapRange p job r, .unmapRange p job r],
      exec e s = .next (s.serviceDue (job * 65536 + (Map.find (s.pkg p).services (job * 4)).getD 0))) ∧
  (∀ (s u : State) (p job : Nat) (r : List Byte), s.svcTake p job 0 r = some u →
    let q := job * 65536 + reqCq r
    let i := (u.pkg p).nextReq
    let bs := u.reqBlock p job r
    let ends (e : Instr) (st : Int) (nvme : Nat) : Prop := ∃ t, exec e s = .next t ∧ Took u t q (storageCompletion (reqTag r) st nvme) ∧
      t.mem = u.mem ∧ (t.pkg p).storage = (u.pkg p).storage ∧ t.outbox = u.outbox
    let starts (e : Instr) (cmd : List Byte) : Prop := ∃ t, exec e s = .next t ∧ t.outbox = u.outbox ++ [.storageCommand p i cmd] ∧
      Map.find (t.pkg p).storage i = some { job := BitVec.ofNat 16 job, rcd := r } ∧ (t.pkg p).nextReq = i + 1 ∧ t.mem = u.mem
    (SvcOpen u job (reqCq r) →
      (∀ c, u.reqRefused p job 0 r = some c → ends (.storageRead p job r) c 0) ∧
      (∀ c, u.reqRefused p job 1 r = some c → ends (.storageWrite p job r) c 0) ∧
      (∀ c, u.reqRefused p job 2 r = some c → ends (.storageFlush p job r) c 0) ∧
      (u.rangeStatus p job 3 r ≠ 0 → ends (.mapRange p job r) (u.rangeStatus p job 3 r) 0) ∧
      (u.rangeStatus p job 4 r ≠ 0 → ends (.unmapRange p job r) (u.rangeStatus p job 4 r) 0) ∧
      (u.rangeStatus p job 3 r = 0 →
        let gs := granulesOf (reqAddr r) (reqBlocks r * bs)
        let full : Prop := pageCacheMax < (u.pkg p).pageCache.length + gs.length
        (gs.any (fun g => u.granuleUsed p job g) = true ∨ full → ends (.mapRange p job r) (-2) 0) ∧
        (gs.any (fun g => u.granuleUsed p job g) = false → ¬full →
          ∃ t, exec (.mapRange p job r) s = .next t ∧ Took u t q (storageCompletion (reqTag r) 0 0) ∧
            ∀ g ∈ gs, Map.find (t.pkg p).pageCache (cacheKey job g) =
              some (reqTarget r, reqNsid r, reqLba r + (g - reqAddr r / 65536) * (65536 / bs))))) ∧
    (u.rangeStatus p job 4 r = 0 → ∃ t, exec (.unmapRange p job r) s = .next t ∧
      ∀ g ∈ granulesOf (reqAddr r) (reqBlocks r * bs), Map.find (t.pkg p).pageCache (cacheKey job g) = none) ∧
    (u.reqRefused p job 0 r = none → reqBlocks r ≤ 2097152 / bs →
      starts (.storageRead p job r) (commandRecord 0 (reqNsid r) (reqTarget r) (reqLba r) (reqBlocks r) [])) ∧
    (u.reqRefused p job 1 r = none → reqBlocks r ≤ 2097152 / bs →
      let x := u.writeBuffer p job r
      x.2.miss = none → x.2.stop = none → starts (.storageWrite p job r)
        (commandRecord 1 (reqNsid r) (reqTarget r) (reqLba r) (reqBlocks r) (x.1.take (reqBlocks r * bs)))) ∧
    (u.reqRefused p job 1 r = none → (u.writeBuffer p job r).2.miss.isSome = true → ∃ t, exec (.storageWrite p job r) s = .next t ∧
      (job, r) ∈ (t.pkg p).taken ∧ Instr.storageWrite p job r ∈ t.agenda) ∧
    (u.reqRefused p job 2 r = none → starts (.storageFlush p job r) (commandRecord 2 (reqNsid r) (reqTarget r) 0 0 []))) ∧
  (∀ (s : State) (p j job : Nat) (y : StorageReq) (status : Half) (data : List Byte),
    let r := y.rcd
    let q := job * 65536 + reqCq r
    Map.find (s.pkg p).storage j = some y → y.fill = none → y.job.toNat = job →
    SvcOpen s job (reqCq r) → s.jobCancelled job = false →
      (status ≠ 0#16 → ∃ t, exec (.nvmeCompletion p j status data) s = .next t ∧
        Took s t q (storageCompletion (reqTag r) (-3) status.toNat) ∧ t.mem = s.mem ∧ Map.find (t.pkg p).storage j = none) ∧
      (status = 0#16 → recNat r 0 1 = 0 →
        let x := s.readWrites p y data
        x.miss = none → x.stop = none → ∃ t, exec (.nvmeCompletion p j status data) s = .next t ∧
          Took s t q (storageCompletion (reqTag r) 0 0) ∧ Map.find (t.pkg p).storage j = none ∧
          t.mem = ((s.dropRequest p j).putAll (p * 8 + 4) {} x.writes.reverse).1.mem)) ∧
  (∀ (s : State) (p job : Nat) (remote supported : Bool) (size : Nat) (h : Half) (ctrl pairs depth : Nat),
    let ts := (s.pkg p).targets
    let cs := controllers ts remote
    let bad : Prop := supported = false ∨ (size ≠ 512 ∧ size ≠ 4096) ∨ pairs = 0 ∨ 64 < pairs ∨ depth = 0 ∨ 1024 < depth ∨
      (cs.contains ctrl = false ∧ (if remote then 32 else 8) ≤ cs.length) ∨ Map.find ts h.toNat ≠ none
    (bad → exec (.storageTargetRegister p job remote supported size ⟨h, ctrl, pairs, depth⟩) s = .next (s.emit (.answer p (-2)))) ∧
    (¬bad → ∃ t, exec (.storageTargetRegister p job remote supported size ⟨h, ctrl, pairs, depth⟩) s = .next t ∧
      t.outbox = s.outbox ++ [.answer p 0] ∧
      Map.find (t.pkg p).targets h.toNat =
        some { job := BitVec.ofNat 16 job, blockSize := size, remote := remote, ctrl := ctrl, pairs := pairs, depth := depth }))

/-- R392 to R396: editions. A load that fails its checks ends with its status and the edition number of the manifest it has read; one that passes
declares its buffer, and fetches. What a fetch has read goes to the shard's staging; when it is not what the manifest says it is fetched again, four
times in all; a good one is transformed, and the last leads to the publish. After the token the descriptor is written and the load ends with 0. -/
def EditionEventsRule : Prop :=
  (∀ (s : State) (p job : Nat) (r : List Byte) (at_ : Word), s.svcTake p job 1 r = none → exec (.editionLoad p job r at_) s =
    .next (s.serviceDue (job * 65536 + (Map.find (s.pkg p).services (job * 4 + 1)).getD 0))) ∧
  (∀ (s v : State) (p job : Nat) (r : List Byte) (at_ : Word), s.svcTake p job 1 r = some v →
    let desc := loadKey (job % 65536) r
    let x : EditionLoad := { job := BitVec.ofNat 16 job, rcd := r, bufAt := at_.toNat }
    let u := v.updPkg p (fun y => { y with editions := y.editions ++ [x] })
    (v.loadOf p desc ≠ none → exec (.editionLoad p job r at_) s = .next u) ∧
    (∀ c man, v.loadOf p desc = none → job < 65536 → SvcOpen v job (loadQueue r) → u.loadNext p x = .fail c man →
      ∃ t, exec (.editionLoad p job r at_) s = .next t ∧ Took v t (job * 65536 + loadQueue r) (loadResult c noShard 0 (recNat man 8 8) (loadTag r)) ∧
        t.loadOf p desc = none ∧ t.mem = v.mem ∧ t.shadows = v.shadows) ∧
    (∀ man k, v.loadOf p desc = none → u.loadNext p x = .go man k →
      let w := u.updPkg p (fun y => { y with oldSlots := y.oldSlots.filter (fun o => !(o.desc == desc && o.slot == k)) })
      recNat (u.descRead p x.job.toNat (descAddr desc + 16 + 16 * k) 16).1 0 8 = 0 →
      (w.declare (svcCtx p) x.job x.bufAt (manLength man)).1 = 0 → ∃ t y, exec (.editionLoad p job r at_) s = .next t ∧
        t.loadOf p desc = some y ∧ y.stage = 1 ∧ y.man = man ∧ y.slot = k ∧ y.rcd = r ∧ (t.shadowAt p x.job x.bufAt).isSome = true)) ∧
  (∀ (s : State) (p desc : Nat) (x : EditionLoad), s.loadOf p desc = some x → s.jobCancelled x.job.toNat = false →
    let q := x.job.toNat * 65536 + loadQueue x.rcd
    (∀ i h data, x.shard i = some h → h.fetched = false →
      (∀ ok, s.shardGood p x h ok data = false → 1 ≤ h.attempts → h.attempts < 4 →
        (s.shardWrites p x h data).miss = none → (s.shardWrites p x h data).stop = none → ∃ t y, exec (.shardFetchDone p desc i ok data) s = .next t ∧
        t.loadOf p desc = some y ∧ y.shard i = some { h with attempts := h.attempts + 1 } ∧
        t.mem = (s.putAll (p * 8 + 4) {} (s.shardWrites p x h data).writes.reverse).1.mem ∧
        let e := manShard x.man i
        ∀ g, s.targetOf p x.job.toNat (recNat e 16 2) = some g →
          let n := (h.len + g.blockSize - 1) / g.blockSize
          1 ≤ n → n ≤ 2097152 / g.blockSize → t.outbox = s.outbox ++
            [.storageCommand p (2 ^ 32 + i) (commandRecord 0 (recNat e 20 4) (recNat e 16 2) (recNat e 24 8) n [])]) ∧
      (∀ ok, s.shardGood p x h ok data = true → (s.shardWrites p x h data).miss = none → (s.shardWrites p x h data).stop = none →
        ∃ t y, exec (.shardFetchDone p desc i ok data) s = .next t ∧ t.loadOf p desc = some y ∧ y.shard i = some { h with fetched := true } ∧
          Instr.shardTransformDone p desc i 0#64 ∈ t.agenda ∧
          t.mem = (s.putAll (p * 8 + 4) {} (s.shardWrites p x h data).writes.reverse).1.mem)) ∧
    (∀ h b, x.flight = [h] → h.fetched = true → manCount x.man ≤ x.next → s.shadowAt p x.job x.bufAt = some b →
      (s.shardRun p x h).miss = none → (s.shardRun p x h).stop = none → ∃ t y, exec (.shardTransformDone p desc h.idx 0#64) s = .next t ∧
        t.loadOf p desc = some y ∧ y.stage = 2 ∧ y.flight = [] ∧ Instr.editionFlip p desc b.fault ∈ t.agenda) ∧
    (x.stage = 2 → SvcOpen s x.job.toNat (loadQueue x.rcd) →
      let old := 1 - x.slot
      let c := s.flipWrites p desc x
      c.miss = none → c.stop = none → ∃ t, exec (.editionFlip p desc 0#64) s = .next t ∧
        t.mem = (s.putAll (p * 8 + 4) {} c.writes.reverse).1.mem ∧ t.loadOf p desc = (s.updPkg p (fun y => { y with
          editions := dropLoad desc y.editions })).loadOf p desc ∧
        Took s t q (loadResult 0 noShard 0 (recNat x.man 8 8) (loadTag x.rcd)) ∧
        (recNat (s.descRead p x.job.toNat (descAddr desc + 16 + 16 * old) 8).1 0 8 ≠ 0 →
          { job := x.job, desc := desc, slot := old } ∈ (t.pkg p).oldSlots))) ∧
  (∀ (s : State) (p desc : Nat) (o : OldSlot), s.loadOf p desc = none → (s.pkg p).oldSlots = [o] → o.desc = desc → s.slotIdle p o = true →
    ∃ t, exec (.editionOldSlotCheck p desc) s = .next t ∧ (t.pkg p).oldSlots = [] ∧
      t.mem = ((s.updPkg p (fun y => { y with oldSlots := [] })).returnSlot p o).mem) ∧
  (∀ (s : State) (p job : Nat) (keyId : BitVec 32) (key : BitVec 768), ∃ t, exec (.editionSigningKeyRegister p job keyId key) s = .next t ∧
    Map.find (t.pkg p).signKeys (job * 2 ^ 32 + keyId.toNat) = some key ∧ t.mem = s.mem ∧
    ∀ k, k ≠ job * 2 ^ 32 + keyId.toNat → Map.find (t.pkg p).signKeys k = Map.find (s.pkg p).signKeys k)

/-- R387 to R396: storage, and editions.
Rests on readings of log entry 48. -/
def Obligations.StorageAndEditionEvents : Prop := ServiceTakesRule ∧ StorageEventsRule ∧ EditionEventsRule


/-! ## The machine as a whole -/

/-- The slot of context c has come: the core and the package have moved on to its cycle, TIME by the clock of the package, the context no
longer waits for what its instruction needed, cycles are charged and a running trace goes on (R14, R382, R383, R385, R407, R414).
Everything else is as it was. -/
structure SlotCome (s v : State) (c : Nat) : Prop where
  cur      : v.cur = c
  me       : { v.ctx c with classes := (s.ctx c).classes } =
    { s.ctx c with wait := if (s.ctx c).wait.beforeIssue then .none else (s.ctx c).wait }
  others   : ∀ e, e ≠ c → { v.ctx e with classes := (s.ctx e).classes } = s.ctx e
  cores    : ∀ k, v.core k = if k = coreOf c then { s.core k with cycle := s.slotCycle c } else s.core k
  cycle    : (v.pkg (pkgOf c)).cycle = s.slotCycle c
  pkgs     : ∀ p, v.pkg p = if p = pkgOf c ∧ (s.pkg p).cycle < s.slotCycle c then
      (let x := s.pkg p
       let acc := x.acc + 10 * (s.slotCycle c - x.cycle) * (1000000 + x.rate).toNat
       let clk := (24 - x.clkStep) * 1000000
       { x with cycle := s.slotCycle c, acc := acc % clk, time := x.time + acc / clk })
    else s.pkg p
  dies     : ∀ d, { v.die d with traces := (s.die d).traces } = s.die d
  agenda   : ∃ es, v.agenda = s.agenda ++ es ∧ ∀ e ∈ es, ∃ d, e = .traceEnd d
  galleys  : v.galleys = s.galleys
  mem      : v.mem = s.mem
  poison   : v.poison = s.poison
  queues   : v.queues = s.queues
  levels   : v.levels = s.levels
  formes   : v.formes = s.formes
  programs : v.programs = s.programs
  resvs    : v.resvs = s.resvs
  bwaits   : v.bwaits = s.bwaits
  jobs     : v.jobs = s.jobs
  shadows  : v.shadows = s.shadows
  stamps   : v.stamps = s.stamps
  net      : v.net = s.net ∧ v.nextId = s.nextId
  outside  : v.inbox = s.inbox ∧ v.outbox = s.outbox ∧ v.sched = s.sched ∧ v.freeIdx = s.freeIdx

/-- R14, R151 to R153, R355: a step runs the decoded instruction. When no event may happen, the context c is the next to issue with nothing to
deliver and no breakpoint, no dump and no start of a trace comes before its slot, and the bytes at its PC, translated for fetch, free of poison, with
no atomic of the core on its way to them and read as a load of the context reads them, decode to i, the step is exec of i at the state in which the
slot has come and the halfwords fetched are noted. A second halfword is fetched only for a word. With no store of the core on its way the bytes are
those of memory. That a fetch sees the core's own stores not yet applied is the model's reading (log entry 18), and the order among contexts and
events under an empty schedule its choice (log entry 4). -/
def Obligations.StepRunsDecoded : Prop :=
  ∀ (s : State) (c : Nat) (l : List Nat) (i : Instr) (k0 k1 : Nat),
    let x := s.ctx c
    let a := x.pc.toNat
    let at_ (va : Nat) : Xlated := s.translate (galOf c) x.job.toNat va .fetch
    enabledFrom s 0 s.agenda = [] → s.inbox = [] → s.sched = [] → s.candidates = c :: l →
    x.watchPend = none → x.stepPend = none → x.cancel = none → x.imps = [] ∨ x.tr.inh = true → x.precise = none → x.breakpoint = none →
    s.pausedIn (pkgOf c) (s.slotCycle c - (s.pkg (pkgOf c)).cycle) = false →
    a + 2 < 2 ^ 54 → at_ a = .cell k0 → s.poisoned k0 2 = false → ({ s with cur := c } : State).fetchOpAhead k0 = false →
    ∃ v, SlotCome s v c ∧
      let half (k : Nat) : Half := BitVec.ofNat 16 (leNat (v.readThrough (coreOf c) k 2))
      let h0 := half k0
      let h1 := half k1
      (h0.getLsbD 15 = true → at_ (a + 2) = .cell k1 → s.poisoned k1 2 = false → ({ s with cur := c } : State).fetchOpAhead k1 = false →
        decodeHalves h0 h1 = .ok i →
        step s = exec i { v with fetched := h0 ++ h1 }) ∧
      (h0.getLsbD 15 = false → decodeHalves h0 0#16 = .ok i → step s = exec i { v with fetched := h0.setWidth 32 }) ∧
      (s.net.all (fun m => coreOf m.src != coreOf c) = true → ∀ k, v.readThrough (coreOf c) k 2 = s.bytes k 2)

/-- A step that takes an event of the agenda runs that event without it, and one that takes an event from outside runs it without it; with nothing
to move a cycle passes, and so it does on a package where a dump or the start of a trace comes before the slot (R14, R382, R386, R407; log entry 4:
the order of the moves is the model's choice). -/
def Obligations.StepRunsEvent : Prop :=
  ∀ (s : State), s.sched = [] →
    (∀ n e l, enabledFrom s 0 s.agenda = (n, e) :: l → step s = exec e { s with agenda := s.agenda.eraseIdx n }) ∧
    (∀ e l, enabledFrom s 0 s.agenda = [] → s.inbox = e :: l → step s = exec e { s with inbox := l }) ∧
    (enabledFrom s 0 s.agenda = [] → s.inbox = [] → s.candidates = [] → step s = .next s.idle ∧
      (∀ k, s.idle.byte k = s.byte k) ∧ (∀ c i, s.idle.gReg c i = s.gReg c i) ∧ (s.idle.pkg 0).cycle = (s.pkg 0).cycle + 1) ∧
    (∀ c l, enabledFrom s 0 s.agenda = [] → s.inbox = [] → s.candidates = c :: l →
      s.pausedIn (pkgOf c) (s.slotCycle c - (s.pkg (pkgOf c)).cycle) = true → ∃ t, step s = .next t ∧ t.mem = s.mem ∧
        (∀ d i, t.gReg d i = s.gReg d i) ∧ (∀ d, (t.ctx d).pc = (s.ctx d).pc) ∧ (t.pkg (pkgOf c)).cycle = (s.pkg (pkgOf c)).cycle + 1)

/-- R19, R40, R94, R133, R266, R278, R373, R374: what reset leaves. The keeper's window is 128 general and 32 vector registers from base 0; POOLMASK,
SAVEAREA, the memory windows, the debug and the trap registers are 0; the accumulator sets and the plate are zero and without poison; no register and
no granule is poisoned. (That no queue, level or message exists and the keepers are stopped is the model's reading, log entry 1; the zeros of the
general registers and of memory are its choice, log entries 2 and 3.) -/
def Obligations.ResetState : Prop :=
  let s := State.reset
  (∀ c, isKeeper c = true → (s.ctx c).win = { gb := 0, gn := 128, vb := 0, vn := 32, db := 0, dn := 0 }) ∧
  (∀ c, isKeeper c = false → (s.ctx c).cond = .empty) ∧
  (∀ c, (s.ctx c).dbg = {} ∧ (s.ctx c).tr = {} ∧ (s.ctx c).ctl.fpctl = 0 ∧ (s.ctx c).ctl.fpflags = 0) ∧
  (∀ k, (s.core k).poolmask = 0 ∧ (s.core k).savearea = 0 ∧ (∀ i, Map.get (s.core k).wins i 0#64 = 0) ∧
    (∀ i, Map.get (s.core k).acc i 0#64 = 0) ∧ (∀ i, Map.get (s.core k).plate i 0#8 = 0) ∧ (s.core k).accPoison = [] ∧
    (s.core k).platePoison = [] ∧ (s.core k).stopped = true) ∧
  (∀ c i, s.gReg c i = { val := 0 } ∧ (s.vReg c i).poison = 0#16 ∧ (s.dReg c i).poison = 0#96) ∧ s.poison = [] ∧
  (∀ q, (s.queue q).valid = false) ∧ s.net = [] ∧ ∀ k, s.byte k = 0

/-- The memory of reset has its canonical form (what an unlisted address reads as is the model's choice, log entry 2). -/
def Obligations.ResetMemory : Prop := State.reset.memWf

/-- R151 and the encodings of the spec's worked examples: these table words decode to the instruction they stand for. -/
def Obligations.WordsDecode : Prop :=
  decodeTableWord 32 0x942BDEAD = some (.limz 10 3 0xDEAD) ∧ decodeTableWord 32 0x8E385068 = some (.shri 14 10 40) ∧
  decodeTableWord 32 0xF8000014 = some (.trap 5) ∧ decodeTableWord 32 0xF8000001 = some .tret ∧
  decodeTableWord 32 0xF800001E = some (.brk 7) ∧ decodeTableWord 32 0xF8000003 = some .nop

/-- R151, R154, R158, R163: decode and encode agree. The encoding of a well-formed instruction, whatever its operands, decodes to that instruction, as
a word or halfword and as bytes in memory. -/
def Obligations.DecodeEncode : Prop :=
  ∀ i : Instr, i.wf = true → encode i ≠ .event → (encode i).decode = some i ∧ decodeBytes (encode i).bytes = some (.ok i)

/-- Every step keeps memory in its canonical form: addresses strictly rise and no listed byte is the one an unlisted address
reads as (the model's choice, log entry 2). -/
def Obligations.StepKeepsMemory : Prop := ∀ s t : State, s.memWf → step s = .next t → t.memWf
end

