-- ==== Sys2Proof/Laws/Encode.lean ====
section
/-! SUPPORT. The fields of an encoded word read back, and the major decoder each word goes to. -/

namespace Sys2Proof

/-- The lowest field of a packed word. -/
theorem pack_head (k v : Nat) (r : List (Nat × Nat)) (hk : k ≤ 32) :
    (BitVec.ofNat 32 (pack ((k, v) :: r))).extractLsb' 0 k = BitVec.ofNat k v := by
  apply BitVec.eq_of_toNat_eq
  simp only [pack, BitVec.extractLsb'_toNat, BitVec.toNat_ofNat, Nat.shiftRight_zero]
  rw [Nat.mod_mod_of_dvd _ (Nat.pow_dvd_pow 2 hk), Nat.add_mul_mod_self_left]

/-- A field above the lowest field of a packed word. -/
theorem pack_tail (p m k v : Nat) (r : List (Nat × Nat)) (hv : v < 2 ^ k) (hk : k ≤ p) (hm : p + m ≤ 32) :
    (BitVec.ofNat 32 (pack ((k, v) :: r))).extractLsb' p m = (BitVec.ofNat 32 (pack r)).extractLsb' (p - k) m := by
  apply BitVec.eq_of_toNat_eq
  simp only [pack, BitVec.extractLsb'_toNat, BitVec.toNat_ofNat, Nat.shiftRight_eq_div_pow]
  have e1 : (2:Nat) ^ 32 = 2 ^ p * 2 ^ (32 - p) := by rw [← Nat.pow_add]; congr 1; omega
  have e2 : (2:Nat) ^ 32 = 2 ^ (p - k) * 2 ^ (32 - (p - k)) := by rw [← Nat.pow_add]; congr 1; omega
  have h1 : ∀ x, x % 2 ^ 32 / 2 ^ p % 2 ^ m = x / 2 ^ p % 2 ^ m := by
    intro x
    rw [e1, Nat.mod_mul_right_div_self, Nat.mod_mod_of_dvd _ (Nat.pow_dvd_pow 2 (by omega))]
  have h2 : ∀ x, x % 2 ^ 32 / 2 ^ (p - k) % 2 ^ m = x / 2 ^ (p - k) % 2 ^ m := by
    intro x
    rw [e2, Nat.mod_mul_right_div_self, Nat.mod_mod_of_dvd _ (Nat.pow_dvd_pow 2 (by omega))]
  have e3 : (2:Nat) ^ p = 2 ^ k * 2 ^ (p - k) := by rw [← Nat.pow_add]; congr 1; omega
  have e4 : (v + 2 ^ k * pack r) / 2 ^ k = pack r := by
    rw [Nat.add_mul_div_left _ _ (Nat.pos_of_ne_zero (by simp)), Nat.div_eq_of_lt hv, Nat.zero_add]
  rw [h1, h2, e3, ← Nat.div_div_eq_div_mul, e4]

/-- The highest field of a packed word. -/
theorem pack_last (k v : Nat) : pack [(k, v)] = v := by simp [pack]

theorem decode32_ialu (w : BitVec 32) (h : (w.extractLsb' 25 6).toNat = 0) : decode32 w = decIalu w := by
  unfold decode32; rw [h]; rfl
theorem decode32_imul (w : BitVec 32) (h : (w.extractLsb' 25 6).toNat = 1) : decode32 w = decImul w := by
  unfold decode32; rw [h]; rfl
theorem decode32_addi (w : BitVec 32) (h : (w.extractLsb' 25 6).toNat = 2) : decode32 w = decAddi w := by
  unfold decode32; rw [h]; rfl
theorem decode32_andi (w : BitVec 32) (h : (w.extractLsb' 25 6).toNat = 3) : decode32 w = decAndi w := by
  unfold decode32; rw [h]; rfl
theorem decode32_ori (w : BitVec 32) (h : (w.extractLsb' 25 6).toNat = 4) : decode32 w = decOri w := by
  unfold decode32; rw [h]; rfl
theorem decode32_xori (w : BitVec 32) (h : (w.extractLsb' 25 6).toNat = 5) : decode32 w = decXori w := by
  unfold decode32; rw [h]; rfl
theorem decode32_slti (w : BitVec 32) (h : (w.extractLsb' 25 6).toNat = 6) : decode32 w = decSlti w := by
  unfold decode32; rw [h]; rfl
theorem decode32_shi (w : BitVec 32) (h : (w.extractLsb' 25 6).toNat = 7) : decode32 w = decShi w := by
  unfold decode32; rw [h]; rfl
theorem decode32_bfx (w : BitVec 32) (h : (w.extractLsb' 25 6).toNat = 8) : decode32 w = decBfx w := by
  unfold decode32; rw [h]; rfl
theorem decode32_bfi (w : BitVec 32) (h : (w.extractLsb' 25 6).toNat = 9) : decode32 w = decBfi w := by
  unfold decode32; rw [h]; rfl
theorem decode32_limz (w : BitVec 32) (h : (w.extractLsb' 25 6).toNat = 10) : decode32 w = decLimz w := by
  unfold decode32; rw [h]; rfl
theorem decode32_limh (w : BitVec 32) (h : (w.extractLsb' 25 6).toNat = 11) : decode32 w = decLimh w := by
  unfold decode32; rw [h]; rfl
theorem decode32_adpc (w : BitVec 32) (h : (w.extractLsb' 25 6).toNat = 12) : decode32 w = decAdpc w := by
  unfold decode32; rw [h]; rfl
theorem decode32_fops (w : BitVec 32) (h : (w.extractLsb' 25 6).toNat = 13) : decode32 w = decFops w := by
  unfold decode32; rw [h]; rfl
theorem decode32_fopd (w : BitVec 32) (h : (w.extractLsb' 25 6).toNat = 14) : decode32 w = decFopd w := by
  unfold decode32; rw [h]; rfl
theorem decode32_ffma (w : BitVec 32) (h : (w.extractLsb' 25 6).toNat = 15) : decode32 w = decFfma w := by
  unfold decode32; rw [h]; rfl
theorem decode32_fcvt (w : BitVec 32) (h : (w.extractLsb' 25 6).toNat = 16) : decode32 w = decFcvt w := by
  unfold decode32; rw [h]; rfl
theorem decode32_bcc (w : BitVec 32) (h : (w.extractLsb' 25 6).toNat = 17) : decode32 w = decBcc w := by
  unfold decode32; rw [h]; rfl
theorem decode32_bp (w : BitVec 32) (h : (w.extractLsb' 25 6).toNat = 18) : decode32 w = decBp w := by
  unfold decode32; rw [h]; rfl
theorem decode32_jmp (w : BitVec 32) (h : (w.extractLsb' 25 6).toNat = 19) : decode32 w = decJmp w := by
  unfold decode32; rw [h]; rfl
theorem decode32_jal (w : BitVec 32) (h : (w.extractLsb' 25 6).toNat = 20) : decode32 w = decJal w := by
  unfold decode32; rw [h]; rfl
theorem decode32_jalr (w : BitVec 32) (h : (w.extractLsb' 25 6).toNat = 21) : decode32 w = decJalr w := by
  unfold decode32; rw [h]; rfl
theorem decode32_lds (w : BitVec 32) (h : (w.extractLsb' 25 6).toNat = 22) : decode32 w = decLds w := by
  unfold decode32; rw [h]; rfl
theorem decode32_ldn (w : BitVec 32) (h : (w.extractLsb' 25 6).toNat = 23) : decode32 w = decLdn w := by
  unfold decode32; rw [h]; rfl
theorem decode32_st (w : BitVec 32) (h : (w.extractLsb' 25 6).toNat = 24) : decode32 w = decSt w := by
  unfold decode32; rw [h]; rfl
theorem decode32_memx (w : BitVec 32) (h : (w.extractLsb' 25 6).toNat = 25) : decode32 w = decMemx w := by
  unfold decode32; rw [h]; rfl
theorem decode32_amoi (w : BitVec 32) (h : (w.extractLsb' 25 6).toNat = 26) : decode32 w = decAmoi w := by
  unfold decode32; rw [h]; rfl
theorem decode32_amof (w : BitVec 32) (h : (w.extractLsb' 25 6).toNat = 27) : decode32 w = decAmof w := by
  unfold decode32; rw [h]; rfl
theorem decode32_rsv (w : BitVec 32) (h : (w.extractLsb' 25 6).toNat = 28) : decode32 w = decRsv w := by
  unfold decode32; rw [h]; rfl
theorem decode32_sync (w : BitVec 32) (h : (w.extractLsb' 25 6).toNat = 29) : decode32 w = decSync w := by
  unfold decode32; rw [h]; rfl
theorem decode32_bar (w : BitVec 32) (h : (w.extractLsb' 25 6).toNat = 30) : decode32 w = decBar w := by
  unfold decode32; rw [h]; rfl
theorem decode32_xctx (w : BitVec 32) (h : (w.extractLsb' 25 6).toNat = 31) : decode32 w = decXctx w := by
  unfold decode32; rw [h]; rfl
theorem decode32_via (w : BitVec 32) (h : (w.extractLsb' 25 6).toNat = 32) : decode32 w = decVia w := by
  unfold decode32; rw [h]; rfl
theorem decode32_vib (w : BitVec 32) (h : (w.extractLsb' 25 6).toNat = 33) : decode32 w = decVib w := by
  unfold decode32; rw [h]; rfl
theorem decode32_vf (w : BitVec 32) (h : (w.extractLsb' 25 6).toNat = 34) : decode32 w = decVf w := by
  unfold decode32; rw [h]; rfl
theorem decode32_vfma (w : BitVec 32) (h : (w.extractLsb' 25 6).toNat = 35) : decode32 w = decVfma w := by
  unfold decode32; rw [h]; rfl
theorem decode32_vcmp (w : BitVec 32) (h : (w.extractLsb' 25 6).toNat = 36) : decode32 w = decVcmp w := by
  unfold decode32; rw [h]; rfl
theorem decode32_vsf (w : BitVec 32) (h : (w.extractLsb' 25 6).toNat = 37) : decode32 w = decVsf w := by
  unfold decode32; rw [h]; rfl
theorem decode32_vcvt (w : BitVec 32) (h : (w.extractLsb' 25 6).toNat = 38) : decode32 w = decVcvt w := by
  unfold decode32; rw [h]; rfl
theorem decode32_vlane (w : BitVec 32) (h : (w.extractLsb' 25 6).toNat = 39) : decode32 w = decVlane w := by
  unfold decode32; rw [h]; rfl
theorem decode32_vwide (w : BitVec 32) (h : (w.extractLsb' 25 6).toNat = 40) : decode32 w = decVwide w := by
  unfold decode32; rw [h]; rfl
theorem decode32_vxa (w : BitVec 32) (h : (w.extractLsb' 25 6).toNat = 41) : decode32 w = decVxa w := by
  unfold decode32; rw [h]; rfl
theorem decode32_vmem (w : BitVec 32) (h : (w.extractLsb' 25 6).toNat = 42) : decode32 w = decVmem w := by
  unfold decode32; rw [h]; rfl
theorem decode32_vgs (w : BitVec 32) (h : (w.extractLsb' 25 6).toNat = 43) : decode32 w = decVgs w := by
  unfold decode32; rw [h]; rfl
theorem decode32_vmv (w : BitVec 32) (h : (w.extractLsb' 25 6).toNat = 44) : decode32 w = decVmv w := by
  unfold decode32; rw [h]; rfl
theorem decode32_sfc (w : BitVec 32) (h : (w.extractLsb' 25 6).toNat = 45) : decode32 w = decSfc w := by
  unfold decode32; rw [h]; rfl
theorem decode32_oxm (w : BitVec 32) (h : (w.extractLsb' 25 6).toNat = 46) : decode32 w = decOxm w := by
  unfold decode32; rw [h]; rfl
theorem decode32_que (w : BitVec 32) (h : (w.extractLsb' 25 6).toNat = 48) : decode32 w = decQue w := by
  unfold decode32; rw [h]; rfl
theorem decode32_feedop (w : BitVec 32) (h : (w.extractLsb' 25 6).toNat = 49) : decode32 w = decFeedop w := by
  unfold decode32; rw [h]; rfl
theorem decode32_plt (w : BitVec 32) (h : (w.extractLsb' 25 6).toNat = 50) : decode32 w = decPlt w := by
  unfold decode32; rw [h]; rfl
theorem decode32_rep (w : BitVec 32) (h : (w.extractLsb' 25 6).toNat = 51) : decode32 w = decRep w := by
  unfold decode32; rw [h]; rfl
theorem decode32_dista (w : BitVec 32) (h : (w.extractLsb' 25 6).toNat = 52) : decode32 w = decDista w := by
  unfold decode32; rw [h]; rfl
theorem decode32_distb (w : BitVec 32) (h : (w.extractLsb' 25 6).toNat = 53) : decode32 w = decDistb w := by
  unfold decode32; rw [h]; rfl
theorem decode32_distc (w : BitVec 32) (h : (w.extractLsb' 25 6).toNat = 54) : decode32 w = decDistc w := by
  unfold decode32; rw [h]; rfl
theorem decode32_work (w : BitVec 32) (h : (w.extractLsb' 25 6).toNat = 56) : decode32 w = decWork w := by
  unfold decode32; rw [h]; rfl
theorem decode32_keep (w : BitVec 32) (h : (w.extractLsb' 25 6).toNat = 57) : decode32 w = decKeep w := by
  unfold decode32; rw [h]; rfl
theorem decode32_ctl (w : BitVec 32) (h : (w.extractLsb' 25 6).toNat = 58) : decode32 w = decCtl w := by
  unfold decode32; rw [h]; rfl
theorem decode32_xreg (w : BitVec 32) (h : (w.extractLsb' 25 6).toNat = 59) : decode32 w = decXreg w := by
  unfold decode32; rw [h]; rfl
theorem decode32_trp (w : BitVec 32) (h : (w.extractLsb' 25 6).toNat = 60) : decode32 w = decTrp w := by
  unfold decode32; rw [h]; rfl

end Sys2Proof
end

