-- ==== Sys2Proof/Laws/State.lean ====
section
/-! SUPPORT. What each named update of the state leaves alone and what it sets: one lemma a field and update, by rfl, and the
reads of the tables after a write. -/

namespace Sys2Proof.Machine

variable (s : State)

/-! ### setCtx -/
@[simp] theorem State.cur_setCtx (c : Nat) (x : Ctx) : (s.setCtx c x).cur = s.cur := rfl
@[simp] theorem State.fetched_setCtx (c : Nat) (x : Ctx) : (s.setCtx c x).fetched = s.fetched := rfl
@[simp] theorem State.cores_setCtx (c : Nat) (x : Ctx) : (s.setCtx c x).cores = s.cores := rfl
@[simp] theorem State.galleys_setCtx (c : Nat) (x : Ctx) : (s.setCtx c x).galleys = s.galleys := rfl
@[simp] theorem State.dies_setCtx (c : Nat) (x : Ctx) : (s.setCtx c x).dies = s.dies := rfl
@[simp] theorem State.pkgs_setCtx (c : Nat) (x : Ctx) : (s.setCtx c x).pkgs = s.pkgs := rfl
@[simp] theorem State.mem_setCtx (c : Nat) (x : Ctx) : (s.setCtx c x).mem = s.mem := rfl
@[simp] theorem State.poison_setCtx (c : Nat) (x : Ctx) : (s.setCtx c x).poison = s.poison := rfl
@[simp] theorem State.queues_setCtx (c : Nat) (x : Ctx) : (s.setCtx c x).queues = s.queues := rfl
@[simp] theorem State.levels_setCtx (c : Nat) (x : Ctx) : (s.setCtx c x).levels = s.levels := rfl
@[simp] theorem State.formes_setCtx (c : Nat) (x : Ctx) : (s.setCtx c x).formes = s.formes := rfl
@[simp] theorem State.programs_setCtx (c : Nat) (x : Ctx) : (s.setCtx c x).programs = s.programs := rfl
@[simp] theorem State.resvs_setCtx (c : Nat) (x : Ctx) : (s.setCtx c x).resvs = s.resvs := rfl
@[simp] theorem State.bwaits_setCtx (c : Nat) (x : Ctx) : (s.setCtx c x).bwaits = s.bwaits := rfl
@[simp] theorem State.jobs_setCtx (c : Nat) (x : Ctx) : (s.setCtx c x).jobs = s.jobs := rfl
@[simp] theorem State.shadows_setCtx (c : Nat) (x : Ctx) : (s.setCtx c x).shadows = s.shadows := rfl
@[simp] theorem State.stamps_setCtx (c : Nat) (x : Ctx) : (s.setCtx c x).stamps = s.stamps := rfl
@[simp] theorem State.net_setCtx (c : Nat) (x : Ctx) : (s.setCtx c x).net = s.net := rfl
@[simp] theorem State.nextId_setCtx (c : Nat) (x : Ctx) : (s.setCtx c x).nextId = s.nextId := rfl
@[simp] theorem State.agenda_setCtx (c : Nat) (x : Ctx) : (s.setCtx c x).agenda = s.agenda := rfl
@[simp] theorem State.inbox_setCtx (c : Nat) (x : Ctx) : (s.setCtx c x).inbox = s.inbox := rfl
@[simp] theorem State.outbox_setCtx (c : Nat) (x : Ctx) : (s.setCtx c x).outbox = s.outbox := rfl
@[simp] theorem State.sched_setCtx (c : Nat) (x : Ctx) : (s.setCtx c x).sched = s.sched := rfl
@[simp] theorem State.freeIdx_setCtx (c : Nat) (x : Ctx) : (s.setCtx c x).freeIdx = s.freeIdx := rfl

/-! ### updCtx -/
@[simp] theorem State.cur_updCtx (c : Nat) (f : Ctx → Ctx) : (s.updCtx c f).cur = s.cur := rfl
@[simp] theorem State.fetched_updCtx (c : Nat) (f : Ctx → Ctx) : (s.updCtx c f).fetched = s.fetched := rfl
@[simp] theorem State.cores_updCtx (c : Nat) (f : Ctx → Ctx) : (s.updCtx c f).cores = s.cores := rfl
@[simp] theorem State.galleys_updCtx (c : Nat) (f : Ctx → Ctx) : (s.updCtx c f).galleys = s.galleys := rfl
@[simp] theorem State.dies_updCtx (c : Nat) (f : Ctx → Ctx) : (s.updCtx c f).dies = s.dies := rfl
@[simp] theorem State.pkgs_updCtx (c : Nat) (f : Ctx → Ctx) : (s.updCtx c f).pkgs = s.pkgs := rfl
@[simp] theorem State.mem_updCtx (c : Nat) (f : Ctx → Ctx) : (s.updCtx c f).mem = s.mem := rfl
@[simp] theorem State.poison_updCtx (c : Nat) (f : Ctx → Ctx) : (s.updCtx c f).poison = s.poison := rfl
@[simp] theorem State.queues_updCtx (c : Nat) (f : Ctx → Ctx) : (s.updCtx c f).queues = s.queues := rfl
@[simp] theorem State.levels_updCtx (c : Nat) (f : Ctx → Ctx) : (s.updCtx c f).levels = s.levels := rfl
@[simp] theorem State.formes_updCtx (c : Nat) (f : Ctx → Ctx) : (s.updCtx c f).formes = s.formes := rfl
@[simp] theorem State.programs_updCtx (c : Nat) (f : Ctx → Ctx) : (s.updCtx c f).programs = s.programs := rfl
@[simp] theorem State.resvs_updCtx (c : Nat) (f : Ctx → Ctx) : (s.updCtx c f).resvs = s.resvs := rfl
@[simp] theorem State.bwaits_updCtx (c : Nat) (f : Ctx → Ctx) : (s.updCtx c f).bwaits = s.bwaits := rfl
@[simp] theorem State.jobs_updCtx (c : Nat) (f : Ctx → Ctx) : (s.updCtx c f).jobs = s.jobs := rfl
@[simp] theorem State.shadows_updCtx (c : Nat) (f : Ctx → Ctx) : (s.updCtx c f).shadows = s.shadows := rfl
@[simp] theorem State.stamps_updCtx (c : Nat) (f : Ctx → Ctx) : (s.updCtx c f).stamps = s.stamps := rfl
@[simp] theorem State.net_updCtx (c : Nat) (f : Ctx → Ctx) : (s.updCtx c f).net = s.net := rfl
@[simp] theorem State.nextId_updCtx (c : Nat) (f : Ctx → Ctx) : (s.updCtx c f).nextId = s.nextId := rfl
@[simp] theorem State.agenda_updCtx (c : Nat) (f : Ctx → Ctx) : (s.updCtx c f).agenda = s.agenda := rfl
@[simp] theorem State.inbox_updCtx (c : Nat) (f : Ctx → Ctx) : (s.updCtx c f).inbox = s.inbox := rfl
@[simp] theorem State.outbox_updCtx (c : Nat) (f : Ctx → Ctx) : (s.updCtx c f).outbox = s.outbox := rfl
@[simp] theorem State.sched_updCtx (c : Nat) (f : Ctx → Ctx) : (s.updCtx c f).sched = s.sched := rfl
@[simp] theorem State.freeIdx_updCtx (c : Nat) (f : Ctx → Ctx) : (s.updCtx c f).freeIdx = s.freeIdx := rfl

/-! ### setCore -/
@[simp] theorem State.cur_setCore (k : Nat) (x : Core) : (s.setCore k x).cur = s.cur := rfl
@[simp] theorem State.fetched_setCore (k : Nat) (x : Core) : (s.setCore k x).fetched = s.fetched := rfl
@[simp] theorem State.ctxs_setCore (k : Nat) (x : Core) : (s.setCore k x).ctxs = s.ctxs := rfl
@[simp] theorem State.galleys_setCore (k : Nat) (x : Core) : (s.setCore k x).galleys = s.galleys := rfl
@[simp] theorem State.dies_setCore (k : Nat) (x : Core) : (s.setCore k x).dies = s.dies := rfl
@[simp] theorem State.pkgs_setCore (k : Nat) (x : Core) : (s.setCore k x).pkgs = s.pkgs := rfl
@[simp] theorem State.mem_setCore (k : Nat) (x : Core) : (s.setCore k x).mem = s.mem := rfl
@[simp] theorem State.poison_setCore (k : Nat) (x : Core) : (s.setCore k x).poison = s.poison := rfl
@[simp] theorem State.queues_setCore (k : Nat) (x : Core) : (s.setCore k x).queues = s.queues := rfl
@[simp] theorem State.levels_setCore (k : Nat) (x : Core) : (s.setCore k x).levels = s.levels := rfl
@[simp] theorem State.formes_setCore (k : Nat) (x : Core) : (s.setCore k x).formes = s.formes := rfl
@[simp] theorem State.programs_setCore (k : Nat) (x : Core) : (s.setCore k x).programs = s.programs := rfl
@[simp] theorem State.resvs_setCore (k : Nat) (x : Core) : (s.setCore k x).resvs = s.resvs := rfl
@[simp] theorem State.bwaits_setCore (k : Nat) (x : Core) : (s.setCore k x).bwaits = s.bwaits := rfl
@[simp] theorem State.jobs_setCore (k : Nat) (x : Core) : (s.setCore k x).jobs = s.jobs := rfl
@[simp] theorem State.shadows_setCore (k : Nat) (x : Core) : (s.setCore k x).shadows = s.shadows := rfl
@[simp] theorem State.stamps_setCore (k : Nat) (x : Core) : (s.setCore k x).stamps = s.stamps := rfl
@[simp] theorem State.net_setCore (k : Nat) (x : Core) : (s.setCore k x).net = s.net := rfl
@[simp] theorem State.nextId_setCore (k : Nat) (x : Core) : (s.setCore k x).nextId = s.nextId := rfl
@[simp] theorem State.agenda_setCore (k : Nat) (x : Core) : (s.setCore k x).agenda = s.agenda := rfl
@[simp] theorem State.inbox_setCore (k : Nat) (x : Core) : (s.setCore k x).inbox = s.inbox := rfl
@[simp] theorem State.outbox_setCore (k : Nat) (x : Core) : (s.setCore k x).outbox = s.outbox := rfl
@[simp] theorem State.sched_setCore (k : Nat) (x : Core) : (s.setCore k x).sched = s.sched := rfl
@[simp] theorem State.freeIdx_setCore (k : Nat) (x : Core) : (s.setCore k x).freeIdx = s.freeIdx := rfl

/-! ### updCore -/
@[simp] theorem State.cur_updCore (k : Nat) (f : Core → Core) : (s.updCore k f).cur = s.cur := rfl
@[simp] theorem State.fetched_updCore (k : Nat) (f : Core → Core) : (s.updCore k f).fetched = s.fetched := rfl
@[simp] theorem State.ctxs_updCore (k : Nat) (f : Core → Core) : (s.updCore k f).ctxs = s.ctxs := rfl
@[simp] theorem State.galleys_updCore (k : Nat) (f : Core → Core) : (s.updCore k f).galleys = s.galleys := rfl
@[simp] theorem State.dies_updCore (k : Nat) (f : Core → Core) : (s.updCore k f).dies = s.dies := rfl
@[simp] theorem State.pkgs_updCore (k : Nat) (f : Core → Core) : (s.updCore k f).pkgs = s.pkgs := rfl
@[simp] theorem State.mem_updCore (k : Nat) (f : Core → Core) : (s.updCore k f).mem = s.mem := rfl
@[simp] theorem State.poison_updCore (k : Nat) (f : Core → Core) : (s.updCore k f).poison = s.poison := rfl
@[simp] theorem State.queues_updCore (k : Nat) (f : Core → Core) : (s.updCore k f).queues = s.queues := rfl
@[simp] theorem State.levels_updCore (k : Nat) (f : Core → Core) : (s.updCore k f).levels = s.levels := rfl
@[simp] theorem State.formes_updCore (k : Nat) (f : Core → Core) : (s.updCore k f).formes = s.formes := rfl
@[simp] theorem State.programs_updCore (k : Nat) (f : Core → Core) : (s.updCore k f).programs = s.programs := rfl
@[simp] theorem State.resvs_updCore (k : Nat) (f : Core → Core) : (s.updCore k f).resvs = s.resvs := rfl
@[simp] theorem State.bwaits_updCore (k : Nat) (f : Core → Core) : (s.updCore k f).bwaits = s.bwaits := rfl
@[simp] theorem State.jobs_updCore (k : Nat) (f : Core → Core) : (s.updCore k f).jobs = s.jobs := rfl
@[simp] theorem State.shadows_updCore (k : Nat) (f : Core → Core) : (s.updCore k f).shadows = s.shadows := rfl
@[simp] theorem State.stamps_updCore (k : Nat) (f : Core → Core) : (s.updCore k f).stamps = s.stamps := rfl
@[simp] theorem State.net_updCore (k : Nat) (f : Core → Core) : (s.updCore k f).net = s.net := rfl
@[simp] theorem State.nextId_updCore (k : Nat) (f : Core → Core) : (s.updCore k f).nextId = s.nextId := rfl
@[simp] theorem State.agenda_updCore (k : Nat) (f : Core → Core) : (s.updCore k f).agenda = s.agenda := rfl
@[simp] theorem State.inbox_updCore (k : Nat) (f : Core → Core) : (s.updCore k f).inbox = s.inbox := rfl
@[simp] theorem State.outbox_updCore (k : Nat) (f : Core → Core) : (s.updCore k f).outbox = s.outbox := rfl
@[simp] theorem State.sched_updCore (k : Nat) (f : Core → Core) : (s.updCore k f).sched = s.sched := rfl
@[simp] theorem State.freeIdx_updCore (k : Nat) (f : Core → Core) : (s.updCore k f).freeIdx = s.freeIdx := rfl

/-! ### updGal -/
@[simp] theorem State.cur_updGal (g : Nat) (f : Galley → Galley) : (s.updGal g f).cur = s.cur := rfl
@[simp] theorem State.fetched_updGal (g : Nat) (f : Galley → Galley) : (s.updGal g f).fetched = s.fetched := rfl
@[simp] theorem State.ctxs_updGal (g : Nat) (f : Galley → Galley) : (s.updGal g f).ctxs = s.ctxs := rfl
@[simp] theorem State.cores_updGal (g : Nat) (f : Galley → Galley) : (s.updGal g f).cores = s.cores := rfl
@[simp] theorem State.dies_updGal (g : Nat) (f : Galley → Galley) : (s.updGal g f).dies = s.dies := rfl
@[simp] theorem State.pkgs_updGal (g : Nat) (f : Galley → Galley) : (s.updGal g f).pkgs = s.pkgs := rfl
@[simp] theorem State.mem_updGal (g : Nat) (f : Galley → Galley) : (s.updGal g f).mem = s.mem := rfl
@[simp] theorem State.poison_updGal (g : Nat) (f : Galley → Galley) : (s.updGal g f).poison = s.poison := rfl
@[simp] theorem State.queues_updGal (g : Nat) (f : Galley → Galley) : (s.updGal g f).queues = s.queues := rfl
@[simp] theorem State.levels_updGal (g : Nat) (f : Galley → Galley) : (s.updGal g f).levels = s.levels := rfl
@[simp] theorem State.formes_updGal (g : Nat) (f : Galley → Galley) : (s.updGal g f).formes = s.formes := rfl
@[simp] theorem State.programs_updGal (g : Nat) (f : Galley → Galley) : (s.updGal g f).programs = s.programs := rfl
@[simp] theorem State.resvs_updGal (g : Nat) (f : Galley → Galley) : (s.updGal g f).resvs = s.resvs := rfl
@[simp] theorem State.bwaits_updGal (g : Nat) (f : Galley → Galley) : (s.updGal g f).bwaits = s.bwaits := rfl
@[simp] theorem State.jobs_updGal (g : Nat) (f : Galley → Galley) : (s.updGal g f).jobs = s.jobs := rfl
@[simp] theorem State.shadows_updGal (g : Nat) (f : Galley → Galley) : (s.updGal g f).shadows = s.shadows := rfl
@[simp] theorem State.stamps_updGal (g : Nat) (f : Galley → Galley) : (s.updGal g f).stamps = s.stamps := rfl
@[simp] theorem State.net_updGal (g : Nat) (f : Galley → Galley) : (s.updGal g f).net = s.net := rfl
@[simp] theorem State.nextId_updGal (g : Nat) (f : Galley → Galley) : (s.updGal g f).nextId = s.nextId := rfl
@[simp] theorem State.agenda_updGal (g : Nat) (f : Galley → Galley) : (s.updGal g f).agenda = s.agenda := rfl
@[simp] theorem State.inbox_updGal (g : Nat) (f : Galley → Galley) : (s.updGal g f).inbox = s.inbox := rfl
@[simp] theorem State.outbox_updGal (g : Nat) (f : Galley → Galley) : (s.updGal g f).outbox = s.outbox := rfl
@[simp] theorem State.sched_updGal (g : Nat) (f : Galley → Galley) : (s.updGal g f).sched = s.sched := rfl
@[simp] theorem State.freeIdx_updGal (g : Nat) (f : Galley → Galley) : (s.updGal g f).freeIdx = s.freeIdx := rfl

/-! ### updDie -/
@[simp] theorem State.cur_updDie (d : Nat) (f : Die → Die) : (s.updDie d f).cur = s.cur := rfl
@[simp] theorem State.fetched_updDie (d : Nat) (f : Die → Die) : (s.updDie d f).fetched = s.fetched := rfl
@[simp] theorem State.ctxs_updDie (d : Nat) (f : Die → Die) : (s.updDie d f).ctxs = s.ctxs := rfl
@[simp] theorem State.cores_updDie (d : Nat) (f : Die → Die) : (s.updDie d f).cores = s.cores := rfl
@[simp] theorem State.galleys_updDie (d : Nat) (f : Die → Die) : (s.updDie d f).galleys = s.galleys := rfl
@[simp] theorem State.pkgs_updDie (d : Nat) (f : Die → Die) : (s.updDie d f).pkgs = s.pkgs := rfl
@[simp] theorem State.mem_updDie (d : Nat) (f : Die → Die) : (s.updDie d f).mem = s.mem := rfl
@[simp] theorem State.poison_updDie (d : Nat) (f : Die → Die) : (s.updDie d f).poison = s.poison := rfl
@[simp] theorem State.queues_updDie (d : Nat) (f : Die → Die) : (s.updDie d f).queues = s.queues := rfl
@[simp] theorem State.levels_updDie (d : Nat) (f : Die → Die) : (s.updDie d f).levels = s.levels := rfl
@[simp] theorem State.formes_updDie (d : Nat) (f : Die → Die) : (s.updDie d f).formes = s.formes := rfl
@[simp] theorem State.programs_updDie (d : Nat) (f : Die → Die) : (s.updDie d f).programs = s.programs := rfl
@[simp] theorem State.resvs_updDie (d : Nat) (f : Die → Die) : (s.updDie d f).resvs = s.resvs := rfl
@[simp] theorem State.bwaits_updDie (d : Nat) (f : Die → Die) : (s.updDie d f).bwaits = s.bwaits := rfl
@[simp] theorem State.jobs_updDie (d : Nat) (f : Die → Die) : (s.updDie d f).jobs = s.jobs := rfl
@[simp] theorem State.shadows_updDie (d : Nat) (f : Die → Die) : (s.updDie d f).shadows = s.shadows := rfl
@[simp] theorem State.stamps_updDie (d : Nat) (f : Die → Die) : (s.updDie d f).stamps = s.stamps := rfl
@[simp] theorem State.net_updDie (d : Nat) (f : Die → Die) : (s.updDie d f).net = s.net := rfl
@[simp] theorem State.nextId_updDie (d : Nat) (f : Die → Die) : (s.updDie d f).nextId = s.nextId := rfl
@[simp] theorem State.agenda_updDie (d : Nat) (f : Die → Die) : (s.updDie d f).agenda = s.agenda := rfl
@[simp] theorem State.inbox_updDie (d : Nat) (f : Die → Die) : (s.updDie d f).inbox = s.inbox := rfl
@[simp] theorem State.outbox_updDie (d : Nat) (f : Die → Die) : (s.updDie d f).outbox = s.outbox := rfl
@[simp] theorem State.sched_updDie (d : Nat) (f : Die → Die) : (s.updDie d f).sched = s.sched := rfl
@[simp] theorem State.freeIdx_updDie (d : Nat) (f : Die → Die) : (s.updDie d f).freeIdx = s.freeIdx := rfl

/-! ### updPkg -/
@[simp] theorem State.cur_updPkg (p : Nat) (f : Pkg → Pkg) : (s.updPkg p f).cur = s.cur := rfl
@[simp] theorem State.fetched_updPkg (p : Nat) (f : Pkg → Pkg) : (s.updPkg p f).fetched = s.fetched := rfl
@[simp] theorem State.ctxs_updPkg (p : Nat) (f : Pkg → Pkg) : (s.updPkg p f).ctxs = s.ctxs := rfl
@[simp] theorem State.cores_updPkg (p : Nat) (f : Pkg → Pkg) : (s.updPkg p f).cores = s.cores := rfl
@[simp] theorem State.galleys_updPkg (p : Nat) (f : Pkg → Pkg) : (s.updPkg p f).galleys = s.galleys := rfl
@[simp] theorem State.dies_updPkg (p : Nat) (f : Pkg → Pkg) : (s.updPkg p f).dies = s.dies := rfl
@[simp] theorem State.mem_updPkg (p : Nat) (f : Pkg → Pkg) : (s.updPkg p f).mem = s.mem := rfl
@[simp] theorem State.poison_updPkg (p : Nat) (f : Pkg → Pkg) : (s.updPkg p f).poison = s.poison := rfl
@[simp] theorem State.queues_updPkg (p : Nat) (f : Pkg → Pkg) : (s.updPkg p f).queues = s.queues := rfl
@[simp] theorem State.levels_updPkg (p : Nat) (f : Pkg → Pkg) : (s.updPkg p f).levels = s.levels := rfl
@[simp] theorem State.formes_updPkg (p : Nat) (f : Pkg → Pkg) : (s.updPkg p f).formes = s.formes := rfl
@[simp] theorem State.programs_updPkg (p : Nat) (f : Pkg → Pkg) : (s.updPkg p f).programs = s.programs := rfl
@[simp] theorem State.resvs_updPkg (p : Nat) (f : Pkg → Pkg) : (s.updPkg p f).resvs = s.resvs := rfl
@[simp] theorem State.bwaits_updPkg (p : Nat) (f : Pkg → Pkg) : (s.updPkg p f).bwaits = s.bwaits := rfl
@[simp] theorem State.jobs_updPkg (p : Nat) (f : Pkg → Pkg) : (s.updPkg p f).jobs = s.jobs := rfl
@[simp] theorem State.shadows_updPkg (p : Nat) (f : Pkg → Pkg) : (s.updPkg p f).shadows = s.shadows := rfl
@[simp] theorem State.stamps_updPkg (p : Nat) (f : Pkg → Pkg) : (s.updPkg p f).stamps = s.stamps := rfl
@[simp] theorem State.net_updPkg (p : Nat) (f : Pkg → Pkg) : (s.updPkg p f).net = s.net := rfl
@[simp] theorem State.nextId_updPkg (p : Nat) (f : Pkg → Pkg) : (s.updPkg p f).nextId = s.nextId := rfl
@[simp] theorem State.agenda_updPkg (p : Nat) (f : Pkg → Pkg) : (s.updPkg p f).agenda = s.agenda := rfl
@[simp] theorem State.inbox_updPkg (p : Nat) (f : Pkg → Pkg) : (s.updPkg p f).inbox = s.inbox := rfl
@[simp] theorem State.outbox_updPkg (p : Nat) (f : Pkg → Pkg) : (s.updPkg p f).outbox = s.outbox := rfl
@[simp] theorem State.sched_updPkg (p : Nat) (f : Pkg → Pkg) : (s.updPkg p f).sched = s.sched := rfl
@[simp] theorem State.freeIdx_updPkg (p : Nat) (f : Pkg → Pkg) : (s.updPkg p f).freeIdx = s.freeIdx := rfl

/-! ### setQueue -/
@[simp] theorem State.cur_setQueue (q : Nat) (x : Queue) : (s.setQueue q x).cur = s.cur := rfl
@[simp] theorem State.fetched_setQueue (q : Nat) (x : Queue) : (s.setQueue q x).fetched = s.fetched := rfl
@[simp] theorem State.ctxs_setQueue (q : Nat) (x : Queue) : (s.setQueue q x).ctxs = s.ctxs := rfl
@[simp] theorem State.cores_setQueue (q : Nat) (x : Queue) : (s.setQueue q x).cores = s.cores := rfl
@[simp] theorem State.galleys_setQueue (q : Nat) (x : Queue) : (s.setQueue q x).galleys = s.galleys := rfl
@[simp] theorem State.dies_setQueue (q : Nat) (x : Queue) : (s.setQueue q x).dies = s.dies := rfl
@[simp] theorem State.pkgs_setQueue (q : Nat) (x : Queue) : (s.setQueue q x).pkgs = s.pkgs := rfl
@[simp] theorem State.mem_setQueue (q : Nat) (x : Queue) : (s.setQueue q x).mem = s.mem := rfl
@[simp] theorem State.poison_setQueue (q : Nat) (x : Queue) : (s.setQueue q x).poison = s.poison := rfl
@[simp] theorem State.levels_setQueue (q : Nat) (x : Queue) : (s.setQueue q x).levels = s.levels := rfl
@[simp] theorem State.formes_setQueue (q : Nat) (x : Queue) : (s.setQueue q x).formes = s.formes := rfl
@[simp] theorem State.programs_setQueue (q : Nat) (x : Queue) : (s.setQueue q x).programs = s.programs := rfl
@[simp] theorem State.resvs_setQueue (q : Nat) (x : Queue) : (s.setQueue q x).resvs = s.resvs := rfl
@[simp] theorem State.bwaits_setQueue (q : Nat) (x : Queue) : (s.setQueue q x).bwaits = s.bwaits := rfl
@[simp] theorem State.jobs_setQueue (q : Nat) (x : Queue) : (s.setQueue q x).jobs = s.jobs := rfl
@[simp] theorem State.shadows_setQueue (q : Nat) (x : Queue) : (s.setQueue q x).shadows = s.shadows := rfl
@[simp] theorem State.stamps_setQueue (q : Nat) (x : Queue) : (s.setQueue q x).stamps = s.stamps := rfl
@[simp] theorem State.net_setQueue (q : Nat) (x : Queue) : (s.setQueue q x).net = s.net := rfl
@[simp] theorem State.nextId_setQueue (q : Nat) (x : Queue) : (s.setQueue q x).nextId = s.nextId := rfl
@[simp] theorem State.agenda_setQueue (q : Nat) (x : Queue) : (s.setQueue q x).agenda = s.agenda := rfl
@[simp] theorem State.inbox_setQueue (q : Nat) (x : Queue) : (s.setQueue q x).inbox = s.inbox := rfl
@[simp] theorem State.outbox_setQueue (q : Nat) (x : Queue) : (s.setQueue q x).outbox = s.outbox := rfl
@[simp] theorem State.sched_setQueue (q : Nat) (x : Queue) : (s.setQueue q x).sched = s.sched := rfl
@[simp] theorem State.freeIdx_setQueue (q : Nat) (x : Queue) : (s.setQueue q x).freeIdx = s.freeIdx := rfl

/-! ### setLevel -/
@[simp] theorem State.cur_setLevel (l : Nat) (x : Level) : (s.setLevel l x).cur = s.cur := rfl
@[simp] theorem State.fetched_setLevel (l : Nat) (x : Level) : (s.setLevel l x).fetched = s.fetched := rfl
@[simp] theorem State.ctxs_setLevel (l : Nat) (x : Level) : (s.setLevel l x).ctxs = s.ctxs := rfl
@[simp] theorem State.cores_setLevel (l : Nat) (x : Level) : (s.setLevel l x).cores = s.cores := rfl
@[simp] theorem State.galleys_setLevel (l : Nat) (x : Level) : (s.setLevel l x).galleys = s.galleys := rfl
@[simp] theorem State.dies_setLevel (l : Nat) (x : Level) : (s.setLevel l x).dies = s.dies := rfl
@[simp] theorem State.pkgs_setLevel (l : Nat) (x : Level) : (s.setLevel l x).pkgs = s.pkgs := rfl
@[simp] theorem State.mem_setLevel (l : Nat) (x : Level) : (s.setLevel l x).mem = s.mem := rfl
@[simp] theorem State.poison_setLevel (l : Nat) (x : Level) : (s.setLevel l x).poison = s.poison := rfl
@[simp] theorem State.queues_setLevel (l : Nat) (x : Level) : (s.setLevel l x).queues = s.queues := rfl
@[simp] theorem State.formes_setLevel (l : Nat) (x : Level) : (s.setLevel l x).formes = s.formes := rfl
@[simp] theorem State.programs_setLevel (l : Nat) (x : Level) : (s.setLevel l x).programs = s.programs := rfl
@[simp] theorem State.resvs_setLevel (l : Nat) (x : Level) : (s.setLevel l x).resvs = s.resvs := rfl
@[simp] theorem State.bwaits_setLevel (l : Nat) (x : Level) : (s.setLevel l x).bwaits = s.bwaits := rfl
@[simp] theorem State.jobs_setLevel (l : Nat) (x : Level) : (s.setLevel l x).jobs = s.jobs := rfl
@[simp] theorem State.shadows_setLevel (l : Nat) (x : Level) : (s.setLevel l x).shadows = s.shadows := rfl
@[simp] theorem State.stamps_setLevel (l : Nat) (x : Level) : (s.setLevel l x).stamps = s.stamps := rfl
@[simp] theorem State.net_setLevel (l : Nat) (x : Level) : (s.setLevel l x).net = s.net := rfl
@[simp] theorem State.nextId_setLevel (l : Nat) (x : Level) : (s.setLevel l x).nextId = s.nextId := rfl
@[simp] theorem State.agenda_setLevel (l : Nat) (x : Level) : (s.setLevel l x).agenda = s.agenda := rfl
@[simp] theorem State.inbox_setLevel (l : Nat) (x : Level) : (s.setLevel l x).inbox = s.inbox := rfl
@[simp] theorem State.outbox_setLevel (l : Nat) (x : Level) : (s.setLevel l x).outbox = s.outbox := rfl
@[simp] theorem State.sched_setLevel (l : Nat) (x : Level) : (s.setLevel l x).sched = s.sched := rfl
@[simp] theorem State.freeIdx_setLevel (l : Nat) (x : Level) : (s.setLevel l x).freeIdx = s.freeIdx := rfl

/-! ### updProgram -/
@[simp] theorem State.cur_updProgram (h : Nat) (f : Program → Program) : (s.updProgram h f).cur = s.cur := rfl
@[simp] theorem State.fetched_updProgram (h : Nat) (f : Program → Program) : (s.updProgram h f).fetched = s.fetched := rfl
@[simp] theorem State.ctxs_updProgram (h : Nat) (f : Program → Program) : (s.updProgram h f).ctxs = s.ctxs := rfl
@[simp] theorem State.cores_updProgram (h : Nat) (f : Program → Program) : (s.updProgram h f).cores = s.cores := rfl
@[simp] theorem State.galleys_updProgram (h : Nat) (f : Program → Program) : (s.updProgram h f).galleys = s.galleys := rfl
@[simp] theorem State.dies_updProgram (h : Nat) (f : Program → Program) : (s.updProgram h f).dies = s.dies := rfl
@[simp] theorem State.pkgs_updProgram (h : Nat) (f : Program → Program) : (s.updProgram h f).pkgs = s.pkgs := rfl
@[simp] theorem State.mem_updProgram (h : Nat) (f : Program → Program) : (s.updProgram h f).mem = s.mem := rfl
@[simp] theorem State.poison_updProgram (h : Nat) (f : Program → Program) : (s.updProgram h f).poison = s.poison := rfl
@[simp] theorem State.queues_updProgram (h : Nat) (f : Program → Program) : (s.updProgram h f).queues = s.queues := rfl
@[simp] theorem State.levels_updProgram (h : Nat) (f : Program → Program) : (s.updProgram h f).levels = s.levels := rfl
@[simp] theorem State.formes_updProgram (h : Nat) (f : Program → Program) : (s.updProgram h f).formes = s.formes := rfl
@[simp] theorem State.resvs_updProgram (h : Nat) (f : Program → Program) : (s.updProgram h f).resvs = s.resvs := rfl
@[simp] theorem State.bwaits_updProgram (h : Nat) (f : Program → Program) : (s.updProgram h f).bwaits = s.bwaits := rfl
@[simp] theorem State.jobs_updProgram (h : Nat) (f : Program → Program) : (s.updProgram h f).jobs = s.jobs := rfl
@[simp] theorem State.shadows_updProgram (h : Nat) (f : Program → Program) : (s.updProgram h f).shadows = s.shadows := rfl
@[simp] theorem State.stamps_updProgram (h : Nat) (f : Program → Program) : (s.updProgram h f).stamps = s.stamps := rfl
@[simp] theorem State.net_updProgram (h : Nat) (f : Program → Program) : (s.updProgram h f).net = s.net := rfl
@[simp] theorem State.nextId_updProgram (h : Nat) (f : Program → Program) : (s.updProgram h f).nextId = s.nextId := rfl
@[simp] theorem State.agenda_updProgram (h : Nat) (f : Program → Program) : (s.updProgram h f).agenda = s.agenda := rfl
@[simp] theorem State.inbox_updProgram (h : Nat) (f : Program → Program) : (s.updProgram h f).inbox = s.inbox := rfl
@[simp] theorem State.outbox_updProgram (h : Nat) (f : Program → Program) : (s.updProgram h f).outbox = s.outbox := rfl
@[simp] theorem State.sched_updProgram (h : Nat) (f : Program → Program) : (s.updProgram h f).sched = s.sched := rfl
@[simp] theorem State.freeIdx_updProgram (h : Nat) (f : Program → Program) : (s.updProgram h f).freeIdx = s.freeIdx := rfl

/-! ### updForme -/
@[simp] theorem State.cur_updForme (h : Nat) (f : Forme → Forme) : (s.updForme h f).cur = s.cur := rfl
@[simp] theorem State.fetched_updForme (h : Nat) (f : Forme → Forme) : (s.updForme h f).fetched = s.fetched := rfl
@[simp] theorem State.ctxs_updForme (h : Nat) (f : Forme → Forme) : (s.updForme h f).ctxs = s.ctxs := rfl
@[simp] theorem State.cores_updForme (h : Nat) (f : Forme → Forme) : (s.updForme h f).cores = s.cores := rfl
@[simp] theorem State.galleys_updForme (h : Nat) (f : Forme → Forme) : (s.updForme h f).galleys = s.galleys := rfl
@[simp] theorem State.dies_updForme (h : Nat) (f : Forme → Forme) : (s.updForme h f).dies = s.dies := rfl
@[simp] theorem State.pkgs_updForme (h : Nat) (f : Forme → Forme) : (s.updForme h f).pkgs = s.pkgs := rfl
@[simp] theorem State.mem_updForme (h : Nat) (f : Forme → Forme) : (s.updForme h f).mem = s.mem := rfl
@[simp] theorem State.poison_updForme (h : Nat) (f : Forme → Forme) : (s.updForme h f).poison = s.poison := rfl
@[simp] theorem State.queues_updForme (h : Nat) (f : Forme → Forme) : (s.updForme h f).queues = s.queues := rfl
@[simp] theorem State.levels_updForme (h : Nat) (f : Forme → Forme) : (s.updForme h f).levels = s.levels := rfl
@[simp] theorem State.programs_updForme (h : Nat) (f : Forme → Forme) : (s.updForme h f).programs = s.programs := rfl
@[simp] theorem State.resvs_updForme (h : Nat) (f : Forme → Forme) : (s.updForme h f).resvs = s.resvs := rfl
@[simp] theorem State.bwaits_updForme (h : Nat) (f : Forme → Forme) : (s.updForme h f).bwaits = s.bwaits := rfl
@[simp] theorem State.jobs_updForme (h : Nat) (f : Forme → Forme) : (s.updForme h f).jobs = s.jobs := rfl
@[simp] theorem State.shadows_updForme (h : Nat) (f : Forme → Forme) : (s.updForme h f).shadows = s.shadows := rfl
@[simp] theorem State.stamps_updForme (h : Nat) (f : Forme → Forme) : (s.updForme h f).stamps = s.stamps := rfl
@[simp] theorem State.net_updForme (h : Nat) (f : Forme → Forme) : (s.updForme h f).net = s.net := rfl
@[simp] theorem State.nextId_updForme (h : Nat) (f : Forme → Forme) : (s.updForme h f).nextId = s.nextId := rfl
@[simp] theorem State.agenda_updForme (h : Nat) (f : Forme → Forme) : (s.updForme h f).agenda = s.agenda := rfl
@[simp] theorem State.inbox_updForme (h : Nat) (f : Forme → Forme) : (s.updForme h f).inbox = s.inbox := rfl
@[simp] theorem State.outbox_updForme (h : Nat) (f : Forme → Forme) : (s.updForme h f).outbox = s.outbox := rfl
@[simp] theorem State.sched_updForme (h : Nat) (f : Forme → Forme) : (s.updForme h f).sched = s.sched := rfl
@[simp] theorem State.freeIdx_updForme (h : Nat) (f : Forme → Forme) : (s.updForme h f).freeIdx = s.freeIdx := rfl

/-! ### due -/
@[simp] theorem State.cur_due (e : Instr) : (s.due e).cur = s.cur := rfl
@[simp] theorem State.fetched_due (e : Instr) : (s.due e).fetched = s.fetched := rfl
@[simp] theorem State.ctxs_due (e : Instr) : (s.due e).ctxs = s.ctxs := rfl
@[simp] theorem State.cores_due (e : Instr) : (s.due e).cores = s.cores := rfl
@[simp] theorem State.galleys_due (e : Instr) : (s.due e).galleys = s.galleys := rfl
@[simp] theorem State.dies_due (e : Instr) : (s.due e).dies = s.dies := rfl
@[simp] theorem State.pkgs_due (e : Instr) : (s.due e).pkgs = s.pkgs := rfl
@[simp] theorem State.mem_due (e : Instr) : (s.due e).mem = s.mem := rfl
@[simp] theorem State.poison_due (e : Instr) : (s.due e).poison = s.poison := rfl
@[simp] theorem State.queues_due (e : Instr) : (s.due e).queues = s.queues := rfl
@[simp] theorem State.levels_due (e : Instr) : (s.due e).levels = s.levels := rfl
@[simp] theorem State.formes_due (e : Instr) : (s.due e).formes = s.formes := rfl
@[simp] theorem State.programs_due (e : Instr) : (s.due e).programs = s.programs := rfl
@[simp] theorem State.resvs_due (e : Instr) : (s.due e).resvs = s.resvs := rfl
@[simp] theorem State.bwaits_due (e : Instr) : (s.due e).bwaits = s.bwaits := rfl
@[simp] theorem State.jobs_due (e : Instr) : (s.due e).jobs = s.jobs := rfl
@[simp] theorem State.shadows_due (e : Instr) : (s.due e).shadows = s.shadows := rfl
@[simp] theorem State.stamps_due (e : Instr) : (s.due e).stamps = s.stamps := rfl
@[simp] theorem State.net_due (e : Instr) : (s.due e).net = s.net := rfl
@[simp] theorem State.nextId_due (e : Instr) : (s.due e).nextId = s.nextId := rfl
@[simp] theorem State.inbox_due (e : Instr) : (s.due e).inbox = s.inbox := rfl
@[simp] theorem State.outbox_due (e : Instr) : (s.due e).outbox = s.outbox := rfl
@[simp] theorem State.sched_due (e : Instr) : (s.due e).sched = s.sched := rfl
@[simp] theorem State.freeIdx_due (e : Instr) : (s.due e).freeIdx = s.freeIdx := rfl

/-! ### emit -/
@[simp] theorem State.cur_emit (o : Output) : (s.emit o).cur = s.cur := rfl
@[simp] theorem State.fetched_emit (o : Output) : (s.emit o).fetched = s.fetched := rfl
@[simp] theorem State.ctxs_emit (o : Output) : (s.emit o).ctxs = s.ctxs := rfl
@[simp] theorem State.cores_emit (o : Output) : (s.emit o).cores = s.cores := rfl
@[simp] theorem State.galleys_emit (o : Output) : (s.emit o).galleys = s.galleys := rfl
@[simp] theorem State.dies_emit (o : Output) : (s.emit o).dies = s.dies := rfl
@[simp] theorem State.pkgs_emit (o : Output) : (s.emit o).pkgs = s.pkgs := rfl
@[simp] theorem State.mem_emit (o : Output) : (s.emit o).mem = s.mem := rfl
@[simp] theorem State.poison_emit (o : Output) : (s.emit o).poison = s.poison := rfl
@[simp] theorem State.queues_emit (o : Output) : (s.emit o).queues = s.queues := rfl
@[simp] theorem State.levels_emit (o : Output) : (s.emit o).levels = s.levels := rfl
@[simp] theorem State.formes_emit (o : Output) : (s.emit o).formes = s.formes := rfl
@[simp] theorem State.programs_emit (o : Output) : (s.emit o).programs = s.programs := rfl
@[simp] theorem State.resvs_emit (o : Output) : (s.emit o).resvs = s.resvs := rfl
@[simp] theorem State.bwaits_emit (o : Output) : (s.emit o).bwaits = s.bwaits := rfl
@[simp] theorem State.jobs_emit (o : Output) : (s.emit o).jobs = s.jobs := rfl
@[simp] theorem State.shadows_emit (o : Output) : (s.emit o).shadows = s.shadows := rfl
@[simp] theorem State.stamps_emit (o : Output) : (s.emit o).stamps = s.stamps := rfl
@[simp] theorem State.net_emit (o : Output) : (s.emit o).net = s.net := rfl
@[simp] theorem State.nextId_emit (o : Output) : (s.emit o).nextId = s.nextId := rfl
@[simp] theorem State.agenda_emit (o : Output) : (s.emit o).agenda = s.agenda := rfl
@[simp] theorem State.inbox_emit (o : Output) : (s.emit o).inbox = s.inbox := rfl
@[simp] theorem State.sched_emit (o : Output) : (s.emit o).sched = s.sched := rfl
@[simp] theorem State.freeIdx_emit (o : Output) : (s.emit o).freeIdx = s.freeIdx := rfl

/-! ### setBytes -/
@[simp] theorem State.cur_setBytes (k : Nat) (bs : List Byte) : (s.setBytes k bs).cur = s.cur := rfl
@[simp] theorem State.fetched_setBytes (k : Nat) (bs : List Byte) : (s.setBytes k bs).fetched = s.fetched := rfl
@[simp] theorem State.ctxs_setBytes (k : Nat) (bs : List Byte) : (s.setBytes k bs).ctxs = s.ctxs := rfl
@[simp] theorem State.cores_setBytes (k : Nat) (bs : List Byte) : (s.setBytes k bs).cores = s.cores := rfl
@[simp] theorem State.galleys_setBytes (k : Nat) (bs : List Byte) : (s.setBytes k bs).galleys = s.galleys := rfl
@[simp] theorem State.dies_setBytes (k : Nat) (bs : List Byte) : (s.setBytes k bs).dies = s.dies := rfl
@[simp] theorem State.pkgs_setBytes (k : Nat) (bs : List Byte) : (s.setBytes k bs).pkgs = s.pkgs := rfl
@[simp] theorem State.queues_setBytes (k : Nat) (bs : List Byte) : (s.setBytes k bs).queues = s.queues := rfl
@[simp] theorem State.levels_setBytes (k : Nat) (bs : List Byte) : (s.setBytes k bs).levels = s.levels := rfl
@[simp] theorem State.formes_setBytes (k : Nat) (bs : List Byte) : (s.setBytes k bs).formes = s.formes := rfl
@[simp] theorem State.programs_setBytes (k : Nat) (bs : List Byte) : (s.setBytes k bs).programs = s.programs := rfl
@[simp] theorem State.resvs_setBytes (k : Nat) (bs : List Byte) : (s.setBytes k bs).resvs = s.resvs := rfl
@[simp] theorem State.bwaits_setBytes (k : Nat) (bs : List Byte) : (s.setBytes k bs).bwaits = s.bwaits := rfl
@[simp] theorem State.jobs_setBytes (k : Nat) (bs : List Byte) : (s.setBytes k bs).jobs = s.jobs := rfl
@[simp] theorem State.shadows_setBytes (k : Nat) (bs : List Byte) : (s.setBytes k bs).shadows = s.shadows := rfl
@[simp] theorem State.stamps_setBytes (k : Nat) (bs : List Byte) : (s.setBytes k bs).stamps = s.stamps := rfl
@[simp] theorem State.net_setBytes (k : Nat) (bs : List Byte) : (s.setBytes k bs).net = s.net := rfl
@[simp] theorem State.nextId_setBytes (k : Nat) (bs : List Byte) : (s.setBytes k bs).nextId = s.nextId := rfl
@[simp] theorem State.agenda_setBytes (k : Nat) (bs : List Byte) : (s.setBytes k bs).agenda = s.agenda := rfl
@[simp] theorem State.inbox_setBytes (k : Nat) (bs : List Byte) : (s.setBytes k bs).inbox = s.inbox := rfl
@[simp] theorem State.outbox_setBytes (k : Nat) (bs : List Byte) : (s.setBytes k bs).outbox = s.outbox := rfl
@[simp] theorem State.sched_setBytes (k : Nat) (bs : List Byte) : (s.setBytes k bs).sched = s.sched := rfl
@[simp] theorem State.freeIdx_setBytes (k : Nat) (bs : List Byte) : (s.setBytes k bs).freeIdx = s.freeIdx := rfl

/-! ### setMsg -/
@[simp] theorem State.cur_setMsg (m : Msg) : (s.setMsg m).cur = s.cur := rfl
@[simp] theorem State.fetched_setMsg (m : Msg) : (s.setMsg m).fetched = s.fetched := rfl
@[simp] theorem State.ctxs_setMsg (m : Msg) : (s.setMsg m).ctxs = s.ctxs := rfl
@[simp] theorem State.cores_setMsg (m : Msg) : (s.setMsg m).cores = s.cores := rfl
@[simp] theorem State.galleys_setMsg (m : Msg) : (s.setMsg m).galleys = s.galleys := rfl
@[simp] theorem State.dies_setMsg (m : Msg) : (s.setMsg m).dies = s.dies := rfl
@[simp] theorem State.pkgs_setMsg (m : Msg) : (s.setMsg m).pkgs = s.pkgs := rfl
@[simp] theorem State.mem_setMsg (m : Msg) : (s.setMsg m).mem = s.mem := rfl
@[simp] theorem State.poison_setMsg (m : Msg) : (s.setMsg m).poison = s.poison := rfl
@[simp] theorem State.queues_setMsg (m : Msg) : (s.setMsg m).queues = s.queues := rfl
@[simp] theorem State.levels_setMsg (m : Msg) : (s.setMsg m).levels = s.levels := rfl
@[simp] theorem State.formes_setMsg (m : Msg) : (s.setMsg m).formes = s.formes := rfl
@[simp] theorem State.programs_setMsg (m : Msg) : (s.setMsg m).programs = s.programs := rfl
@[simp] theorem State.resvs_setMsg (m : Msg) : (s.setMsg m).resvs = s.resvs := rfl
@[simp] theorem State.bwaits_setMsg (m : Msg) : (s.setMsg m).bwaits = s.bwaits := rfl
@[simp] theorem State.jobs_setMsg (m : Msg) : (s.setMsg m).jobs = s.jobs := rfl
@[simp] theorem State.shadows_setMsg (m : Msg) : (s.setMsg m).shadows = s.shadows := rfl
@[simp] theorem State.stamps_setMsg (m : Msg) : (s.setMsg m).stamps = s.stamps := rfl
@[simp] theorem State.nextId_setMsg (m : Msg) : (s.setMsg m).nextId = s.nextId := rfl
@[simp] theorem State.agenda_setMsg (m : Msg) : (s.setMsg m).agenda = s.agenda := rfl
@[simp] theorem State.inbox_setMsg (m : Msg) : (s.setMsg m).inbox = s.inbox := rfl
@[simp] theorem State.outbox_setMsg (m : Msg) : (s.setMsg m).outbox = s.outbox := rfl
@[simp] theorem State.sched_setMsg (m : Msg) : (s.setMsg m).sched = s.sched := rfl
@[simp] theorem State.freeIdx_setMsg (m : Msg) : (s.setMsg m).freeIdx = s.freeIdx := rfl

/-! ### dropMsg -/
@[simp] theorem State.cur_dropMsg (id : Nat) : (s.dropMsg id).cur = s.cur := rfl
@[simp] theorem State.fetched_dropMsg (id : Nat) : (s.dropMsg id).fetched = s.fetched := rfl
@[simp] theorem State.ctxs_dropMsg (id : Nat) : (s.dropMsg id).ctxs = s.ctxs := rfl
@[simp] theorem State.cores_dropMsg (id : Nat) : (s.dropMsg id).cores = s.cores := rfl
@[simp] theorem State.galleys_dropMsg (id : Nat) : (s.dropMsg id).galleys = s.galleys := rfl
@[simp] theorem State.dies_dropMsg (id : Nat) : (s.dropMsg id).dies = s.dies := rfl
@[simp] theorem State.pkgs_dropMsg (id : Nat) : (s.dropMsg id).pkgs = s.pkgs := rfl
@[simp] theorem State.mem_dropMsg (id : Nat) : (s.dropMsg id).mem = s.mem := rfl
@[simp] theorem State.poison_dropMsg (id : Nat) : (s.dropMsg id).poison = s.poison := rfl
@[simp] theorem State.queues_dropMsg (id : Nat) : (s.dropMsg id).queues = s.queues := rfl
@[simp] theorem State.levels_dropMsg (id : Nat) : (s.dropMsg id).levels = s.levels := rfl
@[simp] theorem State.formes_dropMsg (id : Nat) : (s.dropMsg id).formes = s.formes := rfl
@[simp] theorem State.programs_dropMsg (id : Nat) : (s.dropMsg id).programs = s.programs := rfl
@[simp] theorem State.resvs_dropMsg (id : Nat) : (s.dropMsg id).resvs = s.resvs := rfl
@[simp] theorem State.bwaits_dropMsg (id : Nat) : (s.dropMsg id).bwaits = s.bwaits := rfl
@[simp] theorem State.jobs_dropMsg (id : Nat) : (s.dropMsg id).jobs = s.jobs := rfl
@[simp] theorem State.shadows_dropMsg (id : Nat) : (s.dropMsg id).shadows = s.shadows := rfl
@[simp] theorem State.stamps_dropMsg (id : Nat) : (s.dropMsg id).stamps = s.stamps := rfl
@[simp] theorem State.nextId_dropMsg (id : Nat) : (s.dropMsg id).nextId = s.nextId := rfl
@[simp] theorem State.agenda_dropMsg (id : Nat) : (s.dropMsg id).agenda = s.agenda := rfl
@[simp] theorem State.inbox_dropMsg (id : Nat) : (s.dropMsg id).inbox = s.inbox := rfl
@[simp] theorem State.outbox_dropMsg (id : Nat) : (s.dropMsg id).outbox = s.outbox := rfl
@[simp] theorem State.sched_dropMsg (id : Nat) : (s.dropMsg id).sched = s.sched := rfl
@[simp] theorem State.freeIdx_dropMsg (id : Nat) : (s.dropMsg id).freeIdx = s.freeIdx := rfl

/-! ### send -/
@[simp] theorem State.cur_send (m : Msg) (ev : Nat → Instr) : (s.send m ev).cur = s.cur := rfl
@[simp] theorem State.fetched_send (m : Msg) (ev : Nat → Instr) : (s.send m ev).fetched = s.fetched := rfl
@[simp] theorem State.ctxs_send (m : Msg) (ev : Nat → Instr) : (s.send m ev).ctxs = s.ctxs := rfl
@[simp] theorem State.cores_send (m : Msg) (ev : Nat → Instr) : (s.send m ev).cores = s.cores := rfl
@[simp] theorem State.galleys_send (m : Msg) (ev : Nat → Instr) : (s.send m ev).galleys = s.galleys := rfl
@[simp] theorem State.dies_send (m : Msg) (ev : Nat → Instr) : (s.send m ev).dies = s.dies := rfl
@[simp] theorem State.pkgs_send (m : Msg) (ev : Nat → Instr) : (s.send m ev).pkgs = s.pkgs := rfl
@[simp] theorem State.mem_send (m : Msg) (ev : Nat → Instr) : (s.send m ev).mem = s.mem := rfl
@[simp] theorem State.poison_send (m : Msg) (ev : Nat → Instr) : (s.send m ev).poison = s.poison := rfl
@[simp] theorem State.queues_send (m : Msg) (ev : Nat → Instr) : (s.send m ev).queues = s.queues := rfl
@[simp] theorem State.levels_send (m : Msg) (ev : Nat → Instr) : (s.send m ev).levels = s.levels := rfl
@[simp] theorem State.formes_send (m : Msg) (ev : Nat → Instr) : (s.send m ev).formes = s.formes := rfl
@[simp] theorem State.programs_send (m : Msg) (ev : Nat → Instr) : (s.send m ev).programs = s.programs := rfl
@[simp] theorem State.resvs_send (m : Msg) (ev : Nat → Instr) : (s.send m ev).resvs = s.resvs := rfl
@[simp] theorem State.bwaits_send (m : Msg) (ev : Nat → Instr) : (s.send m ev).bwaits = s.bwaits := rfl
@[simp] theorem State.jobs_send (m : Msg) (ev : Nat → Instr) : (s.send m ev).jobs = s.jobs := rfl
@[simp] theorem State.shadows_send (m : Msg) (ev : Nat → Instr) : (s.send m ev).shadows = s.shadows := rfl
@[simp] theorem State.stamps_send (m : Msg) (ev : Nat → Instr) : (s.send m ev).stamps = s.stamps := rfl
@[simp] theorem State.inbox_send (m : Msg) (ev : Nat → Instr) : (s.send m ev).inbox = s.inbox := rfl
@[simp] theorem State.outbox_send (m : Msg) (ev : Nat → Instr) : (s.send m ev).outbox = s.outbox := rfl
@[simp] theorem State.sched_send (m : Msg) (ev : Nat → Instr) : (s.send m ev).sched = s.sched := rfl
@[simp] theorem State.freeIdx_send (m : Msg) (ev : Nat → Instr) : (s.send m ev).freeIdx = s.freeIdx := rfl

/-! ### What the updates set -/

@[simp] theorem State.mem_setBytes (k : Nat) (bs : List Byte) : (s.setBytes k bs).mem = Memory.writes s.mem k bs := rfl
@[simp] theorem State.agenda_due (e : Instr) : (s.due e).agenda = s.agenda ++ [e] := rfl
@[simp] theorem State.outbox_emit (o : Output) : (s.emit o).outbox = s.outbox ++ [o] := rfl
@[simp] theorem State.nextId_send (m : Msg) (ev : Nat → Instr) : (s.send m ev).nextId = s.nextId + 1 := rfl
@[simp] theorem State.net_send (m : Msg) (ev : Nat → Instr) :
    (s.send m ev).net = s.net ++ [{ m with id := s.nextId }] := rfl
@[simp] theorem State.agenda_send (m : Msg) (ev : Nat → Instr) : (s.send m ev).agenda = s.agenda ++ [ev s.nextId] := rfl

/-! ### Reads of the tables -/

@[simp] theorem State.core_setCtx (c : Nat) (x : Ctx) (j : Nat) : (s.setCtx c x).core j = s.core j := rfl
@[simp] theorem State.galley_setCtx (c : Nat) (x : Ctx) (j : Nat) : (s.setCtx c x).galley j = s.galley j := rfl
@[simp] theorem State.die_setCtx (c : Nat) (x : Ctx) (j : Nat) : (s.setCtx c x).die j = s.die j := rfl
@[simp] theorem State.pkg_setCtx (c : Nat) (x : Ctx) (j : Nat) : (s.setCtx c x).pkg j = s.pkg j := rfl
@[simp] theorem State.queue_setCtx (c : Nat) (x : Ctx) (j : Nat) : (s.setCtx c x).queue j = s.queue j := rfl
@[simp] theorem State.level_setCtx (c : Nat) (x : Ctx) (j : Nat) : (s.setCtx c x).level j = s.level j := rfl
@[simp] theorem State.program_setCtx (c : Nat) (x : Ctx) (j : Nat) : (s.setCtx c x).program j = s.program j := rfl
@[simp] theorem State.forme_setCtx (c : Nat) (x : Ctx) (j : Nat) : (s.setCtx c x).forme j = s.forme j := rfl
@[simp] theorem State.byte_setCtx (c : Nat) (x : Ctx) (j : Nat) : (s.setCtx c x).byte j = s.byte j := rfl
@[simp] theorem State.core_updCtx (c : Nat) (f : Ctx → Ctx) (j : Nat) : (s.updCtx c f).core j = s.core j := rfl
@[simp] theorem State.galley_updCtx (c : Nat) (f : Ctx → Ctx) (j : Nat) : (s.updCtx c f).galley j = s.galley j := rfl
@[simp] theorem State.die_updCtx (c : Nat) (f : Ctx → Ctx) (j : Nat) : (s.updCtx c f).die j = s.die j := rfl
@[simp] theorem State.pkg_updCtx (c : Nat) (f : Ctx → Ctx) (j : Nat) : (s.updCtx c f).pkg j = s.pkg j := rfl
@[simp] theorem State.queue_updCtx (c : Nat) (f : Ctx → Ctx) (j : Nat) : (s.updCtx c f).queue j = s.queue j := rfl
@[simp] theorem State.level_updCtx (c : Nat) (f : Ctx → Ctx) (j : Nat) : (s.updCtx c f).level j = s.level j := rfl
@[simp] theorem State.program_updCtx (c : Nat) (f : Ctx → Ctx) (j : Nat) : (s.updCtx c f).program j = s.program j := rfl
@[simp] theorem State.forme_updCtx (c : Nat) (f : Ctx → Ctx) (j : Nat) : (s.updCtx c f).forme j = s.forme j := rfl
@[simp] theorem State.byte_updCtx (c : Nat) (f : Ctx → Ctx) (j : Nat) : (s.updCtx c f).byte j = s.byte j := rfl
@[simp] theorem State.ctx_setCore (k : Nat) (x : Core) (j : Nat) : (s.setCore k x).ctx j = s.ctx j := rfl
@[simp] theorem State.galley_setCore (k : Nat) (x : Core) (j : Nat) : (s.setCore k x).galley j = s.galley j := rfl
@[simp] theorem State.die_setCore (k : Nat) (x : Core) (j : Nat) : (s.setCore k x).die j = s.die j := rfl
@[simp] theorem State.pkg_setCore (k : Nat) (x : Core) (j : Nat) : (s.setCore k x).pkg j = s.pkg j := rfl
@[simp] theorem State.queue_setCore (k : Nat) (x : Core) (j : Nat) : (s.setCore k x).queue j = s.queue j := rfl
@[simp] theorem State.level_setCore (k : Nat) (x : Core) (j : Nat) : (s.setCore k x).level j = s.level j := rfl
@[simp] theorem State.program_setCore (k : Nat) (x : Core) (j : Nat) : (s.setCore k x).program j = s.program j := rfl
@[simp] theorem State.forme_setCore (k : Nat) (x : Core) (j : Nat) : (s.setCore k x).forme j = s.forme j := rfl
@[simp] theorem State.me_setCore (k : Nat) (x : Core) : (s.setCore k x).me = s.me := rfl
@[simp] theorem State.byte_setCore (k : Nat) (x : Core) (j : Nat) : (s.setCore k x).byte j = s.byte j := rfl
@[simp] theorem State.ctx_updCore (k : Nat) (f : Core → Core) (j : Nat) : (s.updCore k f).ctx j = s.ctx j := rfl
@[simp] theorem State.galley_updCore (k : Nat) (f : Core → Core) (j : Nat) : (s.updCore k f).galley j = s.galley j := rfl
@[simp] theorem State.die_updCore (k : Nat) (f : Core → Core) (j : Nat) : (s.updCore k f).die j = s.die j := rfl
@[simp] theorem State.pkg_updCore (k : Nat) (f : Core → Core) (j : Nat) : (s.updCore k f).pkg j = s.pkg j := rfl
@[simp] theorem State.queue_updCore (k : Nat) (f : Core → Core) (j : Nat) : (s.updCore k f).queue j = s.queue j := rfl
@[simp] theorem State.level_updCore (k : Nat) (f : Core → Core) (j : Nat) : (s.updCore k f).level j = s.level j := rfl
@[simp] theorem State.program_updCore (k : Nat) (f : Core → Core) (j : Nat) : (s.updCore k f).program j = s.program j := rfl
@[simp] theorem State.forme_updCore (k : Nat) (f : Core → Core) (j : Nat) : (s.updCore k f).forme j = s.forme j := rfl
@[simp] theorem State.me_updCore (k : Nat) (f : Core → Core) : (s.updCore k f).me = s.me := rfl
@[simp] theorem State.byte_updCore (k : Nat) (f : Core → Core) (j : Nat) : (s.updCore k f).byte j = s.byte j := rfl
@[simp] theorem State.ctx_updGal (g : Nat) (f : Galley → Galley) (j : Nat) : (s.updGal g f).ctx j = s.ctx j := rfl
@[simp] theorem State.core_updGal (g : Nat) (f : Galley → Galley) (j : Nat) : (s.updGal g f).core j = s.core j := rfl
@[simp] theorem State.die_updGal (g : Nat) (f : Galley → Galley) (j : Nat) : (s.updGal g f).die j = s.die j := rfl
@[simp] theorem State.pkg_updGal (g : Nat) (f : Galley → Galley) (j : Nat) : (s.updGal g f).pkg j = s.pkg j := rfl
@[simp] theorem State.queue_updGal (g : Nat) (f : Galley → Galley) (j : Nat) : (s.updGal g f).queue j = s.queue j := rfl
@[simp] theorem State.level_updGal (g : Nat) (f : Galley → Galley) (j : Nat) : (s.updGal g f).level j = s.level j := rfl
@[simp] theorem State.program_updGal (g : Nat) (f : Galley → Galley) (j : Nat) : (s.updGal g f).program j = s.program j := rfl
@[simp] theorem State.forme_updGal (g : Nat) (f : Galley → Galley) (j : Nat) : (s.updGal g f).forme j = s.forme j := rfl
@[simp] theorem State.me_updGal (g : Nat) (f : Galley → Galley) : (s.updGal g f).me = s.me := rfl
@[simp] theorem State.byte_updGal (g : Nat) (f : Galley → Galley) (j : Nat) : (s.updGal g f).byte j = s.byte j := rfl
@[simp] theorem State.ctx_updDie (d : Nat) (f : Die → Die) (j : Nat) : (s.updDie d f).ctx j = s.ctx j := rfl
@[simp] theorem State.core_updDie (d : Nat) (f : Die → Die) (j : Nat) : (s.updDie d f).core j = s.core j := rfl
@[simp] theorem State.galley_updDie (d : Nat) (f : Die → Die) (j : Nat) : (s.updDie d f).galley j = s.galley j := rfl
@[simp] theorem State.pkg_updDie (d : Nat) (f : Die → Die) (j : Nat) : (s.updDie d f).pkg j = s.pkg j := rfl
@[simp] theorem State.queue_updDie (d : Nat) (f : Die → Die) (j : Nat) : (s.updDie d f).queue j = s.queue j := rfl
@[simp] theorem State.level_updDie (d : Nat) (f : Die → Die) (j : Nat) : (s.updDie d f).level j = s.level j := rfl
@[simp] theorem State.program_updDie (d : Nat) (f : Die → Die) (j : Nat) : (s.updDie d f).program j = s.program j := rfl
@[simp] theorem State.forme_updDie (d : Nat) (f : Die → Die) (j : Nat) : (s.updDie d f).forme j = s.forme j := rfl
@[simp] theorem State.me_updDie (d : Nat) (f : Die → Die) : (s.updDie d f).me = s.me := rfl
@[simp] theorem State.byte_updDie (d : Nat) (f : Die → Die) (j : Nat) : (s.updDie d f).byte j = s.byte j := rfl
@[simp] theorem State.ctx_updPkg (p : Nat) (f : Pkg → Pkg) (j : Nat) : (s.updPkg p f).ctx j = s.ctx j := rfl
@[simp] theorem State.core_updPkg (p : Nat) (f : Pkg → Pkg) (j : Nat) : (s.updPkg p f).core j = s.core j := rfl
@[simp] theorem State.galley_updPkg (p : Nat) (f : Pkg → Pkg) (j : Nat) : (s.updPkg p f).galley j = s.galley j := rfl
@[simp] theorem State.die_updPkg (p : Nat) (f : Pkg → Pkg) (j : Nat) : (s.updPkg p f).die j = s.die j := rfl
@[simp] theorem State.queue_updPkg (p : Nat) (f : Pkg → Pkg) (j : Nat) : (s.updPkg p f).queue j = s.queue j := rfl
@[simp] theorem State.level_updPkg (p : Nat) (f : Pkg → Pkg) (j : Nat) : (s.updPkg p f).level j = s.level j := rfl
@[simp] theorem State.program_updPkg (p : Nat) (f : Pkg → Pkg) (j : Nat) : (s.updPkg p f).program j = s.program j := rfl
@[simp] theorem State.forme_updPkg (p : Nat) (f : Pkg → Pkg) (j : Nat) : (s.updPkg p f).forme j = s.forme j := rfl
@[simp] theorem State.me_updPkg (p : Nat) (f : Pkg → Pkg) : (s.updPkg p f).me = s.me := rfl
@[simp] theorem State.byte_updPkg (p : Nat) (f : Pkg → Pkg) (j : Nat) : (s.updPkg p f).byte j = s.byte j := rfl
@[simp] theorem State.ctx_setQueue (q : Nat) (x : Queue) (j : Nat) : (s.setQueue q x).ctx j = s.ctx j := rfl
@[simp] theorem State.core_setQueue (q : Nat) (x : Queue) (j : Nat) : (s.setQueue q x).core j = s.core j := rfl
@[simp] theorem State.galley_setQueue (q : Nat) (x : Queue) (j : Nat) : (s.setQueue q x).galley j = s.galley j := rfl
@[simp] theorem State.die_setQueue (q : Nat) (x : Queue) (j : Nat) : (s.setQueue q x).die j = s.die j := rfl
@[simp] theorem State.pkg_setQueue (q : Nat) (x : Queue) (j : Nat) : (s.setQueue q x).pkg j = s.pkg j := rfl
@[simp] theorem State.level_setQueue (q : Nat) (x : Queue) (j : Nat) : (s.setQueue q x).level j = s.level j := rfl
@[simp] theorem State.program_setQueue (q : Nat) (x : Queue) (j : Nat) : (s.setQueue q x).program j = s.program j := rfl
@[simp] theorem State.forme_setQueue (q : Nat) (x : Queue) (j : Nat) : (s.setQueue q x).forme j = s.forme j := rfl
@[simp] theorem State.me_setQueue (q : Nat) (x : Queue) : (s.setQueue q x).me = s.me := rfl
@[simp] theorem State.byte_setQueue (q : Nat) (x : Queue) (j : Nat) : (s.setQueue q x).byte j = s.byte j := rfl
@[simp] theorem State.ctx_setLevel (l : Nat) (x : Level) (j : Nat) : (s.setLevel l x).ctx j = s.ctx j := rfl
@[simp] theorem State.core_setLevel (l : Nat) (x : Level) (j : Nat) : (s.setLevel l x).core j = s.core j := rfl
@[simp] theorem State.galley_setLevel (l : Nat) (x : Level) (j : Nat) : (s.setLevel l x).galley j = s.galley j := rfl
@[simp] theorem State.die_setLevel (l : Nat) (x : Level) (j : Nat) : (s.setLevel l x).die j = s.die j := rfl
@[simp] theorem State.pkg_setLevel (l : Nat) (x : Level) (j : Nat) : (s.setLevel l x).pkg j = s.pkg j := rfl
@[simp] theorem State.queue_setLevel (l : Nat) (x : Level) (j : Nat) : (s.setLevel l x).queue j = s.queue j := rfl
@[simp] theorem State.program_setLevel (l : Nat) (x : Level) (j : Nat) : (s.setLevel l x).program j = s.program j := rfl
@[simp] theorem State.forme_setLevel (l : Nat) (x : Level) (j : Nat) : (s.setLevel l x).forme j = s.forme j := rfl
@[simp] theorem State.me_setLevel (l : Nat) (x : Level) : (s.setLevel l x).me = s.me := rfl
@[simp] theorem State.byte_setLevel (l : Nat) (x : Level) (j : Nat) : (s.setLevel l x).byte j = s.byte j := rfl
@[simp] theorem State.ctx_updProgram (h : Nat) (f : Program → Program) (j : Nat) : (s.updProgram h f).ctx j = s.ctx j := rfl
@[simp] theorem State.core_updProgram (h : Nat) (f : Program → Program) (j : Nat) : (s.updProgram h f).core j = s.core j := rfl
@[simp] theorem State.galley_updProgram (h : Nat) (f : Program → Program) (j : Nat) : (s.updProgram h f).galley j = s.galley j := rfl
@[simp] theorem State.die_updProgram (h : Nat) (f : Program → Program) (j : Nat) : (s.updProgram h f).die j = s.die j := rfl
@[simp] theorem State.pkg_updProgram (h : Nat) (f : Program → Program) (j : Nat) : (s.updProgram h f).pkg j = s.pkg j := rfl
@[simp] theorem State.queue_updProgram (h : Nat) (f : Program → Program) (j : Nat) : (s.updProgram h f).queue j = s.queue j := rfl
@[simp] theorem State.level_updProgram (h : Nat) (f : Program → Program) (j : Nat) : (s.updProgram h f).level j = s.level j := rfl
@[simp] theorem State.forme_updProgram (h : Nat) (f : Program → Program) (j : Nat) : (s.updProgram h f).forme j = s.forme j := rfl
@[simp] theorem State.me_updProgram (h : Nat) (f : Program → Program) : (s.updProgram h f).me = s.me := rfl
@[simp] theorem State.byte_updProgram (h : Nat) (f : Program → Program) (j : Nat) : (s.updProgram h f).byte j = s.byte j := rfl
@[simp] theorem State.ctx_updForme (h : Nat) (f : Forme → Forme) (j : Nat) : (s.updForme h f).ctx j = s.ctx j := rfl
@[simp] theorem State.core_updForme (h : Nat) (f : Forme → Forme) (j : Nat) : (s.updForme h f).core j = s.core j := rfl
@[simp] theorem State.galley_updForme (h : Nat) (f : Forme → Forme) (j : Nat) : (s.updForme h f).galley j = s.galley j := rfl
@[simp] theorem State.die_updForme (h : Nat) (f : Forme → Forme) (j : Nat) : (s.updForme h f).die j = s.die j := rfl
@[simp] theorem State.pkg_updForme (h : Nat) (f : Forme → Forme) (j : Nat) : (s.updForme h f).pkg j = s.pkg j := rfl
@[simp] theorem State.queue_updForme (h : Nat) (f : Forme → Forme) (j : Nat) : (s.updForme h f).queue j = s.queue j := rfl
@[simp] theorem State.level_updForme (h : Nat) (f : Forme → Forme) (j : Nat) : (s.updForme h f).level j = s.level j := rfl
@[simp] theorem State.program_updForme (h : Nat) (f : Forme → Forme) (j : Nat) : (s.updForme h f).program j = s.program j := rfl
@[simp] theorem State.me_updForme (h : Nat) (f : Forme → Forme) : (s.updForme h f).me = s.me := rfl
@[simp] theorem State.byte_updForme (h : Nat) (f : Forme → Forme) (j : Nat) : (s.updForme h f).byte j = s.byte j := rfl
@[simp] theorem State.ctx_due (e : Instr) (j : Nat) : (s.due e).ctx j = s.ctx j := rfl
@[simp] theorem State.core_due (e : Instr) (j : Nat) : (s.due e).core j = s.core j := rfl
@[simp] theorem State.galley_due (e : Instr) (j : Nat) : (s.due e).galley j = s.galley j := rfl
@[simp] theorem State.die_due (e : Instr) (j : Nat) : (s.due e).die j = s.die j := rfl
@[simp] theorem State.pkg_due (e : Instr) (j : Nat) : (s.due e).pkg j = s.pkg j := rfl
@[simp] theorem State.queue_due (e : Instr) (j : Nat) : (s.due e).queue j = s.queue j := rfl
@[simp] theorem State.level_due (e : Instr) (j : Nat) : (s.due e).level j = s.level j := rfl
@[simp] theorem State.program_due (e : Instr) (j : Nat) : (s.due e).program j = s.program j := rfl
@[simp] theorem State.forme_due (e : Instr) (j : Nat) : (s.due e).forme j = s.forme j := rfl
@[simp] theorem State.me_due (e : Instr) : (s.due e).me = s.me := rfl
@[simp] theorem State.byte_due (e : Instr) (j : Nat) : (s.due e).byte j = s.byte j := rfl
@[simp] theorem State.ctx_emit (o : Output) (j : Nat) : (s.emit o).ctx j = s.ctx j := rfl
@[simp] theorem State.core_emit (o : Output) (j : Nat) : (s.emit o).core j = s.core j := rfl
@[simp] theorem State.galley_emit (o : Output) (j : Nat) : (s.emit o).galley j = s.galley j := rfl
@[simp] theorem State.die_emit (o : Output) (j : Nat) : (s.emit o).die j = s.die j := rfl
@[simp] theorem State.pkg_emit (o : Output) (j : Nat) : (s.emit o).pkg j = s.pkg j := rfl
@[simp] theorem State.queue_emit (o : Output) (j : Nat) : (s.emit o).queue j = s.queue j := rfl
@[simp] theorem State.level_emit (o : Output) (j : Nat) : (s.emit o).level j = s.level j := rfl
@[simp] theorem State.program_emit (o : Output) (j : Nat) : (s.emit o).program j = s.program j := rfl
@[simp] theorem State.forme_emit (o : Output) (j : Nat) : (s.emit o).forme j = s.forme j := rfl
@[simp] theorem State.me_emit (o : Output) : (s.emit o).me = s.me := rfl
@[simp] theorem State.byte_emit (o : Output) (j : Nat) : (s.emit o).byte j = s.byte j := rfl
@[simp] theorem State.ctx_setBytes (k : Nat) (bs : List Byte) (j : Nat) : (s.setBytes k bs).ctx j = s.ctx j := rfl
@[simp] theorem State.core_setBytes (k : Nat) (bs : List Byte) (j : Nat) : (s.setBytes k bs).core j = s.core j := rfl
@[simp] theorem State.galley_setBytes (k : Nat) (bs : List Byte) (j : Nat) : (s.setBytes k bs).galley j = s.galley j := rfl
@[simp] theorem State.die_setBytes (k : Nat) (bs : List Byte) (j : Nat) : (s.setBytes k bs).die j = s.die j := rfl
@[simp] theorem State.pkg_setBytes (k : Nat) (bs : List Byte) (j : Nat) : (s.setBytes k bs).pkg j = s.pkg j := rfl
@[simp] theorem State.queue_setBytes (k : Nat) (bs : List Byte) (j : Nat) : (s.setBytes k bs).queue j = s.queue j := rfl
@[simp] theorem State.level_setBytes (k : Nat) (bs : List Byte) (j : Nat) : (s.setBytes k bs).level j = s.level j := rfl
@[simp] theorem State.program_setBytes (k : Nat) (bs : List Byte) (j : Nat) : (s.setBytes k bs).program j = s.program j := rfl
@[simp] theorem State.forme_setBytes (k : Nat) (bs : List Byte) (j : Nat) : (s.setBytes k bs).forme j = s.forme j := rfl
@[simp] theorem State.me_setBytes (k : Nat) (bs : List Byte) : (s.setBytes k bs).me = s.me := rfl
@[simp] theorem State.ctx_setMsg (m : Msg) (j : Nat) : (s.setMsg m).ctx j = s.ctx j := rfl
@[simp] theorem State.core_setMsg (m : Msg) (j : Nat) : (s.setMsg m).core j = s.core j := rfl
@[simp] theorem State.galley_setMsg (m : Msg) (j : Nat) : (s.setMsg m).galley j = s.galley j := rfl
@[simp] theorem State.die_setMsg (m : Msg) (j : Nat) : (s.setMsg m).die j = s.die j := rfl
@[simp] theorem State.pkg_setMsg (m : Msg) (j : Nat) : (s.setMsg m).pkg j = s.pkg j := rfl
@[simp] theorem State.queue_setMsg (m : Msg) (j : Nat) : (s.setMsg m).queue j = s.queue j := rfl
@[simp] theorem State.level_setMsg (m : Msg) (j : Nat) : (s.setMsg m).level j = s.level j := rfl
@[simp] theorem State.program_setMsg (m : Msg) (j : Nat) : (s.setMsg m).program j = s.program j := rfl
@[simp] theorem State.forme_setMsg (m : Msg) (j : Nat) : (s.setMsg m).forme j = s.forme j := rfl
@[simp] theorem State.me_setMsg (m : Msg) : (s.setMsg m).me = s.me := rfl
@[simp] theorem State.byte_setMsg (m : Msg) (j : Nat) : (s.setMsg m).byte j = s.byte j := rfl
@[simp] theorem State.ctx_dropMsg (id : Nat) (j : Nat) : (s.dropMsg id).ctx j = s.ctx j := rfl
@[simp] theorem State.core_dropMsg (id : Nat) (j : Nat) : (s.dropMsg id).core j = s.core j := rfl
@[simp] theorem State.galley_dropMsg (id : Nat) (j : Nat) : (s.dropMsg id).galley j = s.galley j := rfl
@[simp] theorem State.die_dropMsg (id : Nat) (j : Nat) : (s.dropMsg id).die j = s.die j := rfl
@[simp] theorem State.pkg_dropMsg (id : Nat) (j : Nat) : (s.dropMsg id).pkg j = s.pkg j := rfl
@[simp] theorem State.queue_dropMsg (id : Nat) (j : Nat) : (s.dropMsg id).queue j = s.queue j := rfl
@[simp] theorem State.level_dropMsg (id : Nat) (j : Nat) : (s.dropMsg id).level j = s.level j := rfl
@[simp] theorem State.program_dropMsg (id : Nat) (j : Nat) : (s.dropMsg id).program j = s.program j := rfl
@[simp] theorem State.forme_dropMsg (id : Nat) (j : Nat) : (s.dropMsg id).forme j = s.forme j := rfl
@[simp] theorem State.me_dropMsg (id : Nat) : (s.dropMsg id).me = s.me := rfl
@[simp] theorem State.byte_dropMsg (id : Nat) (j : Nat) : (s.dropMsg id).byte j = s.byte j := rfl
@[simp] theorem State.ctx_send (m : Msg) (ev : Nat → Instr) (j : Nat) : (s.send m ev).ctx j = s.ctx j := rfl
@[simp] theorem State.core_send (m : Msg) (ev : Nat → Instr) (j : Nat) : (s.send m ev).core j = s.core j := rfl
@[simp] theorem State.galley_send (m : Msg) (ev : Nat → Instr) (j : Nat) : (s.send m ev).galley j = s.galley j := rfl
@[simp] theorem State.die_send (m : Msg) (ev : Nat → Instr) (j : Nat) : (s.send m ev).die j = s.die j := rfl
@[simp] theorem State.pkg_send (m : Msg) (ev : Nat → Instr) (j : Nat) : (s.send m ev).pkg j = s.pkg j := rfl
@[simp] theorem State.queue_send (m : Msg) (ev : Nat → Instr) (j : Nat) : (s.send m ev).queue j = s.queue j := rfl
@[simp] theorem State.level_send (m : Msg) (ev : Nat → Instr) (j : Nat) : (s.send m ev).level j = s.level j := rfl
@[simp] theorem State.program_send (m : Msg) (ev : Nat → Instr) (j : Nat) : (s.send m ev).program j = s.program j := rfl
@[simp] theorem State.forme_send (m : Msg) (ev : Nat → Instr) (j : Nat) : (s.send m ev).forme j = s.forme j := rfl
@[simp] theorem State.me_send (m : Msg) (ev : Nat → Instr) : (s.send m ev).me = s.me := rfl
@[simp] theorem State.byte_send (m : Msg) (ev : Nat → Instr) (j : Nat) : (s.send m ev).byte j = s.byte j := rfl
theorem State.ctx_setCtx_at (c : Nat) (x : Ctx) (j : Nat) : (s.setCtx c x).ctx j = if c = j then x else s.ctx j := by
  by_cases h : c = j
  · subst h; simp [State.ctx, State.setCtx]
  · simp [State.ctx, State.setCtx, Map.get_set, h]
theorem State.ctx_updCtx_at (c : Nat) (f : Ctx → Ctx) (j : Nat) : (s.updCtx c f).ctx j = if c = j then f (s.ctx c) else s.ctx j := by
  by_cases h : c = j
  · subst h; simp [State.ctx, State.updCtx, State.setCtx]
  · simp [State.ctx, State.updCtx, State.setCtx, Map.get_set, h]
theorem State.core_setCore_at (c : Nat) (x : Core) (j : Nat) : (s.setCore c x).core j = if c = j then x else s.core j := by
  simp [State.core, State.setCore, Map.get_set]
theorem State.core_updCore_at (c : Nat) (f : Core → Core) (j : Nat) : (s.updCore c f).core j = if c = j then f (s.core c) else s.core j := by
  simp [State.core, State.updCore, State.setCore, Map.get_set]
theorem State.galley_updGal_at (c : Nat) (f : Galley → Galley) (j : Nat) : (s.updGal c f).galley j = if c = j then f (s.galley c) else s.galley j := by
  simp [State.galley, State.updGal, Map.get_set]
theorem State.die_updDie_at (c : Nat) (f : Die → Die) (j : Nat) : (s.updDie c f).die j = if c = j then f (s.die c) else s.die j := by
  simp [State.die, State.updDie, Map.get_set]
theorem State.pkg_updPkg_at (c : Nat) (f : Pkg → Pkg) (j : Nat) : (s.updPkg c f).pkg j = if c = j then f (s.pkg c) else s.pkg j := by
  simp [State.pkg, State.updPkg, Map.get_set]
theorem State.queue_setQueue_at (c : Nat) (x : Queue) (j : Nat) : (s.setQueue c x).queue j = if c = j then x else s.queue j := by
  simp [State.queue, State.setQueue, Map.get_set]
theorem State.level_setLevel_at (c : Nat) (x : Level) (j : Nat) : (s.setLevel c x).level j = if c = j then x else s.level j := by
  simp [State.level, State.setLevel, Map.get_set]
theorem State.program_updProgram_at (c : Nat) (f : Program → Program) (j : Nat) : (s.updProgram c f).program j = if c = j then f (s.program c) else s.program j := by
  simp [State.program, State.updProgram, Map.get_set]
theorem State.forme_updForme_at (c : Nat) (f : Forme → Forme) (j : Nat) : (s.updForme c f).forme j = if c = j then f (s.forme c) else s.forme j := by
  simp [State.forme, State.updForme, Map.get_set]
@[simp] theorem State.ctx_setCtx_same (c : Nat) (x : Ctx) : (s.setCtx c x).ctx c = x := by
  simp [State.ctx_setCtx_at]
@[simp] theorem State.ctx_updCtx_same (c : Nat) (f : Ctx → Ctx) : (s.updCtx c f).ctx c = f (s.ctx c) := by
  simp [State.ctx_updCtx_at]
@[simp] theorem State.core_updCore_same (c : Nat) (f : Core → Core) : (s.updCore c f).core c = f (s.core c) := by
  simp [State.core_updCore_at]
@[simp] theorem State.queue_setQueue_same (c : Nat) (x : Queue) : (s.setQueue c x).queue c = x := by
  simp [State.queue_setQueue_at]
@[simp] theorem State.pkg_updPkg_same (c : Nat) (f : Pkg → Pkg) : (s.updPkg c f).pkg c = f (s.pkg c) := by
  simp [State.pkg_updPkg_at]
@[simp] theorem State.die_updDie_same (c : Nat) (f : Die → Die) : (s.updDie c f).die c = f (s.die c) := by
  simp [State.die_updDie_at]
@[simp] theorem State.galley_updGal_same (c : Nat) (f : Galley → Galley) : (s.updGal c f).galley c = f (s.galley c) := by
  simp [State.galley_updGal_at]
@[simp] theorem State.level_setLevel_same (c : Nat) (x : Level) : (s.setLevel c x).level c = x := by
  simp [State.level_setLevel_at]
@[simp] theorem State.forme_updForme_same (c : Nat) (f : Forme → Forme) : (s.updForme c f).forme c = f (s.forme c) := by
  simp [State.forme_updForme_at]
@[simp] theorem State.program_updProgram_same (c : Nat) (f : Program → Program) : (s.updProgram c f).program c = f (s.program c) := by
  simp [State.program_updProgram_at]

/-- The current context after an update of its own entry. -/
@[simp] theorem State.me_updCtx_cur (f : Ctx → Ctx) : (s.updCtx s.cur f).me = f s.me := by
  simp [State.me]

end Sys2Proof.Machine
end

