-- ==== Sys2Proof/Laws/Ops.lean ====
section
/-! SUPPORT. The fields that the register, slot and result operations of Machine/Ops.lean leave alone, and the reads of registers
after a write. -/

namespace Sys2Proof.Machine

variable (s : State)

@[simp] theorem State.cur_traceEntry (k cyc : Nat) (w : Word) : (s.traceEntry k cyc w).cur = s.cur := by unfold State.traceEntry; (repeat' split) <;> rfl
@[simp] theorem State.fetched_traceEntry (k cyc : Nat) (w : Word) : (s.traceEntry k cyc w).fetched = s.fetched := by unfold State.traceEntry; (repeat' split) <;> rfl
@[simp] theorem State.ctxs_traceEntry (k cyc : Nat) (w : Word) : (s.traceEntry k cyc w).ctxs = s.ctxs := by unfold State.traceEntry; (repeat' split) <;> rfl
@[simp] theorem State.cores_traceEntry (k cyc : Nat) (w : Word) : (s.traceEntry k cyc w).cores = s.cores := by unfold State.traceEntry; (repeat' split) <;> rfl
@[simp] theorem State.galleys_traceEntry (k cyc : Nat) (w : Word) : (s.traceEntry k cyc w).galleys = s.galleys := by unfold State.traceEntry; (repeat' split) <;> rfl
@[simp] theorem State.pkgs_traceEntry (k cyc : Nat) (w : Word) : (s.traceEntry k cyc w).pkgs = s.pkgs := by unfold State.traceEntry; (repeat' split) <;> rfl
@[simp] theorem State.mem_traceEntry (k cyc : Nat) (w : Word) : (s.traceEntry k cyc w).mem = s.mem := by unfold State.traceEntry; (repeat' split) <;> rfl
@[simp] theorem State.poison_traceEntry (k cyc : Nat) (w : Word) : (s.traceEntry k cyc w).poison = s.poison := by unfold State.traceEntry; (repeat' split) <;> rfl
@[simp] theorem State.queues_traceEntry (k cyc : Nat) (w : Word) : (s.traceEntry k cyc w).queues = s.queues := by unfold State.traceEntry; (repeat' split) <;> rfl
@[simp] theorem State.levels_traceEntry (k cyc : Nat) (w : Word) : (s.traceEntry k cyc w).levels = s.levels := by unfold State.traceEntry; (repeat' split) <;> rfl
@[simp] theorem State.formes_traceEntry (k cyc : Nat) (w : Word) : (s.traceEntry k cyc w).formes = s.formes := by unfold State.traceEntry; (repeat' split) <;> rfl
@[simp] theorem State.programs_traceEntry (k cyc : Nat) (w : Word) : (s.traceEntry k cyc w).programs = s.programs := by unfold State.traceEntry; (repeat' split) <;> rfl
@[simp] theorem State.resvs_traceEntry (k cyc : Nat) (w : Word) : (s.traceEntry k cyc w).resvs = s.resvs := by unfold State.traceEntry; (repeat' split) <;> rfl
@[simp] theorem State.bwaits_traceEntry (k cyc : Nat) (w : Word) : (s.traceEntry k cyc w).bwaits = s.bwaits := by unfold State.traceEntry; (repeat' split) <;> rfl
@[simp] theorem State.jobs_traceEntry (k cyc : Nat) (w : Word) : (s.traceEntry k cyc w).jobs = s.jobs := by unfold State.traceEntry; (repeat' split) <;> rfl
@[simp] theorem State.shadows_traceEntry (k cyc : Nat) (w : Word) : (s.traceEntry k cyc w).shadows = s.shadows := by unfold State.traceEntry; (repeat' split) <;> rfl
@[simp] theorem State.stamps_traceEntry (k cyc : Nat) (w : Word) : (s.traceEntry k cyc w).stamps = s.stamps := by unfold State.traceEntry; (repeat' split) <;> rfl
@[simp] theorem State.net_traceEntry (k cyc : Nat) (w : Word) : (s.traceEntry k cyc w).net = s.net := by unfold State.traceEntry; (repeat' split) <;> rfl
@[simp] theorem State.nextId_traceEntry (k cyc : Nat) (w : Word) : (s.traceEntry k cyc w).nextId = s.nextId := by unfold State.traceEntry; (repeat' split) <;> rfl
@[simp] theorem State.agenda_traceEntry (k cyc : Nat) (w : Word) : (s.traceEntry k cyc w).agenda = s.agenda := by unfold State.traceEntry; (repeat' split) <;> rfl
@[simp] theorem State.inbox_traceEntry (k cyc : Nat) (w : Word) : (s.traceEntry k cyc w).inbox = s.inbox := by unfold State.traceEntry; (repeat' split) <;> rfl
@[simp] theorem State.outbox_traceEntry (k cyc : Nat) (w : Word) : (s.traceEntry k cyc w).outbox = s.outbox := by unfold State.traceEntry; (repeat' split) <;> rfl
@[simp] theorem State.sched_traceEntry (k cyc : Nat) (w : Word) : (s.traceEntry k cyc w).sched = s.sched := by unfold State.traceEntry; (repeat' split) <;> rfl
@[simp] theorem State.freeIdx_traceEntry (k cyc : Nat) (w : Word) : (s.traceEntry k cyc w).freeIdx = s.freeIdx := by unfold State.traceEntry; (repeat' split) <;> rfl
@[simp] theorem State.cur_count (p : Nat) (g : BitVec 32) (a n : Nat) : (s.count p g a n).cur = s.cur := rfl
@[simp] theorem State.fetched_count (p : Nat) (g : BitVec 32) (a n : Nat) : (s.count p g a n).fetched = s.fetched := rfl
@[simp] theorem State.ctxs_count (p : Nat) (g : BitVec 32) (a n : Nat) : (s.count p g a n).ctxs = s.ctxs := rfl
@[simp] theorem State.cores_count (p : Nat) (g : BitVec 32) (a n : Nat) : (s.count p g a n).cores = s.cores := rfl
@[simp] theorem State.galleys_count (p : Nat) (g : BitVec 32) (a n : Nat) : (s.count p g a n).galleys = s.galleys := rfl
@[simp] theorem State.dies_count (p : Nat) (g : BitVec 32) (a n : Nat) : (s.count p g a n).dies = s.dies := rfl
@[simp] theorem State.mem_count (p : Nat) (g : BitVec 32) (a n : Nat) : (s.count p g a n).mem = s.mem := rfl
@[simp] theorem State.poison_count (p : Nat) (g : BitVec 32) (a n : Nat) : (s.count p g a n).poison = s.poison := rfl
@[simp] theorem State.queues_count (p : Nat) (g : BitVec 32) (a n : Nat) : (s.count p g a n).queues = s.queues := rfl
@[simp] theorem State.levels_count (p : Nat) (g : BitVec 32) (a n : Nat) : (s.count p g a n).levels = s.levels := rfl
@[simp] theorem State.formes_count (p : Nat) (g : BitVec 32) (a n : Nat) : (s.count p g a n).formes = s.formes := rfl
@[simp] theorem State.programs_count (p : Nat) (g : BitVec 32) (a n : Nat) : (s.count p g a n).programs = s.programs := rfl
@[simp] theorem State.resvs_count (p : Nat) (g : BitVec 32) (a n : Nat) : (s.count p g a n).resvs = s.resvs := rfl
@[simp] theorem State.bwaits_count (p : Nat) (g : BitVec 32) (a n : Nat) : (s.count p g a n).bwaits = s.bwaits := rfl
@[simp] theorem State.jobs_count (p : Nat) (g : BitVec 32) (a n : Nat) : (s.count p g a n).jobs = s.jobs := rfl
@[simp] theorem State.shadows_count (p : Nat) (g : BitVec 32) (a n : Nat) : (s.count p g a n).shadows = s.shadows := rfl
@[simp] theorem State.stamps_count (p : Nat) (g : BitVec 32) (a n : Nat) : (s.count p g a n).stamps = s.stamps := rfl
@[simp] theorem State.net_count (p : Nat) (g : BitVec 32) (a n : Nat) : (s.count p g a n).net = s.net := rfl
@[simp] theorem State.nextId_count (p : Nat) (g : BitVec 32) (a n : Nat) : (s.count p g a n).nextId = s.nextId := rfl
@[simp] theorem State.agenda_count (p : Nat) (g : BitVec 32) (a n : Nat) : (s.count p g a n).agenda = s.agenda := rfl
@[simp] theorem State.inbox_count (p : Nat) (g : BitVec 32) (a n : Nat) : (s.count p g a n).inbox = s.inbox := rfl
@[simp] theorem State.outbox_count (p : Nat) (g : BitVec 32) (a n : Nat) : (s.count p g a n).outbox = s.outbox := rfl
@[simp] theorem State.sched_count (p : Nat) (g : BitVec 32) (a n : Nat) : (s.count p g a n).sched = s.sched := rfl
@[simp] theorem State.freeIdx_count (p : Nat) (g : BitVec 32) (a n : Nat) : (s.count p g a n).freeIdx = s.freeIdx := rfl
@[simp] theorem State.cur_noteIssue : (s.noteIssue).cur = s.cur := by simp [State.noteIssue]
@[simp] theorem State.fetched_noteIssue : (s.noteIssue).fetched = s.fetched := by simp [State.noteIssue]
@[simp] theorem State.ctxs_noteIssue : (s.noteIssue).ctxs = s.ctxs := by simp [State.noteIssue]
@[simp] theorem State.cores_noteIssue : (s.noteIssue).cores = s.cores := by simp [State.noteIssue]
@[simp] theorem State.galleys_noteIssue : (s.noteIssue).galleys = s.galleys := by simp [State.noteIssue]
@[simp] theorem State.mem_noteIssue : (s.noteIssue).mem = s.mem := by simp [State.noteIssue]
@[simp] theorem State.poison_noteIssue : (s.noteIssue).poison = s.poison := by simp [State.noteIssue]
@[simp] theorem State.queues_noteIssue : (s.noteIssue).queues = s.queues := by simp [State.noteIssue]
@[simp] theorem State.levels_noteIssue : (s.noteIssue).levels = s.levels := by simp [State.noteIssue]
@[simp] theorem State.formes_noteIssue : (s.noteIssue).formes = s.formes := by simp [State.noteIssue]
@[simp] theorem State.programs_noteIssue : (s.noteIssue).programs = s.programs := by simp [State.noteIssue]
@[simp] theorem State.resvs_noteIssue : (s.noteIssue).resvs = s.resvs := by simp [State.noteIssue]
@[simp] theorem State.bwaits_noteIssue : (s.noteIssue).bwaits = s.bwaits := by simp [State.noteIssue]
@[simp] theorem State.jobs_noteIssue : (s.noteIssue).jobs = s.jobs := by simp [State.noteIssue]
@[simp] theorem State.shadows_noteIssue : (s.noteIssue).shadows = s.shadows := by simp [State.noteIssue]
@[simp] theorem State.stamps_noteIssue : (s.noteIssue).stamps = s.stamps := by simp [State.noteIssue]
@[simp] theorem State.net_noteIssue : (s.noteIssue).net = s.net := by simp [State.noteIssue]
@[simp] theorem State.nextId_noteIssue : (s.noteIssue).nextId = s.nextId := by simp [State.noteIssue]
@[simp] theorem State.agenda_noteIssue : (s.noteIssue).agenda = s.agenda := by simp [State.noteIssue]
@[simp] theorem State.inbox_noteIssue : (s.noteIssue).inbox = s.inbox := by simp [State.noteIssue]
@[simp] theorem State.outbox_noteIssue : (s.noteIssue).outbox = s.outbox := by simp [State.noteIssue]
@[simp] theorem State.sched_noteIssue : (s.noteIssue).sched = s.sched := by simp [State.noteIssue]
@[simp] theorem State.freeIdx_noteIssue : (s.noteIssue).freeIdx = s.freeIdx := by simp [State.noteIssue]
@[simp] theorem State.cur_useSlot : (s.useSlot).cur = s.cur := by simp [State.useSlot]
@[simp] theorem State.fetched_useSlot : (s.useSlot).fetched = s.fetched := by simp [State.useSlot]
@[simp] theorem State.galleys_useSlot : (s.useSlot).galleys = s.galleys := by simp [State.useSlot]
@[simp] theorem State.mem_useSlot : (s.useSlot).mem = s.mem := by simp [State.useSlot]
@[simp] theorem State.poison_useSlot : (s.useSlot).poison = s.poison := by simp [State.useSlot]
@[simp] theorem State.queues_useSlot : (s.useSlot).queues = s.queues := by simp [State.useSlot]
@[simp] theorem State.levels_useSlot : (s.useSlot).levels = s.levels := by simp [State.useSlot]
@[simp] theorem State.formes_useSlot : (s.useSlot).formes = s.formes := by simp [State.useSlot]
@[simp] theorem State.programs_useSlot : (s.useSlot).programs = s.programs := by simp [State.useSlot]
@[simp] theorem State.resvs_useSlot : (s.useSlot).resvs = s.resvs := by simp [State.useSlot]
@[simp] theorem State.bwaits_useSlot : (s.useSlot).bwaits = s.bwaits := by simp [State.useSlot]
@[simp] theorem State.jobs_useSlot : (s.useSlot).jobs = s.jobs := by simp [State.useSlot]
@[simp] theorem State.shadows_useSlot : (s.useSlot).shadows = s.shadows := by simp [State.useSlot]
@[simp] theorem State.stamps_useSlot : (s.useSlot).stamps = s.stamps := by simp [State.useSlot]
@[simp] theorem State.net_useSlot : (s.useSlot).net = s.net := by simp [State.useSlot]
@[simp] theorem State.nextId_useSlot : (s.useSlot).nextId = s.nextId := by simp [State.useSlot]
@[simp] theorem State.agenda_useSlot : (s.useSlot).agenda = s.agenda := by simp [State.useSlot]
@[simp] theorem State.inbox_useSlot : (s.useSlot).inbox = s.inbox := by simp [State.useSlot]
@[simp] theorem State.outbox_useSlot : (s.useSlot).outbox = s.outbox := by simp [State.useSlot]
@[simp] theorem State.sched_useSlot : (s.useSlot).sched = s.sched := by simp [State.useSlot]
@[simp] theorem State.freeIdx_useSlot : (s.useSlot).freeIdx = s.freeIdx := by simp [State.useSlot]
@[simp] theorem State.cur_noteUse (u : Use) : (s.noteUse u).cur = s.cur := by simp [State.noteUse]
@[simp] theorem State.fetched_noteUse (u : Use) : (s.noteUse u).fetched = s.fetched := by simp [State.noteUse]
@[simp] theorem State.ctxs_noteUse (u : Use) : (s.noteUse u).ctxs = s.ctxs := by simp [State.noteUse]
@[simp] theorem State.cores_noteUse (u : Use) : (s.noteUse u).cores = s.cores := by simp [State.noteUse]
@[simp] theorem State.galleys_noteUse (u : Use) : (s.noteUse u).galleys = s.galleys := by simp [State.noteUse]
@[simp] theorem State.dies_noteUse (u : Use) : (s.noteUse u).dies = s.dies := by simp [State.noteUse]
@[simp] theorem State.mem_noteUse (u : Use) : (s.noteUse u).mem = s.mem := by simp [State.noteUse]
@[simp] theorem State.poison_noteUse (u : Use) : (s.noteUse u).poison = s.poison := by simp [State.noteUse]
@[simp] theorem State.queues_noteUse (u : Use) : (s.noteUse u).queues = s.queues := by simp [State.noteUse]
@[simp] theorem State.levels_noteUse (u : Use) : (s.noteUse u).levels = s.levels := by simp [State.noteUse]
@[simp] theorem State.formes_noteUse (u : Use) : (s.noteUse u).formes = s.formes := by simp [State.noteUse]
@[simp] theorem State.programs_noteUse (u : Use) : (s.noteUse u).programs = s.programs := by simp [State.noteUse]
@[simp] theorem State.resvs_noteUse (u : Use) : (s.noteUse u).resvs = s.resvs := by simp [State.noteUse]
@[simp] theorem State.bwaits_noteUse (u : Use) : (s.noteUse u).bwaits = s.bwaits := by simp [State.noteUse]
@[simp] theorem State.jobs_noteUse (u : Use) : (s.noteUse u).jobs = s.jobs := by simp [State.noteUse]
@[simp] theorem State.shadows_noteUse (u : Use) : (s.noteUse u).shadows = s.shadows := by simp [State.noteUse]
@[simp] theorem State.stamps_noteUse (u : Use) : (s.noteUse u).stamps = s.stamps := by simp [State.noteUse]
@[simp] theorem State.net_noteUse (u : Use) : (s.noteUse u).net = s.net := by simp [State.noteUse]
@[simp] theorem State.nextId_noteUse (u : Use) : (s.noteUse u).nextId = s.nextId := by simp [State.noteUse]
@[simp] theorem State.agenda_noteUse (u : Use) : (s.noteUse u).agenda = s.agenda := by simp [State.noteUse]
@[simp] theorem State.inbox_noteUse (u : Use) : (s.noteUse u).inbox = s.inbox := by simp [State.noteUse]
@[simp] theorem State.outbox_noteUse (u : Use) : (s.noteUse u).outbox = s.outbox := by simp [State.noteUse]
@[simp] theorem State.sched_noteUse (u : Use) : (s.noteUse u).sched = s.sched := by simp [State.noteUse]
@[simp] theorem State.freeIdx_noteUse (u : Use) : (s.noteUse u).freeIdx = s.freeIdx := by simp [State.noteUse]
@[simp] theorem State.cur_finishAt (u : Use) (npc : Word) : (s.finishAt u npc).cur = s.cur := by simp [State.finishAt]
@[simp] theorem State.fetched_finishAt (u : Use) (npc : Word) : (s.finishAt u npc).fetched = s.fetched := by simp [State.finishAt]
@[simp] theorem State.galleys_finishAt (u : Use) (npc : Word) : (s.finishAt u npc).galleys = s.galleys := by simp [State.finishAt]
@[simp] theorem State.mem_finishAt (u : Use) (npc : Word) : (s.finishAt u npc).mem = s.mem := by simp [State.finishAt]
@[simp] theorem State.poison_finishAt (u : Use) (npc : Word) : (s.finishAt u npc).poison = s.poison := by simp [State.finishAt]
@[simp] theorem State.queues_finishAt (u : Use) (npc : Word) : (s.finishAt u npc).queues = s.queues := by simp [State.finishAt]
@[simp] theorem State.levels_finishAt (u : Use) (npc : Word) : (s.finishAt u npc).levels = s.levels := by simp [State.finishAt]
@[simp] theorem State.formes_finishAt (u : Use) (npc : Word) : (s.finishAt u npc).formes = s.formes := by simp [State.finishAt]
@[simp] theorem State.programs_finishAt (u : Use) (npc : Word) : (s.finishAt u npc).programs = s.programs := by simp [State.finishAt]
@[simp] theorem State.resvs_finishAt (u : Use) (npc : Word) : (s.finishAt u npc).resvs = s.resvs := by simp [State.finishAt]
@[simp] theorem State.bwaits_finishAt (u : Use) (npc : Word) : (s.finishAt u npc).bwaits = s.bwaits := by simp [State.finishAt]
@[simp] theorem State.jobs_finishAt (u : Use) (npc : Word) : (s.finishAt u npc).jobs = s.jobs := by simp [State.finishAt]
@[simp] theorem State.shadows_finishAt (u : Use) (npc : Word) : (s.finishAt u npc).shadows = s.shadows := by simp [State.finishAt]
@[simp] theorem State.stamps_finishAt (u : Use) (npc : Word) : (s.finishAt u npc).stamps = s.stamps := by simp [State.finishAt]
@[simp] theorem State.net_finishAt (u : Use) (npc : Word) : (s.finishAt u npc).net = s.net := by simp [State.finishAt]
@[simp] theorem State.nextId_finishAt (u : Use) (npc : Word) : (s.finishAt u npc).nextId = s.nextId := by simp [State.finishAt]
@[simp] theorem State.agenda_finishAt (u : Use) (npc : Word) : (s.finishAt u npc).agenda = s.agenda := by simp [State.finishAt]
@[simp] theorem State.inbox_finishAt (u : Use) (npc : Word) : (s.finishAt u npc).inbox = s.inbox := by simp [State.finishAt]
@[simp] theorem State.outbox_finishAt (u : Use) (npc : Word) : (s.finishAt u npc).outbox = s.outbox := by simp [State.finishAt]
@[simp] theorem State.sched_finishAt (u : Use) (npc : Word) : (s.finishAt u npc).sched = s.sched := by simp [State.finishAt]
@[simp] theorem State.freeIdx_finishAt (u : Use) (npc : Word) : (s.finishAt u npc).freeIdx = s.freeIdx := by simp [State.finishAt]
@[simp] theorem State.cur_finish (u : Use) : (s.finish u).cur = s.cur := by simp [State.finish]
@[simp] theorem State.fetched_finish (u : Use) : (s.finish u).fetched = s.fetched := by simp [State.finish]
@[simp] theorem State.galleys_finish (u : Use) : (s.finish u).galleys = s.galleys := by simp [State.finish]
@[simp] theorem State.mem_finish (u : Use) : (s.finish u).mem = s.mem := by simp [State.finish]
@[simp] theorem State.poison_finish (u : Use) : (s.finish u).poison = s.poison := by simp [State.finish]
@[simp] theorem State.queues_finish (u : Use) : (s.finish u).queues = s.queues := by simp [State.finish]
@[simp] theorem State.levels_finish (u : Use) : (s.finish u).levels = s.levels := by simp [State.finish]
@[simp] theorem State.formes_finish (u : Use) : (s.finish u).formes = s.formes := by simp [State.finish]
@[simp] theorem State.programs_finish (u : Use) : (s.finish u).programs = s.programs := by simp [State.finish]
@[simp] theorem State.resvs_finish (u : Use) : (s.finish u).resvs = s.resvs := by simp [State.finish]
@[simp] theorem State.bwaits_finish (u : Use) : (s.finish u).bwaits = s.bwaits := by simp [State.finish]
@[simp] theorem State.jobs_finish (u : Use) : (s.finish u).jobs = s.jobs := by simp [State.finish]
@[simp] theorem State.shadows_finish (u : Use) : (s.finish u).shadows = s.shadows := by simp [State.finish]
@[simp] theorem State.stamps_finish (u : Use) : (s.finish u).stamps = s.stamps := by simp [State.finish]
@[simp] theorem State.net_finish (u : Use) : (s.finish u).net = s.net := by simp [State.finish]
@[simp] theorem State.nextId_finish (u : Use) : (s.finish u).nextId = s.nextId := by simp [State.finish]
@[simp] theorem State.agenda_finish (u : Use) : (s.finish u).agenda = s.agenda := by simp [State.finish]
@[simp] theorem State.inbox_finish (u : Use) : (s.finish u).inbox = s.inbox := by simp [State.finish]
@[simp] theorem State.outbox_finish (u : Use) : (s.finish u).outbox = s.outbox := by simp [State.finish]
@[simp] theorem State.sched_finish (u : Use) : (s.finish u).sched = s.sched := by simp [State.finish]
@[simp] theorem State.freeIdx_finish (u : Use) : (s.finish u).freeIdx = s.freeIdx := by simp [State.finish]
@[simp] theorem State.cur_setGReg (c i : Nat) (r : GReg) : (s.setGReg c i r).cur = s.cur := by unfold State.setGReg; split <;> rfl
@[simp] theorem State.fetched_setGReg (c i : Nat) (r : GReg) : (s.setGReg c i r).fetched = s.fetched := by unfold State.setGReg; split <;> rfl
@[simp] theorem State.ctxs_setGReg (c i : Nat) (r : GReg) : (s.setGReg c i r).ctxs = s.ctxs := by unfold State.setGReg; split <;> rfl
@[simp] theorem State.galleys_setGReg (c i : Nat) (r : GReg) : (s.setGReg c i r).galleys = s.galleys := by unfold State.setGReg; split <;> rfl
@[simp] theorem State.dies_setGReg (c i : Nat) (r : GReg) : (s.setGReg c i r).dies = s.dies := by unfold State.setGReg; split <;> rfl
@[simp] theorem State.pkgs_setGReg (c i : Nat) (r : GReg) : (s.setGReg c i r).pkgs = s.pkgs := by unfold State.setGReg; split <;> rfl
@[simp] theorem State.mem_setGReg (c i : Nat) (r : GReg) : (s.setGReg c i r).mem = s.mem := by unfold State.setGReg; split <;> rfl
@[simp] theorem State.poison_setGReg (c i : Nat) (r : GReg) : (s.setGReg c i r).poison = s.poison := by unfold State.setGReg; split <;> rfl
@[simp] theorem State.queues_setGReg (c i : Nat) (r : GReg) : (s.setGReg c i r).queues = s.queues := by unfold State.setGReg; split <;> rfl
@[simp] theorem State.levels_setGReg (c i : Nat) (r : GReg) : (s.setGReg c i r).levels = s.levels := by unfold State.setGReg; split <;> rfl
@[simp] theorem State.formes_setGReg (c i : Nat) (r : GReg) : (s.setGReg c i r).formes = s.formes := by unfold State.setGReg; split <;> rfl
@[simp] theorem State.programs_setGReg (c i : Nat) (r : GReg) : (s.setGReg c i r).programs = s.programs := by unfold State.setGReg; split <;> rfl
@[simp] theorem State.resvs_setGReg (c i : Nat) (r : GReg) : (s.setGReg c i r).resvs = s.resvs := by unfold State.setGReg; split <;> rfl
@[simp] theorem State.bwaits_setGReg (c i : Nat) (r : GReg) : (s.setGReg c i r).bwaits = s.bwaits := by unfold State.setGReg; split <;> rfl
@[simp] theorem State.jobs_setGReg (c i : Nat) (r : GReg) : (s.setGReg c i r).jobs = s.jobs := by unfold State.setGReg; split <;> rfl
@[simp] theorem State.shadows_setGReg (c i : Nat) (r : GReg) : (s.setGReg c i r).shadows = s.shadows := by unfold State.setGReg; split <;> rfl
@[simp] theorem State.stamps_setGReg (c i : Nat) (r : GReg) : (s.setGReg c i r).stamps = s.stamps := by unfold State.setGReg; split <;> rfl
@[simp] theorem State.net_setGReg (c i : Nat) (r : GReg) : (s.setGReg c i r).net = s.net := by unfold State.setGReg; split <;> rfl
@[simp] theorem State.nextId_setGReg (c i : Nat) (r : GReg) : (s.setGReg c i r).nextId = s.nextId := by unfold State.setGReg; split <;> rfl
@[simp] theorem State.agenda_setGReg (c i : Nat) (r : GReg) : (s.setGReg c i r).agenda = s.agenda := by unfold State.setGReg; split <;> rfl
@[simp] theorem State.inbox_setGReg (c i : Nat) (r : GReg) : (s.setGReg c i r).inbox = s.inbox := by unfold State.setGReg; split <;> rfl
@[simp] theorem State.outbox_setGReg (c i : Nat) (r : GReg) : (s.setGReg c i r).outbox = s.outbox := by unfold State.setGReg; split <;> rfl
@[simp] theorem State.sched_setGReg (c i : Nat) (r : GReg) : (s.setGReg c i r).sched = s.sched := by unfold State.setGReg; split <;> rfl
@[simp] theorem State.freeIdx_setGReg (c i : Nat) (r : GReg) : (s.setGReg c i r).freeIdx = s.freeIdx := by unfold State.setGReg; split <;> rfl
@[simp] theorem State.cur_setVReg (c i : Nat) (r : VReg) : (s.setVReg c i r).cur = s.cur := rfl
@[simp] theorem State.fetched_setVReg (c i : Nat) (r : VReg) : (s.setVReg c i r).fetched = s.fetched := rfl
@[simp] theorem State.ctxs_setVReg (c i : Nat) (r : VReg) : (s.setVReg c i r).ctxs = s.ctxs := rfl
@[simp] theorem State.galleys_setVReg (c i : Nat) (r : VReg) : (s.setVReg c i r).galleys = s.galleys := rfl
@[simp] theorem State.dies_setVReg (c i : Nat) (r : VReg) : (s.setVReg c i r).dies = s.dies := rfl
@[simp] theorem State.pkgs_setVReg (c i : Nat) (r : VReg) : (s.setVReg c i r).pkgs = s.pkgs := rfl
@[simp] theorem State.mem_setVReg (c i : Nat) (r : VReg) : (s.setVReg c i r).mem = s.mem := rfl
@[simp] theorem State.poison_setVReg (c i : Nat) (r : VReg) : (s.setVReg c i r).poison = s.poison := rfl
@[simp] theorem State.queues_setVReg (c i : Nat) (r : VReg) : (s.setVReg c i r).queues = s.queues := rfl
@[simp] theorem State.levels_setVReg (c i : Nat) (r : VReg) : (s.setVReg c i r).levels = s.levels := rfl
@[simp] theorem State.formes_setVReg (c i : Nat) (r : VReg) : (s.setVReg c i r).formes = s.formes := rfl
@[simp] theorem State.programs_setVReg (c i : Nat) (r : VReg) : (s.setVReg c i r).programs = s.programs := rfl
@[simp] theorem State.resvs_setVReg (c i : Nat) (r : VReg) : (s.setVReg c i r).resvs = s.resvs := rfl
@[simp] theorem State.bwaits_setVReg (c i : Nat) (r : VReg) : (s.setVReg c i r).bwaits = s.bwaits := rfl
@[simp] theorem State.jobs_setVReg (c i : Nat) (r : VReg) : (s.setVReg c i r).jobs = s.jobs := rfl
@[simp] theorem State.shadows_setVReg (c i : Nat) (r : VReg) : (s.setVReg c i r).shadows = s.shadows := rfl
@[simp] theorem State.stamps_setVReg (c i : Nat) (r : VReg) : (s.setVReg c i r).stamps = s.stamps := rfl
@[simp] theorem State.net_setVReg (c i : Nat) (r : VReg) : (s.setVReg c i r).net = s.net := rfl
@[simp] theorem State.nextId_setVReg (c i : Nat) (r : VReg) : (s.setVReg c i r).nextId = s.nextId := rfl
@[simp] theorem State.agenda_setVReg (c i : Nat) (r : VReg) : (s.setVReg c i r).agenda = s.agenda := rfl
@[simp] theorem State.inbox_setVReg (c i : Nat) (r : VReg) : (s.setVReg c i r).inbox = s.inbox := rfl
@[simp] theorem State.outbox_setVReg (c i : Nat) (r : VReg) : (s.setVReg c i r).outbox = s.outbox := rfl
@[simp] theorem State.sched_setVReg (c i : Nat) (r : VReg) : (s.setVReg c i r).sched = s.sched := rfl
@[simp] theorem State.freeIdx_setVReg (c i : Nat) (r : VReg) : (s.setVReg c i r).freeIdx = s.freeIdx := rfl
@[simp] theorem State.cur_setDReg (c i : Nat) (r : DReg) : (s.setDReg c i r).cur = s.cur := rfl
@[simp] theorem State.fetched_setDReg (c i : Nat) (r : DReg) : (s.setDReg c i r).fetched = s.fetched := rfl
@[simp] theorem State.ctxs_setDReg (c i : Nat) (r : DReg) : (s.setDReg c i r).ctxs = s.ctxs := rfl
@[simp] theorem State.galleys_setDReg (c i : Nat) (r : DReg) : (s.setDReg c i r).galleys = s.galleys := rfl
@[simp] theorem State.dies_setDReg (c i : Nat) (r : DReg) : (s.setDReg c i r).dies = s.dies := rfl
@[simp] theorem State.pkgs_setDReg (c i : Nat) (r : DReg) : (s.setDReg c i r).pkgs = s.pkgs := rfl
@[simp] theorem State.mem_setDReg (c i : Nat) (r : DReg) : (s.setDReg c i r).mem = s.mem := rfl
@[simp] theorem State.poison_setDReg (c i : Nat) (r : DReg) : (s.setDReg c i r).poison = s.poison := rfl
@[simp] theorem State.queues_setDReg (c i : Nat) (r : DReg) : (s.setDReg c i r).queues = s.queues := rfl
@[simp] theorem State.levels_setDReg (c i : Nat) (r : DReg) : (s.setDReg c i r).levels = s.levels := rfl
@[simp] theorem State.formes_setDReg (c i : Nat) (r : DReg) : (s.setDReg c i r).formes = s.formes := rfl
@[simp] theorem State.programs_setDReg (c i : Nat) (r : DReg) : (s.setDReg c i r).programs = s.programs := rfl
@[simp] theorem State.resvs_setDReg (c i : Nat) (r : DReg) : (s.setDReg c i r).resvs = s.resvs := rfl
@[simp] theorem State.bwaits_setDReg (c i : Nat) (r : DReg) : (s.setDReg c i r).bwaits = s.bwaits := rfl
@[simp] theorem State.jobs_setDReg (c i : Nat) (r : DReg) : (s.setDReg c i r).jobs = s.jobs := rfl
@[simp] theorem State.shadows_setDReg (c i : Nat) (r : DReg) : (s.setDReg c i r).shadows = s.shadows := rfl
@[simp] theorem State.stamps_setDReg (c i : Nat) (r : DReg) : (s.setDReg c i r).stamps = s.stamps := rfl
@[simp] theorem State.net_setDReg (c i : Nat) (r : DReg) : (s.setDReg c i r).net = s.net := rfl
@[simp] theorem State.nextId_setDReg (c i : Nat) (r : DReg) : (s.setDReg c i r).nextId = s.nextId := rfl
@[simp] theorem State.agenda_setDReg (c i : Nat) (r : DReg) : (s.setDReg c i r).agenda = s.agenda := rfl
@[simp] theorem State.inbox_setDReg (c i : Nat) (r : DReg) : (s.setDReg c i r).inbox = s.inbox := rfl
@[simp] theorem State.outbox_setDReg (c i : Nat) (r : DReg) : (s.setDReg c i r).outbox = s.outbox := rfl
@[simp] theorem State.sched_setDReg (c i : Nat) (r : DReg) : (s.setDReg c i r).sched = s.sched := rfl
@[simp] theorem State.freeIdx_setDReg (c i : Nat) (r : DReg) : (s.setDReg c i r).freeIdx = s.freeIdx := rfl
@[simp] theorem State.cur_putG (c i : Nat) (v : Word) : (s.putG c i v).cur = s.cur := by simp [State.putG]
@[simp] theorem State.fetched_putG (c i : Nat) (v : Word) : (s.putG c i v).fetched = s.fetched := by simp [State.putG]
@[simp] theorem State.ctxs_putG (c i : Nat) (v : Word) : (s.putG c i v).ctxs = s.ctxs := by simp [State.putG]
@[simp] theorem State.galleys_putG (c i : Nat) (v : Word) : (s.putG c i v).galleys = s.galleys := by simp [State.putG]
@[simp] theorem State.dies_putG (c i : Nat) (v : Word) : (s.putG c i v).dies = s.dies := by simp [State.putG]
@[simp] theorem State.pkgs_putG (c i : Nat) (v : Word) : (s.putG c i v).pkgs = s.pkgs := by simp [State.putG]
@[simp] theorem State.mem_putG (c i : Nat) (v : Word) : (s.putG c i v).mem = s.mem := by simp [State.putG]
@[simp] theorem State.poison_putG (c i : Nat) (v : Word) : (s.putG c i v).poison = s.poison := by simp [State.putG]
@[simp] theorem State.queues_putG (c i : Nat) (v : Word) : (s.putG c i v).queues = s.queues := by simp [State.putG]
@[simp] theorem State.levels_putG (c i : Nat) (v : Word) : (s.putG c i v).levels = s.levels := by simp [State.putG]
@[simp] theorem State.formes_putG (c i : Nat) (v : Word) : (s.putG c i v).formes = s.formes := by simp [State.putG]
@[simp] theorem State.programs_putG (c i : Nat) (v : Word) : (s.putG c i v).programs = s.programs := by simp [State.putG]
@[simp] theorem State.resvs_putG (c i : Nat) (v : Word) : (s.putG c i v).resvs = s.resvs := by simp [State.putG]
@[simp] theorem State.bwaits_putG (c i : Nat) (v : Word) : (s.putG c i v).bwaits = s.bwaits := by simp [State.putG]
@[simp] theorem State.jobs_putG (c i : Nat) (v : Word) : (s.putG c i v).jobs = s.jobs := by simp [State.putG]
@[simp] theorem State.shadows_putG (c i : Nat) (v : Word) : (s.putG c i v).shadows = s.shadows := by simp [State.putG]
@[simp] theorem State.stamps_putG (c i : Nat) (v : Word) : (s.putG c i v).stamps = s.stamps := by simp [State.putG]
@[simp] theorem State.net_putG (c i : Nat) (v : Word) : (s.putG c i v).net = s.net := by simp [State.putG]
@[simp] theorem State.nextId_putG (c i : Nat) (v : Word) : (s.putG c i v).nextId = s.nextId := by simp [State.putG]
@[simp] theorem State.agenda_putG (c i : Nat) (v : Word) : (s.putG c i v).agenda = s.agenda := by simp [State.putG]
@[simp] theorem State.inbox_putG (c i : Nat) (v : Word) : (s.putG c i v).inbox = s.inbox := by simp [State.putG]
@[simp] theorem State.outbox_putG (c i : Nat) (v : Word) : (s.putG c i v).outbox = s.outbox := by simp [State.putG]
@[simp] theorem State.sched_putG (c i : Nat) (v : Word) : (s.putG c i v).sched = s.sched := by simp [State.putG]
@[simp] theorem State.freeIdx_putG (c i : Nat) (v : Word) : (s.putG c i v).freeIdx = s.freeIdx := by simp [State.putG]
@[simp] theorem State.cur_putV (c i : Nat) (v : VWord) (w : Half) : (s.putV c i v w).cur = s.cur := by simp [State.putV]
@[simp] theorem State.fetched_putV (c i : Nat) (v : VWord) (w : Half) : (s.putV c i v w).fetched = s.fetched := by simp [State.putV]
@[simp] theorem State.ctxs_putV (c i : Nat) (v : VWord) (w : Half) : (s.putV c i v w).ctxs = s.ctxs := by simp [State.putV]
@[simp] theorem State.galleys_putV (c i : Nat) (v : VWord) (w : Half) : (s.putV c i v w).galleys = s.galleys := by simp [State.putV]
@[simp] theorem State.dies_putV (c i : Nat) (v : VWord) (w : Half) : (s.putV c i v w).dies = s.dies := by simp [State.putV]
@[simp] theorem State.pkgs_putV (c i : Nat) (v : VWord) (w : Half) : (s.putV c i v w).pkgs = s.pkgs := by simp [State.putV]
@[simp] theorem State.mem_putV (c i : Nat) (v : VWord) (w : Half) : (s.putV c i v w).mem = s.mem := by simp [State.putV]
@[simp] theorem State.poison_putV (c i : Nat) (v : VWord) (w : Half) : (s.putV c i v w).poison = s.poison := by simp [State.putV]
@[simp] theorem State.queues_putV (c i : Nat) (v : VWord) (w : Half) : (s.putV c i v w).queues = s.queues := by simp [State.putV]
@[simp] theorem State.levels_putV (c i : Nat) (v : VWord) (w : Half) : (s.putV c i v w).levels = s.levels := by simp [State.putV]
@[simp] theorem State.formes_putV (c i : Nat) (v : VWord) (w : Half) : (s.putV c i v w).formes = s.formes := by simp [State.putV]
@[simp] theorem State.programs_putV (c i : Nat) (v : VWord) (w : Half) : (s.putV c i v w).programs = s.programs := by simp [State.putV]
@[simp] theorem State.resvs_putV (c i : Nat) (v : VWord) (w : Half) : (s.putV c i v w).resvs = s.resvs := by simp [State.putV]
@[simp] theorem State.bwaits_putV (c i : Nat) (v : VWord) (w : Half) : (s.putV c i v w).bwaits = s.bwaits := by simp [State.putV]
@[simp] theorem State.jobs_putV (c i : Nat) (v : VWord) (w : Half) : (s.putV c i v w).jobs = s.jobs := by simp [State.putV]
@[simp] theorem State.shadows_putV (c i : Nat) (v : VWord) (w : Half) : (s.putV c i v w).shadows = s.shadows := by simp [State.putV]
@[simp] theorem State.stamps_putV (c i : Nat) (v : VWord) (w : Half) : (s.putV c i v w).stamps = s.stamps := by simp [State.putV]
@[simp] theorem State.net_putV (c i : Nat) (v : VWord) (w : Half) : (s.putV c i v w).net = s.net := by simp [State.putV]
@[simp] theorem State.nextId_putV (c i : Nat) (v : VWord) (w : Half) : (s.putV c i v w).nextId = s.nextId := by simp [State.putV]
@[simp] theorem State.agenda_putV (c i : Nat) (v : VWord) (w : Half) : (s.putV c i v w).agenda = s.agenda := by simp [State.putV]
@[simp] theorem State.inbox_putV (c i : Nat) (v : VWord) (w : Half) : (s.putV c i v w).inbox = s.inbox := by simp [State.putV]
@[simp] theorem State.outbox_putV (c i : Nat) (v : VWord) (w : Half) : (s.putV c i v w).outbox = s.outbox := by simp [State.putV]
@[simp] theorem State.sched_putV (c i : Nat) (v : VWord) (w : Half) : (s.putV c i v w).sched = s.sched := by simp [State.putV]
@[simp] theorem State.freeIdx_putV (c i : Nat) (v : VWord) (w : Half) : (s.putV c i v w).freeIdx = s.freeIdx := by simp [State.putV]
@[simp] theorem State.cur_putPair (c i : Nat) (v : BitVec 1024) (w : BitVec 32) : (s.putPair c i v w).cur = s.cur := by simp [State.putPair]
@[simp] theorem State.fetched_putPair (c i : Nat) (v : BitVec 1024) (w : BitVec 32) : (s.putPair c i v w).fetched = s.fetched := by simp [State.putPair]
@[simp] theorem State.ctxs_putPair (c i : Nat) (v : BitVec 1024) (w : BitVec 32) : (s.putPair c i v w).ctxs = s.ctxs := by simp [State.putPair]
@[simp] theorem State.galleys_putPair (c i : Nat) (v : BitVec 1024) (w : BitVec 32) : (s.putPair c i v w).galleys = s.galleys := by simp [State.putPair]
@[simp] theorem State.dies_putPair (c i : Nat) (v : BitVec 1024) (w : BitVec 32) : (s.putPair c i v w).dies = s.dies := by simp [State.putPair]
@[simp] theorem State.pkgs_putPair (c i : Nat) (v : BitVec 1024) (w : BitVec 32) : (s.putPair c i v w).pkgs = s.pkgs := by simp [State.putPair]
@[simp] theorem State.mem_putPair (c i : Nat) (v : BitVec 1024) (w : BitVec 32) : (s.putPair c i v w).mem = s.mem := by simp [State.putPair]
@[simp] theorem State.poison_putPair (c i : Nat) (v : BitVec 1024) (w : BitVec 32) : (s.putPair c i v w).poison = s.poison := by simp [State.putPair]
@[simp] theorem State.queues_putPair (c i : Nat) (v : BitVec 1024) (w : BitVec 32) : (s.putPair c i v w).queues = s.queues := by simp [State.putPair]
@[simp] theorem State.levels_putPair (c i : Nat) (v : BitVec 1024) (w : BitVec 32) : (s.putPair c i v w).levels = s.levels := by simp [State.putPair]
@[simp] theorem State.formes_putPair (c i : Nat) (v : BitVec 1024) (w : BitVec 32) : (s.putPair c i v w).formes = s.formes := by simp [State.putPair]
@[simp] theorem State.programs_putPair (c i : Nat) (v : BitVec 1024) (w : BitVec 32) : (s.putPair c i v w).programs = s.programs := by simp [State.putPair]
@[simp] theorem State.resvs_putPair (c i : Nat) (v : BitVec 1024) (w : BitVec 32) : (s.putPair c i v w).resvs = s.resvs := by simp [State.putPair]
@[simp] theorem State.bwaits_putPair (c i : Nat) (v : BitVec 1024) (w : BitVec 32) : (s.putPair c i v w).bwaits = s.bwaits := by simp [State.putPair]
@[simp] theorem State.jobs_putPair (c i : Nat) (v : BitVec 1024) (w : BitVec 32) : (s.putPair c i v w).jobs = s.jobs := by simp [State.putPair]
@[simp] theorem State.shadows_putPair (c i : Nat) (v : BitVec 1024) (w : BitVec 32) : (s.putPair c i v w).shadows = s.shadows := by simp [State.putPair]
@[simp] theorem State.stamps_putPair (c i : Nat) (v : BitVec 1024) (w : BitVec 32) : (s.putPair c i v w).stamps = s.stamps := by simp [State.putPair]
@[simp] theorem State.net_putPair (c i : Nat) (v : BitVec 1024) (w : BitVec 32) : (s.putPair c i v w).net = s.net := by simp [State.putPair]
@[simp] theorem State.nextId_putPair (c i : Nat) (v : BitVec 1024) (w : BitVec 32) : (s.putPair c i v w).nextId = s.nextId := by simp [State.putPair]
@[simp] theorem State.agenda_putPair (c i : Nat) (v : BitVec 1024) (w : BitVec 32) : (s.putPair c i v w).agenda = s.agenda := by simp [State.putPair]
@[simp] theorem State.inbox_putPair (c i : Nat) (v : BitVec 1024) (w : BitVec 32) : (s.putPair c i v w).inbox = s.inbox := by simp [State.putPair]
@[simp] theorem State.outbox_putPair (c i : Nat) (v : BitVec 1024) (w : BitVec 32) : (s.putPair c i v w).outbox = s.outbox := by simp [State.putPair]
@[simp] theorem State.sched_putPair (c i : Nat) (v : BitVec 1024) (w : BitVec 32) : (s.putPair c i v w).sched = s.sched := by simp [State.putPair]
@[simp] theorem State.freeIdx_putPair (c i : Nat) (v : BitVec 1024) (w : BitVec 32) : (s.putPair c i v w).freeIdx = s.freeIdx := by simp [State.putPair]
@[simp] theorem State.cur_markG (c i : Nat) (p : Presence) : (s.markG c i p).cur = s.cur := by simp [State.markG]
@[simp] theorem State.fetched_markG (c i : Nat) (p : Presence) : (s.markG c i p).fetched = s.fetched := by simp [State.markG]
@[simp] theorem State.ctxs_markG (c i : Nat) (p : Presence) : (s.markG c i p).ctxs = s.ctxs := by simp [State.markG]
@[simp] theorem State.galleys_markG (c i : Nat) (p : Presence) : (s.markG c i p).galleys = s.galleys := by simp [State.markG]
@[simp] theorem State.dies_markG (c i : Nat) (p : Presence) : (s.markG c i p).dies = s.dies := by simp [State.markG]
@[simp] theorem State.pkgs_markG (c i : Nat) (p : Presence) : (s.markG c i p).pkgs = s.pkgs := by simp [State.markG]
@[simp] theorem State.mem_markG (c i : Nat) (p : Presence) : (s.markG c i p).mem = s.mem := by simp [State.markG]
@[simp] theorem State.poison_markG (c i : Nat) (p : Presence) : (s.markG c i p).poison = s.poison := by simp [State.markG]
@[simp] theorem State.queues_markG (c i : Nat) (p : Presence) : (s.markG c i p).queues = s.queues := by simp [State.markG]
@[simp] theorem State.levels_markG (c i : Nat) (p : Presence) : (s.markG c i p).levels = s.levels := by simp [State.markG]
@[simp] theorem State.formes_markG (c i : Nat) (p : Presence) : (s.markG c i p).formes = s.formes := by simp [State.markG]
@[simp] theorem State.programs_markG (c i : Nat) (p : Presence) : (s.markG c i p).programs = s.programs := by simp [State.markG]
@[simp] theorem State.resvs_markG (c i : Nat) (p : Presence) : (s.markG c i p).resvs = s.resvs := by simp [State.markG]
@[simp] theorem State.bwaits_markG (c i : Nat) (p : Presence) : (s.markG c i p).bwaits = s.bwaits := by simp [State.markG]
@[simp] theorem State.jobs_markG (c i : Nat) (p : Presence) : (s.markG c i p).jobs = s.jobs := by simp [State.markG]
@[simp] theorem State.shadows_markG (c i : Nat) (p : Presence) : (s.markG c i p).shadows = s.shadows := by simp [State.markG]
@[simp] theorem State.stamps_markG (c i : Nat) (p : Presence) : (s.markG c i p).stamps = s.stamps := by simp [State.markG]
@[simp] theorem State.net_markG (c i : Nat) (p : Presence) : (s.markG c i p).net = s.net := by simp [State.markG]
@[simp] theorem State.nextId_markG (c i : Nat) (p : Presence) : (s.markG c i p).nextId = s.nextId := by simp [State.markG]
@[simp] theorem State.agenda_markG (c i : Nat) (p : Presence) : (s.markG c i p).agenda = s.agenda := by simp [State.markG]
@[simp] theorem State.inbox_markG (c i : Nat) (p : Presence) : (s.markG c i p).inbox = s.inbox := by simp [State.markG]
@[simp] theorem State.outbox_markG (c i : Nat) (p : Presence) : (s.markG c i p).outbox = s.outbox := by simp [State.markG]
@[simp] theorem State.sched_markG (c i : Nat) (p : Presence) : (s.markG c i p).sched = s.sched := by simp [State.markG]
@[simp] theorem State.freeIdx_markG (c i : Nat) (p : Presence) : (s.markG c i p).freeIdx = s.freeIdx := by simp [State.markG]
@[simp] theorem State.cur_markV (c i : Nat) (p : Presence) : (s.markV c i p).cur = s.cur := by simp [State.markV]
@[simp] theorem State.fetched_markV (c i : Nat) (p : Presence) : (s.markV c i p).fetched = s.fetched := by simp [State.markV]
@[simp] theorem State.ctxs_markV (c i : Nat) (p : Presence) : (s.markV c i p).ctxs = s.ctxs := by simp [State.markV]
@[simp] theorem State.galleys_markV (c i : Nat) (p : Presence) : (s.markV c i p).galleys = s.galleys := by simp [State.markV]
@[simp] theorem State.dies_markV (c i : Nat) (p : Presence) : (s.markV c i p).dies = s.dies := by simp [State.markV]
@[simp] theorem State.pkgs_markV (c i : Nat) (p : Presence) : (s.markV c i p).pkgs = s.pkgs := by simp [State.markV]
@[simp] theorem State.mem_markV (c i : Nat) (p : Presence) : (s.markV c i p).mem = s.mem := by simp [State.markV]
@[simp] theorem State.poison_markV (c i : Nat) (p : Presence) : (s.markV c i p).poison = s.poison := by simp [State.markV]
@[simp] theorem State.queues_markV (c i : Nat) (p : Presence) : (s.markV c i p).queues = s.queues := by simp [State.markV]
@[simp] theorem State.levels_markV (c i : Nat) (p : Presence) : (s.markV c i p).levels = s.levels := by simp [State.markV]
@[simp] theorem State.formes_markV (c i : Nat) (p : Presence) : (s.markV c i p).formes = s.formes := by simp [State.markV]
@[simp] theorem State.programs_markV (c i : Nat) (p : Presence) : (s.markV c i p).programs = s.programs := by simp [State.markV]
@[simp] theorem State.resvs_markV (c i : Nat) (p : Presence) : (s.markV c i p).resvs = s.resvs := by simp [State.markV]
@[simp] theorem State.bwaits_markV (c i : Nat) (p : Presence) : (s.markV c i p).bwaits = s.bwaits := by simp [State.markV]
@[simp] theorem State.jobs_markV (c i : Nat) (p : Presence) : (s.markV c i p).jobs = s.jobs := by simp [State.markV]
@[simp] theorem State.shadows_markV (c i : Nat) (p : Presence) : (s.markV c i p).shadows = s.shadows := by simp [State.markV]
@[simp] theorem State.stamps_markV (c i : Nat) (p : Presence) : (s.markV c i p).stamps = s.stamps := by simp [State.markV]
@[simp] theorem State.net_markV (c i : Nat) (p : Presence) : (s.markV c i p).net = s.net := by simp [State.markV]
@[simp] theorem State.nextId_markV (c i : Nat) (p : Presence) : (s.markV c i p).nextId = s.nextId := by simp [State.markV]
@[simp] theorem State.agenda_markV (c i : Nat) (p : Presence) : (s.markV c i p).agenda = s.agenda := by simp [State.markV]
@[simp] theorem State.inbox_markV (c i : Nat) (p : Presence) : (s.markV c i p).inbox = s.inbox := by simp [State.markV]
@[simp] theorem State.outbox_markV (c i : Nat) (p : Presence) : (s.markV c i p).outbox = s.outbox := by simp [State.markV]
@[simp] theorem State.sched_markV (c i : Nat) (p : Presence) : (s.markV c i p).sched = s.sched := by simp [State.markV]
@[simp] theorem State.freeIdx_markV (c i : Nat) (p : Presence) : (s.markV c i p).freeIdx = s.freeIdx := by simp [State.markV]
@[simp] theorem State.cur_writeG (i : Nat) (v : Word) : (s.writeG i v).cur = s.cur := by unfold State.writeG; split <;> simp
@[simp] theorem State.fetched_writeG (i : Nat) (v : Word) : (s.writeG i v).fetched = s.fetched := by unfold State.writeG; split <;> simp
@[simp] theorem State.ctxs_writeG (i : Nat) (v : Word) : (s.writeG i v).ctxs = s.ctxs := by unfold State.writeG; split <;> simp
@[simp] theorem State.galleys_writeG (i : Nat) (v : Word) : (s.writeG i v).galleys = s.galleys := by unfold State.writeG; split <;> simp
@[simp] theorem State.dies_writeG (i : Nat) (v : Word) : (s.writeG i v).dies = s.dies := by unfold State.writeG; split <;> simp
@[simp] theorem State.pkgs_writeG (i : Nat) (v : Word) : (s.writeG i v).pkgs = s.pkgs := by unfold State.writeG; split <;> simp
@[simp] theorem State.mem_writeG (i : Nat) (v : Word) : (s.writeG i v).mem = s.mem := by unfold State.writeG; split <;> simp
@[simp] theorem State.poison_writeG (i : Nat) (v : Word) : (s.writeG i v).poison = s.poison := by unfold State.writeG; split <;> simp
@[simp] theorem State.queues_writeG (i : Nat) (v : Word) : (s.writeG i v).queues = s.queues := by unfold State.writeG; split <;> simp
@[simp] theorem State.levels_writeG (i : Nat) (v : Word) : (s.writeG i v).levels = s.levels := by unfold State.writeG; split <;> simp
@[simp] theorem State.formes_writeG (i : Nat) (v : Word) : (s.writeG i v).formes = s.formes := by unfold State.writeG; split <;> simp
@[simp] theorem State.programs_writeG (i : Nat) (v : Word) : (s.writeG i v).programs = s.programs := by unfold State.writeG; split <;> simp
@[simp] theorem State.resvs_writeG (i : Nat) (v : Word) : (s.writeG i v).resvs = s.resvs := by unfold State.writeG; split <;> simp
@[simp] theorem State.bwaits_writeG (i : Nat) (v : Word) : (s.writeG i v).bwaits = s.bwaits := by unfold State.writeG; split <;> simp
@[simp] theorem State.jobs_writeG (i : Nat) (v : Word) : (s.writeG i v).jobs = s.jobs := by unfold State.writeG; split <;> simp
@[simp] theorem State.shadows_writeG (i : Nat) (v : Word) : (s.writeG i v).shadows = s.shadows := by unfold State.writeG; split <;> simp
@[simp] theorem State.stamps_writeG (i : Nat) (v : Word) : (s.writeG i v).stamps = s.stamps := by unfold State.writeG; split <;> simp
@[simp] theorem State.inbox_writeG (i : Nat) (v : Word) : (s.writeG i v).inbox = s.inbox := by unfold State.writeG; split <;> simp
@[simp] theorem State.outbox_writeG (i : Nat) (v : Word) : (s.writeG i v).outbox = s.outbox := by unfold State.writeG; split <;> simp
@[simp] theorem State.sched_writeG (i : Nat) (v : Word) : (s.writeG i v).sched = s.sched := by unfold State.writeG; split <;> simp
@[simp] theorem State.freeIdx_writeG (i : Nat) (v : Word) : (s.writeG i v).freeIdx = s.freeIdx := by unfold State.writeG; split <;> simp
@[simp] theorem State.cur_raise (c : Nat) (fl : Flags) : (s.raise c fl).cur = s.cur := rfl
@[simp] theorem State.fetched_raise (c : Nat) (fl : Flags) : (s.raise c fl).fetched = s.fetched := rfl
@[simp] theorem State.cores_raise (c : Nat) (fl : Flags) : (s.raise c fl).cores = s.cores := rfl
@[simp] theorem State.galleys_raise (c : Nat) (fl : Flags) : (s.raise c fl).galleys = s.galleys := rfl
@[simp] theorem State.dies_raise (c : Nat) (fl : Flags) : (s.raise c fl).dies = s.dies := rfl
@[simp] theorem State.pkgs_raise (c : Nat) (fl : Flags) : (s.raise c fl).pkgs = s.pkgs := rfl
@[simp] theorem State.mem_raise (c : Nat) (fl : Flags) : (s.raise c fl).mem = s.mem := rfl
@[simp] theorem State.poison_raise (c : Nat) (fl : Flags) : (s.raise c fl).poison = s.poison := rfl
@[simp] theorem State.queues_raise (c : Nat) (fl : Flags) : (s.raise c fl).queues = s.queues := rfl
@[simp] theorem State.levels_raise (c : Nat) (fl : Flags) : (s.raise c fl).levels = s.levels := rfl
@[simp] theorem State.formes_raise (c : Nat) (fl : Flags) : (s.raise c fl).formes = s.formes := rfl
@[simp] theorem State.programs_raise (c : Nat) (fl : Flags) : (s.raise c fl).programs = s.programs := rfl
@[simp] theorem State.resvs_raise (c : Nat) (fl : Flags) : (s.raise c fl).resvs = s.resvs := rfl
@[simp] theorem State.bwaits_raise (c : Nat) (fl : Flags) : (s.raise c fl).bwaits = s.bwaits := rfl
@[simp] theorem State.jobs_raise (c : Nat) (fl : Flags) : (s.raise c fl).jobs = s.jobs := rfl
@[simp] theorem State.shadows_raise (c : Nat) (fl : Flags) : (s.raise c fl).shadows = s.shadows := rfl
@[simp] theorem State.stamps_raise (c : Nat) (fl : Flags) : (s.raise c fl).stamps = s.stamps := rfl
@[simp] theorem State.net_raise (c : Nat) (fl : Flags) : (s.raise c fl).net = s.net := rfl
@[simp] theorem State.nextId_raise (c : Nat) (fl : Flags) : (s.raise c fl).nextId = s.nextId := rfl
@[simp] theorem State.agenda_raise (c : Nat) (fl : Flags) : (s.raise c fl).agenda = s.agenda := rfl
@[simp] theorem State.inbox_raise (c : Nat) (fl : Flags) : (s.raise c fl).inbox = s.inbox := rfl
@[simp] theorem State.outbox_raise (c : Nat) (fl : Flags) : (s.raise c fl).outbox = s.outbox := rfl
@[simp] theorem State.sched_raise (c : Nat) (fl : Flags) : (s.raise c fl).sched = s.sched := rfl
@[simp] theorem State.freeIdx_raise (c : Nat) (fl : Flags) : (s.raise c fl).freeIdx = s.freeIdx := rfl
@[simp] theorem State.cur_waitFor (w : Wait) : (s.waitFor w).cur = s.cur := rfl
@[simp] theorem State.fetched_waitFor (w : Wait) : (s.waitFor w).fetched = s.fetched := rfl
@[simp] theorem State.cores_waitFor (w : Wait) : (s.waitFor w).cores = s.cores := rfl
@[simp] theorem State.galleys_waitFor (w : Wait) : (s.waitFor w).galleys = s.galleys := rfl
@[simp] theorem State.dies_waitFor (w : Wait) : (s.waitFor w).dies = s.dies := rfl
@[simp] theorem State.pkgs_waitFor (w : Wait) : (s.waitFor w).pkgs = s.pkgs := rfl
@[simp] theorem State.mem_waitFor (w : Wait) : (s.waitFor w).mem = s.mem := rfl
@[simp] theorem State.poison_waitFor (w : Wait) : (s.waitFor w).poison = s.poison := rfl
@[simp] theorem State.queues_waitFor (w : Wait) : (s.waitFor w).queues = s.queues := rfl
@[simp] theorem State.levels_waitFor (w : Wait) : (s.waitFor w).levels = s.levels := rfl
@[simp] theorem State.formes_waitFor (w : Wait) : (s.waitFor w).formes = s.formes := rfl
@[simp] theorem State.programs_waitFor (w : Wait) : (s.waitFor w).programs = s.programs := rfl
@[simp] theorem State.resvs_waitFor (w : Wait) : (s.waitFor w).resvs = s.resvs := rfl
@[simp] theorem State.bwaits_waitFor (w : Wait) : (s.waitFor w).bwaits = s.bwaits := rfl
@[simp] theorem State.jobs_waitFor (w : Wait) : (s.waitFor w).jobs = s.jobs := rfl
@[simp] theorem State.shadows_waitFor (w : Wait) : (s.waitFor w).shadows = s.shadows := rfl
@[simp] theorem State.stamps_waitFor (w : Wait) : (s.waitFor w).stamps = s.stamps := rfl
@[simp] theorem State.net_waitFor (w : Wait) : (s.waitFor w).net = s.net := rfl
@[simp] theorem State.nextId_waitFor (w : Wait) : (s.waitFor w).nextId = s.nextId := rfl
@[simp] theorem State.agenda_waitFor (w : Wait) : (s.waitFor w).agenda = s.agenda := rfl
@[simp] theorem State.inbox_waitFor (w : Wait) : (s.waitFor w).inbox = s.inbox := rfl
@[simp] theorem State.outbox_waitFor (w : Wait) : (s.waitFor w).outbox = s.outbox := rfl
@[simp] theorem State.sched_waitFor (w : Wait) : (s.waitFor w).sched = s.sched := rfl
@[simp] theorem State.freeIdx_waitFor (w : Wait) : (s.waitFor w).freeIdx = s.freeIdx := rfl

/-! ### Tables that stay as they are -/

@[simp] theorem State.ctx_noteUse (u : Use) (c : Nat) : (s.noteUse u).ctx c = s.ctx c := by simp [State.ctx]
@[simp] theorem State.core_noteUse (u : Use) (k : Nat) : (s.noteUse u).core k = s.core k := by simp [State.core]
theorem State.gReg_noteUse (u : Use) (c i : Nat) : (s.noteUse u).gReg c i = s.gReg c i := by simp [State.gReg]
theorem State.vReg_noteUse (u : Use) (c i : Nat) : (s.noteUse u).vReg c i = s.vReg c i := by simp [State.vReg]
@[simp] theorem State.ctx_noteIssue (c : Nat) : s.noteIssue.ctx c = s.ctx c := by simp [State.ctx]
@[simp] theorem State.core_noteIssue (k : Nat) : s.noteIssue.core k = s.core k := by simp [State.core]
@[simp] theorem State.core_raise (c : Nat) (fl : Flags) (k : Nat) : (s.raise c fl).core k = s.core k := by simp [State.core]
@[simp] theorem State.ctx_setGReg (c i : Nat) (r : GReg) (j : Nat) : (s.setGReg c i r).ctx j = s.ctx j := by simp [State.ctx]
@[simp] theorem State.ctx_setVReg (c i : Nat) (r : VReg) (j : Nat) : (s.setVReg c i r).ctx j = s.ctx j := by simp [State.ctx]
@[simp] theorem State.ctx_putG (c i : Nat) (v : Word) (j : Nat) : (s.putG c i v).ctx j = s.ctx j := by simp [State.ctx]
@[simp] theorem State.ctx_putV (c i : Nat) (v : VWord) (w : Half) (j : Nat) : (s.putV c i v w).ctx j = s.ctx j := by simp [State.ctx]
@[simp] theorem State.ctx_markG (c i : Nat) (p : Presence) (j : Nat) : (s.markG c i p).ctx j = s.ctx j := by simp [State.ctx]
@[simp] theorem State.ctx_markV (c i : Nat) (p : Presence) (j : Nat) : (s.markV c i p).ctx j = s.ctx j := by simp [State.ctx]
@[simp] theorem State.ctx_writeG (i : Nat) (v : Word) (j : Nat) : (s.writeG i v).ctx j = s.ctx j := by simp [State.ctx]
@[simp] theorem State.me_writeG (i : Nat) (v : Word) : (s.writeG i v).me = s.me := by simp [State.me, State.ctx]
@[simp] theorem State.me_markG (c i : Nat) (p : Presence) : (s.markG c i p).me = s.me := by simp [State.me, State.ctx]
@[simp] theorem State.me_markV (c i : Nat) (p : Presence) : (s.markV c i p).me = s.me := by simp [State.me, State.ctx]
@[simp] theorem State.me_putV (c i : Nat) (v : VWord) (w : Half) : (s.putV c i v w).me = s.me := by simp [State.me, State.ctx]
@[simp] theorem State.me_noteIssue : s.noteIssue.me = s.me := by simp [State.me]

/-- An update of a core that leaves its files alone leaves the registers alone. -/
theorem State.gReg_updCore (k : Nat) (f : Core → Core) (h : ∀ x, (f x).g = x.g) (c i : Nat) :
    (s.updCore k f).gReg c i = s.gReg c i := by
  simp only [State.gReg, State.core_updCore_at, State.ctx_updCore]
  split <;> [rfl; (split <;> simp_all)]

theorem State.vReg_updCore (k : Nat) (f : Core → Core) (h : ∀ x, (f x).v = x.v) (c i : Nat) :
    (s.updCore k f).vReg c i = s.vReg c i := by
  simp only [State.vReg, State.core_updCore_at, State.ctx_updCore]
  split <;> simp_all

/-- An update of a context that leaves its windows alone leaves the registers alone. -/
theorem State.gReg_updCtx (k : Nat) (f : Ctx → Ctx) (h : ∀ x, (f x).win = x.win) (c i : Nat) :
    (s.updCtx k f).gReg c i = s.gReg c i := by
  simp only [State.gReg, State.ctx_updCtx_at, State.core_updCtx]
  split <;> [rfl; (split <;> simp_all)]

theorem State.vReg_updCtx (k : Nat) (f : Ctx → Ctx) (h : ∀ x, (f x).win = x.win) (c i : Nat) :
    (s.updCtx k f).vReg c i = s.vReg c i := by
  simp only [State.vReg, State.ctx_updCtx_at, State.core_updCtx]
  split <;> simp_all

/-- A general register after a write of another or the same. -/
theorem State.gReg_setGReg (c i : Nat) (r : GReg) (d j : Nat) :
    (s.setGReg c i r).gReg d j =
      if i ≠ 0 ∧ j ≠ 0 ∧ coreOf d = coreOf c ∧ (s.ctx d).win.gb + j = (s.ctx c).win.gb + i then r else s.gReg d j := by
  unfold State.setGReg
  by_cases hi : i = 0
  · simp [hi]
  · by_cases hj : j = 0
    · simp [State.gReg, hi, hj]
    · simp only [hi, if_false, State.gReg, hj, State.core_updCore_at, State.ctx_updCore]
      by_cases hc : coreOf c = coreOf d
      · simp [hc, hi, hj, Map.get_set, eq_comm]
      · simp [hc, Ne.symm hc]

theorem State.vReg_setVReg (c i : Nat) (r : VReg) (d j : Nat) :
    (s.setVReg c i r).vReg d j =
      if coreOf d = coreOf c ∧ (s.ctx d).win.vb + j = (s.ctx c).win.vb + i then r else s.vReg d j := by
  simp only [State.setVReg, State.vReg, State.core_updCore_at, State.ctx_updCore]
  by_cases hc : coreOf c = coreOf d
  · simp [hc, Map.get_set, eq_comm]
  · simp [hc, Ne.symm hc]

@[simp] theorem State.vReg_setGReg (c i : Nat) (r : GReg) (d j : Nat) : (s.setGReg c i r).vReg d j = s.vReg d j := by
  unfold State.setGReg
  split
  · rfl
  · exact State.vReg_updCore s _ (fun k => { k with g := Map.set k.g _ r }) (fun _ => rfl) d j

@[simp] theorem State.gReg_setVReg (c i : Nat) (r : VReg) (d j : Nat) : (s.setVReg c i r).gReg d j = s.gReg d j :=
  State.gReg_updCore s _ (fun k => { k with v := Map.set k.v _ r }) (fun _ => rfl) d j

end Sys2Proof.Machine
end

