-- ==== Sys2Proof/Laws/Issue.lean ====
section
/-! SUPPORT. What the shared operations of issue do: the checks passed, the slot used, a result written (spec/01_machine.md R14 to
R20; spec/07_encoding.md R164, R166). -/

namespace Sys2Proof.Machine

theorem find?_none_of_all {α : Type} {p : α → Bool} : {l : List α} → (∀ x ∈ l, p x = false) → l.find? p = none
  | [], _ => rfl
  | a :: r, h => by
    rw [List.find?_cons_of_neg (by simp [h a])]
    exact find?_none_of_all (fun x hx => h x (by simp [hx]))

theorem firstBlock_none {f : Nat → Nat → Option State} {x : Ctx} :
    {l : List Nat} → (∀ i ∈ l, ∀ h, x.mapped i = some h → f i h = none) → firstBlock f x l = none
  | [], _ => rfl
  | i :: r, hl => by
    have hr : firstBlock f x r = none := firstBlock_none (fun j hj => hl j (by simp [hj]))
    unfold firstBlock
    split
    · exact hr
    · rename_i h hm
      rw [hl i (by simp) h hm]; exact hr

/-- What a readable source satisfies. -/
theorem State.srcOk_iff {s : State} {i : Nat} (h : s.srcOk i = true) :
    i < s.me.sg ∧ s.gReady s.cur i = true ∧ ((s.me.mapped i).isNone = true → (s.gReg s.cur i).poison = false) ∧
      ∀ h', s.me.mapped i = some h' → s.mappedSource i h' = none := by
  simp only [State.srcOk, Bool.and_eq_true, decide_eq_true_eq] at h
  obtain ⟨h1, h2⟩ := h
  cases hm : s.me.mapped i with
  | none =>
    simp [hm] at h2
    refine ⟨h1, ?_, fun _ => h2.2, by simp⟩
    simp [State.gReady, h2.1]
  | some q =>
    simp [hm] at h2
    refine ⟨h1, ?_, by simp, ?_⟩
    · have : (s.ctx s.cur).mapped i = some q := hm
      simp [State.gReady, this]
    · intro h' e
      cases e
      simp [State.mappedSource, h2]

/-- What a free destination satisfies. -/
theorem State.dstOk_iff {s : State} {i : Nat} (h : s.dstOk i = true) :
    i < s.me.sg ∧ ((s.me.mapped i).isNone && (s.gReg s.cur i).st == .pending) = false ∧
      ∀ h', s.me.mapped i = some h' → s.mappedDest h' = none := by
  simp only [State.dstOk, Bool.and_eq_true, decide_eq_true_eq] at h
  obtain ⟨h1, h2⟩ := h
  cases hm : s.me.mapped i with
  | none =>
    simp [hm] at h2
    exact ⟨h1, by simp [h2], by simp⟩
  | some q =>
    simp [hm] at h2
    refine ⟨h1, by simp, ?_⟩
    intro h' e
    cases e
    simp [State.mappedDest, h2]

/-- The checks of issue pass: the instruction runs. Every field named is a source or a destination of its class. -/
theorem State.issue_eq {s : State} {u : Use} (body : State → State)
    (hl : ∀ f ∈ u.lim, s.me.outside f.1 f.2.1 = false)
    (hs : ∀ i ∈ u.gsrc, s.srcOk i = true) (hd : ∀ i ∈ u.gdst, s.dstOk i = true)
    (vs : ∀ i ∈ u.vsrc, s.vsrcOk i = true) (vd : ∀ i ∈ u.vdst, s.vdstOk i = true) :
    s.issue u body = body s := by
  have e1 := find?_none_of_all hl
  have e2 : u.gsrc.find? (fun i => !s.gReady s.cur i) = none :=
    find?_none_of_all (fun i hi => by simp [(State.srcOk_iff (hs i hi)).2.1])
  have e3 : u.vsrc.find? (fun i => !s.vReady s.cur i) = none := find?_none_of_all (fun i hi => by
    have := vs i hi
    simp [State.vsrcOk] at this
    simp [State.vReady, this])
  have e4 : u.gdst.find? (fun i => (s.me.mapped i).isNone && (s.gReg s.cur i).st == .pending) = none :=
    find?_none_of_all (fun i hi => (State.dstOk_iff (hd i hi)).2.1)
  have e5 : u.vdst.find? (fun i => (s.vReg s.cur i).st == .pending) = none := find?_none_of_all (fun i hi => by
    have := vd i hi
    simp [State.vdstOk] at this
    simp [this])
  have e6 : u.gsrc.find? (fun i => (s.me.mapped i).isNone && (s.gReg s.cur i).poison) = none :=
    find?_none_of_all (fun i hi => by
      have := (State.srcOk_iff (hs i hi)).2.2.1
      cases h : (s.me.mapped i).isNone <;> simp_all)
  have e7 : u.vsrc.find? (fun i => (s.vReg s.cur i).poison &&& u.reads i != 0#16) = none := find?_none_of_all (fun i hi => by
    have := vs i hi
    simp [State.vsrcOk] at this
    simp [this])
  have e8 := firstBlock_none (f := fun i h => s.mappedSource i h) (fun i hi h e => (State.srcOk_iff (hs i hi)).2.2.2 h e)
  have e9 := firstBlock_none (f := fun _ h => s.mappedDest h) (fun i hi h e => (State.dstOk_iff (hd i hi)).2.2 h e)
  simp only [State.issue, e1, e2, e3, e4, e5, e6, e7, e8, e9]

/-- The checks of issue for an instruction of general registers alone. -/
theorem State.issue_g {s : State} {u : Use} (body : State → State) (h : s.canIssue u.gsrc u.gdst = true)
    (hl : ∀ f ∈ u.lim, f.1 = .g ∧ (f.2.1 ∈ u.gsrc ∨ f.2.1 ∈ u.gdst)) (hv : u.vsrc = []) (hw : u.vdst = []) :
    s.issue u body = body s := by
  simp only [State.canIssue, Bool.and_eq_true, List.all_eq_true] at h
  refine State.issue_eq body ?_ h.1 h.2 (by simp [hv]) (by simp [hw])
  intro f hf
  obtain ⟨h1, h2⟩ := hl f hf
  simp only [Ctx.outside, h1, decide_eq_false_iff_not, Nat.not_le]
  rcases h2 with h2 | h2
  · exact (State.srcOk_iff (h.1 _ h2)).1
  · exact (State.dstOk_iff (h.2 _ h2)).1

/-! ### Frames that compose -/

theorem Core.kept_refl (a : Core) : Core.kept a a := by simp [Core.kept]

theorem Core.kept_trans {a b c : Core} (h : Core.kept a b) (h' : Core.kept b c) : Core.kept a c := by
  simp only [Core.kept] at *
  simp_all

theorem Kept.trans {s t u : State} (h : Kept s t) (h' : Kept t u) : Kept s u where
  cur := h'.cur.trans h.cur
  fetched := h'.fetched.trans h.fetched
  byte k := (h'.byte k).trans (h.byte k)
  poison := h'.poison.trans h.poison
  queues := h'.queues.trans h.queues
  levels := h'.levels.trans h.levels
  formes := h'.formes.trans h.formes
  programs := h'.programs.trans h.programs
  resvs := h'.resvs.trans h.resvs
  bwaits := h'.bwaits.trans h.bwaits
  jobs := h'.jobs.trans h.jobs
  shadows := h'.shadows.trans h.shadows
  stamps := h'.stamps.trans h.stamps
  galleys := h'.galleys.trans h.galleys
  inbox := h'.inbox.trans h.inbox
  outbox := h'.outbox.trans h.outbox
  freeIdx := h'.freeIdx.trans h.freeIdx
  others c hc := by
    rw [h'.others c (by rw [h.cur]; exact hc), h.others c hc]
  cores k := Core.kept_trans (h.cores k) (h'.cores k)
  pkgs p := by
    have h1 := h.pkgs p
    have h2 := h'.pkgs p
    rw [← h1, ← h2]

theorem SameDies.trans {s t u : State} (h : SameDies s t) (h' : SameDies t u) : SameDies s u := by
  intro d
  have h1 := h d
  have h2 := h' d
  rw [← h1, ← h2]

theorem SameDies.of_eq {s t : State} (h : t.dies = s.dies) : SameDies s t := by
  intro d; simp [State.die, h]

/-- A state that differs only in its register files, network and agenda keeps the rest. -/
theorem Kept.of_fields {s t : State} (cur : t.cur = s.cur) (fetched : t.fetched = s.fetched) (ctxs : t.ctxs = s.ctxs)
    (galleys : t.galleys = s.galleys) (pkgs : t.pkgs = s.pkgs) (mem : t.mem = s.mem) (poison : t.poison = s.poison)
    (queues : t.queues = s.queues) (levels : t.levels = s.levels) (formes : t.formes = s.formes)
    (programs : t.programs = s.programs) (resvs : t.resvs = s.resvs) (bwaits : t.bwaits = s.bwaits) (jobs : t.jobs = s.jobs)
    (shadows : t.shadows = s.shadows) (stamps : t.stamps = s.stamps) (inbox : t.inbox = s.inbox)
    (outbox : t.outbox = s.outbox) (freeIdx : t.freeIdx = s.freeIdx) (cores : ∀ k, Core.kept (s.core k) (t.core k)) :
    Kept s t where
  cur := cur
  fetched := fetched
  byte k := by simp [State.byte, mem]
  poison := poison
  queues := queues
  levels := levels
  formes := formes
  programs := programs
  resvs := resvs
  bwaits := bwaits
  jobs := jobs
  shadows := shadows
  stamps := stamps
  galleys := galleys
  inbox := inbox
  outbox := outbox
  freeIdx := freeIdx
  others c _ := by simp [State.ctx, ctxs]
  cores := cores
  pkgs p := by simp [State.pkg, pkgs]

theorem Core.kept_of {s : State} (k : Nat) (f : Core → Core) (h : ∀ a, Core.kept a (f a)) (j : Nat) :
    Core.kept (s.core j) ((s.updCore k f).core j) := by
  rw [State.core_updCore_at]
  split
  · rename_i e; subst e; exact h _
  · exact Core.kept_refl _

/-! ### The slot used -/

theorem State.sameDies_noteIssue (s : State) : SameDies s s.noteIssue := by
  intro d
  simp only [State.noteIssue, State.count, State.die_updPkg, State.traceEntry]
  split
  · rfl
  · split
    · simp only [State.setTrace, State.die_updDie_at]
      split
      · rename_i e; subst e; rfl
      · rfl
    · rfl

/-- No package changes but for its programs' energy counts (R409). -/
def SamePkgs (s t : State) : Prop := ∀ p, { t.pkg p with charges := (s.pkg p).charges } = s.pkg p

theorem SamePkgs.of_eq {s t : State} (h : t.pkgs = s.pkgs) : SamePkgs s t := by intro p; simp [State.pkg, h]

theorem SamePkgs.trans {s t u : State} (h : SamePkgs s t) (h' : SamePkgs t u) : SamePkgs s u := by
  intro p
  have h1 := h p
  have h2 := h' p
  rw [← h1, ← h2]

theorem State.samePkgs_count (s : State) (q : Nat) (g : BitVec 32) (a n : Nat) : SamePkgs s (s.count q g a n) := by
  intro p
  simp only [State.count, State.pkg_updPkg_at]
  split
  · rename_i h; subst h; rfl
  · rfl

theorem State.samePkgs_noteIssue (s : State) : SamePkgs s s.noteIssue :=
  SamePkgs.trans (SamePkgs.of_eq (by simp)) (State.samePkgs_count _ _ _ _ _)

theorem State.samePkgs_noteUse (s : State) (u : Use) : SamePkgs s (s.noteUse u) :=
  (State.samePkgs_count _ _ _ _ _).trans (State.samePkgs_count _ _ _ _ _)

theorem State.samePkgs_finishAt (s : State) (u : Use) (npc : Word) : SamePkgs s (s.finishAt u npc) :=
  (State.samePkgs_noteIssue s).trans (SamePkgs.trans (SamePkgs.of_eq (by simp [State.useSlot]))
    (SamePkgs.trans (State.samePkgs_noteUse s.useSlot u) (SamePkgs.of_eq (by simp [State.finishAt]))))

/-- An instruction that has issued and goes on at npc: what changes. -/
theorem State.finishAt_spec (s : State) (u : Use) (npc : Word) :
    Issued s (s.finishAt u npc) npc u.gsrc ∧ SameG s (s.finishAt u npc) ∧ SameV s (s.finishAt u npc) ∧
      SameDies s (s.finishAt u npc) ∧ Quiet s (s.finishAt u npc) := by
  refine ⟨⟨?_, ?_⟩, ?_, ?_, ?_, by simp [Quiet]⟩
  · constructor <;> try simp [State.byte]
    · intro c hc
      simp only [State.finishAt, State.cur_noteUse, State.cur_useSlot, State.ctx_updCtx_at, Ne.symm hc, if_false, State.ctx_noteUse]
      simp [State.useSlot, State.ctx_updCtx_at, Ne.symm hc]
    · intro k
      simp only [State.finishAt, State.useSlot, State.core_updCtx, State.core_noteUse]
      refine Core.kept_trans ?_ (Core.kept_of _ _ (fun a => ?_) _)
      · simp [Core.kept_refl]
      · simp [Core.kept]
    · exact State.samePkgs_finishAt s u npc
  · simp only [State.finishAt, State.cur_noteUse, State.cur_useSlot, State.me, State.ctx_updCtx_at, State.ctx_noteUse]
    simp [State.useSlot, Ctx.after, State.cycleNow]
  · intro c i
    refine (State.gReg_updCtx _ _ _ (by intro x; rfl) c i).trans ?_
    refine (State.gReg_noteUse _ u c i).trans ?_
    refine (State.gReg_updCore _ _ _ (by intro x; rfl) c i).trans ?_
    refine (State.gReg_updCtx _ _ _ (by intro x; rfl) c i).trans ?_
    simp [State.gReg]
  · intro c i
    refine (State.vReg_updCtx _ _ _ (by intro x; rfl) c i).trans ?_
    refine (State.vReg_noteUse _ u c i).trans ?_
    refine (State.vReg_updCore _ _ _ (by intro x; rfl) c i).trans ?_
    refine (State.vReg_updCtx _ _ _ (by intro x; rfl) c i).trans ?_
    simp [State.vReg]
  · refine SameDies.trans (State.sameDies_noteIssue s) (SameDies.of_eq ?_)
    simp [State.finishAt, State.useSlot]

/-- What a short result's write does. -/
theorem State.writeG_spec (s : State) (d : Nat) (v : Word) :
    Kept s (s.writeG d v) ∧ ResultG s (s.writeG d v) d v ∧ SameV s (s.writeG d v) ∧ SameDies s (s.writeG d v) ∧
      (s.writeG d v).cycleNow = s.cycleNow := by
  unfold State.writeG ResultG
  cases hm : s.me.mapped d with
  | none =>
    refine ⟨?_, ⟨?_, by simp [Quiet]⟩, ?_, SameDies.of_eq (by simp), ?_⟩
    · apply Kept.of_fields <;> try simp
      intro k
      simp only [State.putG, State.setGReg]
      split
      · exact Core.kept_refl _
      · exact Core.kept_of _ _ (fun a => by simp [Core.kept]) _
    · intro c i
      simp only [State.putG, State.gReg_setGReg, State.namesG, Bool.and_eq_true, bne_iff_ne, beq_iff_eq, State.me, and_assoc]
    · intro c i; simp [State.putG]
    · simp only [State.cycleNow, State.putG, State.setGReg]
      split
      · rfl
      · simp
  | some h =>
    refine ⟨?_, ⟨?_, ?_⟩, ?_, SameDies.of_eq (by simp), by simp [State.cycleNow]⟩
    · apply Kept.of_fields <;> try simp
      intro k; exact Core.kept_refl _
    · intro c i; rfl
    · exact ⟨_, rfl, rfl, rfl, rfl, rfl, rfl⟩
    · intro c i; rfl

/-- A write of a short result, then the slot used: an instruction of general registers alone. -/
theorem State.alu_spec (s : State) (u : Use) (d : Nat) (v npc : Word) :
    Alu s ((s.writeG d v).finishAt u npc) d v npc u.gsrc := by
  obtain ⟨k1, r1, v1, d1, c1⟩ := s.writeG_spec d v
  obtain ⟨⟨k2, m2⟩, g2, v2, d2, n2⟩ := (s.writeG d v).finishAt_spec u npc
  refine ⟨⟨k1.trans k2, ?_⟩, ?_, fun c i => (v2 c i).trans (v1 c i), d1.trans d2⟩
  · rw [m2, c1]; simp
  · revert r1
    unfold ResultG
    cases s.me.mapped d with
    | none =>
      rintro ⟨h1, h2⟩
      refine ⟨fun c i => (g2 c i).trans (h1 c i), ?_⟩
      exact ⟨n2.1.trans h2.1, n2.2.1.trans h2.2.1, n2.2.2.trans h2.2.2⟩
    | some h =>
      rintro ⟨h1, m, hm, h2, h3, h4, h5, h6⟩
      exact ⟨fun c i => (g2 c i).trans (h1 c i), m, hm, h2, h3, n2.1.trans h4, n2.2.1.trans h5, n2.2.2.trans h6⟩

/-- An instruction of 8 cycles or less that can issue: where it goes and what it writes. -/
theorem State.alu_runs {s : State} {u : Use} (d : Nat) (f : State → Word) (h : s.canIssue u.gsrc u.gdst = true)
    (hl : ∀ f ∈ u.lim, f.1 = .g ∧ (f.2.1 ∈ u.gsrc ∨ f.2.1 ∈ u.gdst)) (hv : u.vsrc = []) (hw : u.vdst = []) :
    Alu s (s.alu u d f) d (f s) (s.pcNext u.len) u.gsrc := by
  have e : s.alu u d f = (s.writeG d (f s)).finishAt u (s.pcNext u.len) := by
    unfold State.alu
    rw [State.issue_g _ h hl hv hw]
    simp [State.finish, State.pcNext]
  rw [e]; exact s.alu_spec u d (f s) _

/-! ### What comes before the slot is used -/

/-- A state that differs only in registers and what is under way, before the slot is used. -/
structure BeforeAs (s t : State) (x : Ctx) : Prop where
  kept  : Kept s t
  me    : t.me = x
  cycle : t.cycleNow = s.cycleNow

/-- The same, with the current context as it was. -/
abbrev Before (s t : State) : Prop := BeforeAs s t s.me

theorem BeforeAs.trans {s t u : State} {x : Ctx} (h : BeforeAs s t x) (h' : Before t u) : BeforeAs s u x :=
  ⟨h.kept.trans h'.kept, h'.me.trans h.me, h'.cycle.trans h.cycle⟩

theorem Before.transAs {s t u : State} {x : Ctx} (h : Before s t) (h' : BeforeAs t u x) : BeforeAs s u x :=
  ⟨h.kept.trans h'.kept, h'.me, h'.cycle.trans h.cycle⟩

/-- A change of the current context's own registers. -/
theorem BeforeAs.updCtx (s : State) (f : Ctx → Ctx) : BeforeAs s (s.updCtx s.cur f) (f s.me) := by
  refine ⟨?_, by simp, by simp [State.cycleNow]⟩
  constructor <;> try simp
  · intro c hc; simp [State.ctx_updCtx_at, Ne.symm hc]
  · intro k; exact Core.kept_refl _

theorem Before.refl (s : State) : Before s s :=
  ⟨by apply Kept.of_fields <;> first | rfl | exact fun _ => Core.kept_refl _, rfl, rfl⟩

/-- The slot used after such a change. -/
theorem BeforeAs.finishAt {s t : State} {x : Ctx} (h : BeforeAs s t x) (u : Use) (npc : Word) :
    IssuedAs s (t.finishAt u npc) x npc u.gsrc ∧ SameG t (t.finishAt u npc) ∧ SameV t (t.finishAt u npc) ∧
      SameDies t (t.finishAt u npc) ∧ Quiet t (t.finishAt u npc) := by
  obtain ⟨⟨k, m⟩, g, v, d, n⟩ := t.finishAt_spec u npc
  refine ⟨⟨h.kept.trans k, ?_⟩, g, v, d, n⟩
  rw [m, h.cycle, h.me]

theorem Before.writeG (s : State) (d : Nat) (v : Word) : Before s (s.writeG d v) :=
  ⟨(s.writeG_spec d v).1, by simp, (s.writeG_spec d v).2.2.2.2⟩

theorem Before.setGReg (s : State) (c i : Nat) (r : GReg) : Before s (s.setGReg c i r) := by
  refine ⟨?_, by simp [State.me], ?_⟩
  · apply Kept.of_fields <;> try simp
    intro k
    simp only [State.setGReg]
    split
    · exact Core.kept_refl _
    · exact Core.kept_of _ _ (fun a => by simp [Core.kept]) _
  · simp only [State.cycleNow, State.setGReg]
    split
    · rfl
    · simp only [State.core_updCore_at]; split <;> simp_all

theorem Before.setVReg (s : State) (c i : Nat) (r : VReg) : Before s (s.setVReg c i r) := by
  refine ⟨?_, by simp [State.me], ?_⟩
  · apply Kept.of_fields <;> try simp
    intro k
    exact Core.kept_of _ _ (fun a => by simp [Core.kept]) _
  · simp only [State.cycleNow, State.setVReg, State.core_updCore_at]; split <;> simp_all

theorem Before.send (s : State) (m : Msg) (ev : Nat → Instr) : Before s (s.send m ev) := by
  refine ⟨?_, rfl, rfl⟩
  apply Kept.of_fields <;> first | rfl | exact fun _ => Core.kept_refl _

/-- The vector unit held for a second cycle (R191). -/
theorem Before.holdUnit (s : State) (on : Bool) : Before s (s.holdUnit on) := by
  unfold State.holdUnit
  split
  · refine ⟨?_, by simp, ?_⟩
    · apply Kept.of_fields <;> try simp
      intro k
      exact Core.kept_of _ _ (fun a => by simp [Core.kept]) _
    · simp [State.cycleNow]
  · exact Before.refl s

/-! ### Presence producers -/

@[simp] theorem RC.beq_dg : (RC.d == RC.g) = false := rfl
@[simp] theorem RC.beq_dv : (RC.d == RC.v) = false := rfl
@[simp] theorem RC.beq_gv : (RC.g == RC.v) = false := rfl
@[simp] theorem RC.beq_vg : (RC.v == RC.g) = false := rfl
@[simp] theorem RC.beq_gg : (RC.g == RC.g) = true := rfl
@[simp] theorem RC.beq_vv : (RC.v == RC.v) = true := rfl

theorem State.gReg_of_names {s : State} {d c i : Nat} (h : s.namesG d c i = true) : s.gReg s.cur d = s.gReg c i := by
  simp only [State.namesG, Bool.and_eq_true, bne_iff_ne, beq_iff_eq, State.me] at h
  obtain ⟨⟨⟨h1, h2⟩, h3⟩, h4⟩ := h
  simp [State.gReg, h1, h2, h3, h4]

theorem State.vReg_of_names {s : State} {d c i : Nat} (h : s.namesV d c i = true) : s.vReg s.cur d = s.vReg c i := by
  simp only [State.namesV, Bool.and_eq_true, beq_iff_eq, State.me] at h
  simp [State.vReg, h.1, h.2]

/-- A general register marked: its presence alone changes. -/
theorem State.gReg_markG (s : State) (d : Nat) (p : Presence) (c i : Nat) :
    (s.markG s.cur d p).gReg c i = if s.namesG d c i then { s.gReg c i with st := p } else s.gReg c i := by
  have e : (d ≠ 0 ∧ i ≠ 0 ∧ coreOf c = coreOf s.cur ∧ (s.ctx c).win.gb + i = (s.ctx s.cur).win.gb + d) ↔ s.namesG d c i = true := by
    simp [State.namesG, State.me, and_assoc]
  simp only [State.markG, State.gReg_setGReg, e]
  split
  · rename_i h; rw [State.gReg_of_names h]
  · rfl

theorem State.vReg_markV (s : State) (d : Nat) (p : Presence) (c i : Nat) :
    (s.markV s.cur d p).vReg c i = if s.namesV d c i then { s.vReg c i with st := p } else s.vReg c i := by
  have e : (coreOf c = coreOf s.cur ∧ (s.ctx c).win.vb + i = (s.ctx s.cur).win.vb + d) ↔ s.namesV d c i = true := by
    simp [State.namesV, State.me]
  simp only [State.markV, State.vReg_setVReg, e]
  split
  · rename_i h; rw [State.vReg_of_names h]
  · rfl

@[simp] theorem State.vReg_markG (s : State) (c d : Nat) (p : Presence) (e i : Nat) : (s.markG c d p).vReg e i = s.vReg e i := by
  simp [State.markG]

@[simp] theorem State.gReg_markV (s : State) (c d : Nat) (p : Presence) (e i : Nat) : (s.markV c d p).gReg e i = s.gReg e i := by
  simp [State.markV]

/-- The destinations of a presence producer made pending. -/
def State.pendAll (s : State) (rs : List (RC × Nat × Nat)) : State :=
  rs.foldl (fun s r => match r.1 with
    | .g => if (s.me.mapped r.2.1).isSome then s else s.markG s.cur r.2.1 .pending
    | .v => s.markV s.cur r.2.1 .pending
    | .d => s) s

theorem State.pendAll_spec (rs : List (RC × Nat × Nat)) : ∀ s : State,
    Before s (s.pendAll rs) ∧ Quiet s (s.pendAll rs) ∧ (s.pendAll rs).dies = s.dies ∧
    (∀ c i, (s.pendAll rs).gReg c i =
      if rs.any (fun r => r.1 == .g && (s.me.mapped r.2.1).isNone && s.namesG r.2.1 c i) then { s.gReg c i with st := .pending }
      else s.gReg c i) ∧
    (∀ c i, (s.pendAll rs).vReg c i =
      if rs.any (fun r => r.1 == .v && s.namesV r.2.1 c i) then { s.vReg c i with st := .pending } else s.vReg c i) := by
  induction rs with
  | nil => intro s; exact ⟨Before.refl s, ⟨rfl, rfl, rfl⟩, rfl, fun c i => by simp [State.pendAll], fun c i => by simp [State.pendAll]⟩
  | cons r rs ih =>
    intro s
    obtain ⟨k, d, v⟩ := r
    cases k with
    | d =>
      obtain ⟨a, b, e, f, g⟩ := ih s
      exact ⟨a, b, e, f, g⟩
    | g =>
      by_cases hm : (s.me.mapped d).isSome
      · have e0 : s.pendAll ((.g, d, v) :: rs) = s.pendAll rs := by simp [State.pendAll, hm]
        obtain ⟨a, b, e, f, g⟩ := ih s
        rw [e0]
        refine ⟨a, b, e, fun c i => ?_, g⟩
        rw [f c i, List.any_cons]
        have h0 : (RC.g == RC.g && (s.me.mapped d).isNone && s.namesG d c i) = false := by
          cases h : s.me.mapped d <;> simp_all
        rw [h0, Bool.false_or]
      · have e0 : s.pendAll ((.g, d, v) :: rs) = (s.markG s.cur d .pending).pendAll rs := by simp [State.pendAll, hm]
        have hb : Before s (s.markG s.cur d .pending) := Before.setGReg s _ _ _
        obtain ⟨a, b, e, f, g⟩ := ih (s.markG s.cur d .pending)
        rw [e0]
        refine ⟨hb.trans a, ?_, by rw [e]; simp, fun c i => ?_, fun c i => ?_⟩
        · simpa [Quiet] using b
        · have hm' : s.me.mapped d = none := by simpa using hm
          have en : ∀ j, (s.markG s.cur d .pending).namesG j c i = s.namesG j c i := by intro j; simp [State.namesG]
          rw [f c i, List.any_cons]
          simp only [State.me_markG, en, State.gReg_markG]
          cases h1 : s.namesG d c i
          · have h0 : (RC.g == RC.g && (s.me.mapped d).isNone && false) = false := by simp
            rw [h0, Bool.false_or]; rfl
          · have h0 : (RC.g == RC.g && (s.me.mapped d).isNone && true) = true := by simp [hm']
            rw [h0, Bool.true_or]
            split <;> rfl
        · rw [g c i, List.any_cons]
          have h0 : (RC.g == RC.v && s.namesV d c i) = false := by simp
          rw [h0, Bool.false_or]
          simp only [State.namesV, State.ctx_markG, State.me_markG, State.cur_markG, State.vReg_markG]
          rfl
    | v =>
      have e0 : s.pendAll ((.v, d, v) :: rs) = (s.markV s.cur d .pending).pendAll rs := by simp [State.pendAll]
      have hb : Before s (s.markV s.cur d .pending) := Before.setVReg s _ _ _
      obtain ⟨a, b, e, f, g⟩ := ih (s.markV s.cur d .pending)
      rw [e0]
      refine ⟨hb.trans a, ?_, by rw [e]; simp, fun c i => ?_, fun c i => ?_⟩
      · simpa [Quiet] using b
      · rw [f c i, List.any_cons]
        have h0 : (RC.v == RC.g && (s.me.mapped d).isNone && s.namesG d c i) = false := by simp
        rw [h0, Bool.false_or]
        simp only [State.namesG, State.ctx_markV, State.me_markV, State.cur_markV, State.gReg_markV]
        rfl
      · have en : ∀ j, (s.markV s.cur d .pending).namesV j c i = s.namesV j c i := by intro j; simp [State.namesV]
        rw [g c i, List.any_cons]
        simp only [en, State.vReg_markV]
        cases h1 : s.namesV d c i
        · have h0 : (RC.v == RC.v && false) = false := by simp
          rw [h0, Bool.false_or]; rfl
        · have h0 : (RC.v == RC.v && true) = true := by simp
          rw [h0, Bool.true_or]
          split <;> rfl

/-- A result of a unit of more than 8 cycles at its issue: what is pending, and the message that will bring it. -/
theorem State.longResult_spec (s : State) (u : Use) (rs : List (RC × Nat × Nat)) (fl : Flags) (lanes : Half) (w : BitVec 32) :
    Long s (s.longResult u rs fl lanes w) rs fl lanes (s.pcNext u.len) u.gsrc w := by
  obtain ⟨a, b, e, f, g⟩ := State.pendAll_spec rs s
  let m : Msg := { (s.pendAll rs).msg .result with
    dest := .vals rs
    lanes := w
    flags := (if enabledFlags s.me.ctl.fpctl fl != 0#5 then 0#5 else fl)
    trap := (if enabledFlags s.me.ctl.fpctl fl != 0#5 then some
      { imp := true, cause := causeFPX, pc := s.me.pc, addr := 0#64,
        info := BitVec.ofNat 64 ((enabledFlags s.me.ctl.fpctl fl).toNat + lanes.toNat * 32) } else none) }
  obtain ⟨i, g', v', d', q'⟩ := (a.trans (Before.send (s.pendAll rs) m .longLatencyResultLands)).finishAt u (s.pcNext u.len)
  have hp : ((s.pendAll rs).send m .longLatencyResultLands).finishAt u (s.pcNext u.len) = s.longResult u rs fl lanes w := by
    simp only [State.longResult, State.finish, State.me_send]
    have : (s.pendAll rs).me.pc + BitVec.ofNat 64 u.len = s.pcNext u.len := by rw [a.me]; rfl
    rw [← this]
    rfl
  rw [hp] at i g' v' d' q'
  refine ⟨i, fun c j => ?_, fun c j => ?_, SameDies.trans (SameDies.of_eq (by simp [e])) d',
    { m with id := (s.pendAll rs).nextId }, ?_, ?_, ?_, ?_, ?_, ?_⟩
  · rw [g' c j]; exact f c j
  · rw [v' c j]; exact g c j
  · refine ⟨rfl, rfl, rfl, ?_⟩
    simp only [m]
    by_cases h : enabledFlags s.me.ctl.fpctl fl = 0#5 <;> simp [h, fpxInfo]
  · exact b.2.2
  · exact a.kept.cur
  · rw [q'.1, State.net_send, b.1]
  · rw [q'.2.1, State.agenda_send, b.2.1, b.2.2]
  · rw [q'.2.2, State.nextId_send, b.2.2]

end Sys2Proof.Machine
end

