-- ==== Sys2Proof/Laws/Memory.lean ====
section
/-! SUPPORT. Every operation on memory keeps its canonical form, and what a read gives after the writes of bytes. -/

namespace Sys2Proof.Machine

/-! ## Canonical form -/

theorem Memory.wf_writes {m : Memory} (a : Nat) (bs : List Byte) (h : Memory.wf m = true) : Memory.wf (Memory.writes m a bs) = true := by
  induction bs generalizing m a with
  | nil => exact h
  | cons b r ih => exact ih (a + 1) (Memory.wf_write a b h)

theorem Memory.wfFrom_filter {n : Nat} {m : Memory} (f : Nat × Byte → Bool) (h : Memory.wfFrom n m = true) :
    Memory.wfFrom n (m.filter f) = true := by
  induction m generalizing n with
  | nil => rfl
  | cons p r ih =>
    obtain ⟨j, c⟩ := p
    simp only [Memory.wfFrom, Bool.and_eq_true, decide_eq_true_eq] at h
    by_cases hf : f (j, c) = true
    · simp [hf, Memory.wfFrom, h.1, ih h.2]
    · rw [List.filter_cons_of_neg hf]
      exact Memory.wfFrom_mono (ih h.2) (by omega)

theorem Memory.wf_filter {m : Memory} (f : Nat × Byte → Bool) (h : Memory.wf m = true) : Memory.wf (m.filter f) = true :=
  Memory.wfFrom_filter f h

theorem Memory.wf_writeAll {m : Memory} (l : Memory) (h : Memory.wf m = true) : Memory.wf (Memory.writeAll m l) = true := by
  induction l generalizing m with
  | nil => exact h
  | cons p r ih => exact ih (Memory.wf_write p.1 p.2 h)

theorem wf_copyCells {m : Memory} (k j n : Nat) (h : Memory.wf m = true) : Memory.wf (copyCells m k j n) = true :=
  Memory.wf_writeAll _ (Memory.wf_filter _ h)

theorem Memory.wf_foldl {α : Type} {m : Memory} (f : Memory → α → Memory) (l : List α) (hf : ∀ m x, Memory.wf m = true → Memory.wf (f m x) = true)
    (h : Memory.wf m = true) : Memory.wf (l.foldl f m) = true := by
  induction l generalizing m with
  | nil => exact h
  | cons x r ih => exact ih (hf m x h)

theorem State.memWf_setBytes {s : State} (k : Nat) (bs : List Byte) (h : s.memWf) : (s.setBytes k bs).memWf := Memory.wf_writes k bs h

theorem State.memWf_foldl {α : Type} {s : State} (f : State → α → State) (l : List α) (hf : ∀ s x, s.memWf → (f s x).memWf) (h : s.memWf) :
    (l.foldl f s).memWf := by
  induction l generalizing s with
  | nil => exact h
  | cons x r ih => exact ih (hf s x h)

theorem State.memWf_loadWord {s : State} (bs : List Byte) (h : s.memWf) : (s.loadWord bs).memWf := Memory.wf_writes _ bs h

/-! ## Reads after writes -/

theorem Memory.read_writes_other {m : Memory} {a x : Nat} (bs : List Byte) (h : Memory.wf m = true) (hx : x < a ∨ a + bs.length ≤ x) :
    Memory.read (Memory.writes m a bs) x = Memory.read m x := by
  induction bs generalizing m a with
  | nil => rfl
  | cons b r ih =>
    simp only [List.length_cons] at hx
    rw [Memory.writes, ih (Memory.wf_write a b h) (by omega), Memory.read_write_other b h (by omega)]

theorem Memory.read_writes_same {m : Memory} {a i : Nat} (bs : List Byte) (h : Memory.wf m = true) (hi : i < bs.length) :
    bs[i]? = some (Memory.read (Memory.writes m a bs) (a + i)) := by
  induction bs generalizing m a i with
  | nil => simp at hi
  | cons b r ih =>
    cases i with
    | zero =>
      rw [Memory.writes, Memory.read_writes_other r (Memory.wf_write a b h) (by omega), Nat.add_zero, Memory.read_write_same b h]
      rfl
    | succ j =>
      have := ih (a := a + 1) (Memory.wf_write a b h) (i := j) (by simpa using hi)
      rw [List.getElem?_cons_succ, this, Memory.writes, show a + 1 + j = a + (j + 1) by omega]

theorem State.byte_setBytes_other {s : State} {k x : Nat} (bs : List Byte) (h : s.memWf) (hx : x < k ∨ k + bs.length ≤ x) :
    (s.setBytes k bs).byte x = s.byte x := Memory.read_writes_other bs h hx

theorem State.byte_setBytes_same {s : State} {k i : Nat} (bs : List Byte) (h : s.memWf) (hi : i < bs.length) :
    bs[i]? = some ((s.setBytes k bs).byte (k + i)) := Memory.read_writes_same bs h hi

end Sys2Proof.Machine
end

