-- ==== Sys2Proof/Laws/MemoryKept.lean ====
section
/-! SUPPORT. For each shared operation that changes the state: it keeps memory in its canonical form. An operation that answers
a pair or an Option has its law as memWf_of (from the equation of its answer) and memWf_fst (of the state inside the pair). -/

set_option linter.all false
set_option Elab.async false

namespace Sys2Proof.Machine

theorem State.memWf_wf {s : State} (h : s.memWf) : Memory.wf s.mem = true := h

theorem State.memWf_setCtx {s : State} (c : Nat) (x : Ctx) (hs : s.memWf) : (State.setCtx s c x).memWf := by
  unfold State.setCtx
  repeat' first
    | with_reducible assumption
    | with_reducible apply State.memWf_foldl
    | split
    | (intro _)
    | dsimp only
    | exact hs
    | (dsimp only [State.memWf]; with_reducible apply State.memWf_wf; first | with_reducible apply State.memWf_foldl | exact hs)

theorem State.memWf_updCtx {s : State} (c : Nat) (f : Ctx → Ctx) (hs : s.memWf) : (State.updCtx s c f).memWf := by
  unfold State.updCtx
  repeat' first
    | with_reducible assumption
    | with_reducible apply State.memWf_setCtx
    | with_reducible apply State.memWf_foldl
    | split
    | (intro _)
    | dsimp only
    | exact hs

theorem State.memWf_setCore {s : State} (k : Nat) (x : Core) (hs : s.memWf) : (State.setCore s k x).memWf := by
  unfold State.setCore
  repeat' first
    | with_reducible assumption
    | with_reducible apply State.memWf_foldl
    | split
    | (intro _)
    | dsimp only
    | exact hs
    | (dsimp only [State.memWf]; with_reducible apply State.memWf_wf; first | with_reducible apply State.memWf_foldl | exact hs)

theorem State.memWf_updCore {s : State} (k : Nat) (f : Core → Core) (hs : s.memWf) : (State.updCore s k f).memWf := by
  unfold State.updCore
  repeat' first
    | with_reducible assumption
    | with_reducible apply State.memWf_setCore
    | with_reducible apply State.memWf_foldl
    | split
    | (intro _)
    | dsimp only
    | exact hs

theorem State.memWf_updGal {s : State} (g : Nat) (f : Galley → Galley) (hs : s.memWf) : (State.updGal s g f).memWf := by
  unfold State.updGal
  repeat' first
    | with_reducible assumption
    | with_reducible apply State.memWf_foldl
    | split
    | (intro _)
    | dsimp only
    | exact hs
    | (dsimp only [State.memWf]; with_reducible apply State.memWf_wf; first | with_reducible apply State.memWf_foldl | exact hs)

theorem State.memWf_updDie {s : State} (d : Nat) (f : Die → Die) (hs : s.memWf) : (State.updDie s d f).memWf := by
  unfold State.updDie
  repeat' first
    | with_reducible assumption
    | with_reducible apply State.memWf_foldl
    | split
    | (intro _)
    | dsimp only
    | exact hs
    | (dsimp only [State.memWf]; with_reducible apply State.memWf_wf; first | with_reducible apply State.memWf_foldl | exact hs)

theorem State.memWf_updPkg {s : State} (p : Nat) (f : Pkg → Pkg) (hs : s.memWf) : (State.updPkg s p f).memWf := by
  unfold State.updPkg
  repeat' first
    | with_reducible assumption
    | with_reducible apply State.memWf_foldl
    | split
    | (intro _)
    | dsimp only
    | exact hs
    | (dsimp only [State.memWf]; with_reducible apply State.memWf_wf; first | with_reducible apply State.memWf_foldl | exact hs)

theorem State.memWf_setQueue {s : State} (q : Nat) (x : Queue) (hs : s.memWf) : (State.setQueue s q x).memWf := by
  unfold State.setQueue
  repeat' first
    | with_reducible assumption
    | with_reducible apply State.memWf_foldl
    | split
    | (intro _)
    | dsimp only
    | exact hs
    | (dsimp only [State.memWf]; with_reducible apply State.memWf_wf; first | with_reducible apply State.memWf_foldl | exact hs)

theorem State.memWf_setLevel {s : State} (l : Nat) (x : Level) (hs : s.memWf) : (State.setLevel s l x).memWf := by
  unfold State.setLevel
  repeat' first
    | with_reducible assumption
    | with_reducible apply State.memWf_foldl
    | split
    | (intro _)
    | dsimp only
    | exact hs
    | (dsimp only [State.memWf]; with_reducible apply State.memWf_wf; first | with_reducible apply State.memWf_foldl | exact hs)

theorem State.memWf_updProgram {s : State} (h : Nat) (f : Program → Program) (hs : s.memWf) : (State.updProgram s h f).memWf := by
  unfold State.updProgram
  repeat' first
    | with_reducible assumption
    | with_reducible apply State.memWf_foldl
    | split
    | (intro _)
    | dsimp only
    | exact hs
    | (dsimp only [State.memWf]; with_reducible apply State.memWf_wf; first | with_reducible apply State.memWf_foldl | exact hs)

theorem State.memWf_updForme {s : State} (f : Nat) (g : Forme → Forme) (hs : s.memWf) : (State.updForme s f g).memWf := by
  unfold State.updForme
  repeat' first
    | with_reducible assumption
    | with_reducible apply State.memWf_foldl
    | split
    | (intro _)
    | dsimp only
    | exact hs
    | (dsimp only [State.memWf]; with_reducible apply State.memWf_wf; first | with_reducible apply State.memWf_foldl | exact hs)

theorem State.memWf_due {s : State} (e : Instr) (hs : s.memWf) : (State.due s e).memWf := by
  unfold State.due
  repeat' first
    | with_reducible assumption
    | with_reducible apply State.memWf_foldl
    | split
    | (intro _)
    | dsimp only
    | exact hs
    | (dsimp only [State.memWf]; with_reducible apply State.memWf_wf; first | with_reducible apply State.memWf_foldl | exact hs)

theorem State.memWf_emit {s : State} (o : Output) (hs : s.memWf) : (State.emit s o).memWf := by
  unfold State.emit
  repeat' first
    | with_reducible assumption
    | with_reducible apply State.memWf_foldl
    | split
    | (intro _)
    | dsimp only
    | exact hs
    | (dsimp only [State.memWf]; with_reducible apply State.memWf_wf; first | with_reducible apply State.memWf_foldl | exact hs)

theorem State.memWf_of_free {s : State} {t : State} {u : Word} (e : State.free s = (u, t)) (hs : s.memWf) : t.memWf := by
  revert e
  unfold State.free
  repeat' first
    | (intro e; cases e; done)
    | (intro e; cases e)
    | dsimp only
    | split
    | with_reducible assumption
    | with_reducible apply State.memWf_foldl
    | split
    | dsimp only
    | exact hs
    | (dsimp only [State.memWf]; with_reducible apply State.memWf_wf; first | with_reducible apply State.memWf_foldl | exact hs)

theorem State.memWf_fst_free {s : State} (hs : s.memWf) : (State.free s).2.memWf := State.memWf_of_free rfl hs



theorem State.memWf_clearCovered {s : State} (rs : List (Nat × Nat)) (hs : s.memWf) : (State.clearCovered s rs).memWf := by
  unfold State.clearCovered
  repeat' first
    | with_reducible assumption
    | with_reducible apply State.memWf_foldl
    | split
    | (intro _)
    | dsimp only
    | exact hs
    | (dsimp only [State.memWf]; with_reducible apply State.memWf_wf; first | with_reducible apply State.memWf_foldl | exact hs)

theorem State.memWf_setGReg {s : State} (c i : Nat) (r : GReg) (hs : s.memWf) : (State.setGReg s c i r).memWf := by
  unfold State.setGReg
  repeat' first
    | with_reducible assumption
    | with_reducible apply State.memWf_updCore
    | with_reducible apply State.memWf_foldl
    | split
    | (intro _)
    | dsimp only
    | exact hs
    | (dsimp only [State.memWf]; with_reducible apply State.memWf_wf; first | with_reducible apply State.memWf_updCore | with_reducible apply State.memWf_foldl | exact hs)

theorem State.memWf_setVReg {s : State} (c i : Nat) (r : VReg) (hs : s.memWf) : (State.setVReg s c i r).memWf := by
  unfold State.setVReg
  repeat' first
    | with_reducible assumption
    | with_reducible apply State.memWf_updCore
    | with_reducible apply State.memWf_foldl
    | split
    | (intro _)
    | dsimp only
    | exact hs
    | (dsimp only [State.memWf]; with_reducible apply State.memWf_wf; first | with_reducible apply State.memWf_updCore | with_reducible apply State.memWf_foldl | exact hs)

theorem State.memWf_setDReg {s : State} (c i : Nat) (r : DReg) (hs : s.memWf) : (State.setDReg s c i r).memWf := by
  unfold State.setDReg
  repeat' first
    | with_reducible assumption
    | with_reducible apply State.memWf_updCore
    | with_reducible apply State.memWf_foldl
    | split
    | (intro _)
    | dsimp only
    | exact hs
    | (dsimp only [State.memWf]; with_reducible apply State.memWf_wf; first | with_reducible apply State.memWf_updCore | with_reducible apply State.memWf_foldl | exact hs)

theorem State.memWf_putG {s : State} (c i : Nat) (v : Word) (hs : s.memWf) : (State.putG s c i v).memWf := by
  unfold State.putG
  repeat' first
    | with_reducible assumption
    | with_reducible apply State.memWf_setGReg
    | with_reducible apply State.memWf_foldl
    | split
    | (intro _)
    | dsimp only
    | exact hs

theorem State.memWf_putV {s : State} (c i : Nat) (v : VWord) (w : Half := BitVec.allOnes 16) (hs : s.memWf) : (State.putV s c i v w).memWf := by
  unfold State.putV
  repeat' first
    | with_reducible assumption
    | with_reducible apply State.memWf_setVReg
    | with_reducible apply State.memWf_foldl
    | split
    | (intro _)
    | dsimp only
    | exact hs

theorem State.memWf_markG {s : State} (c i : Nat) (p : Presence) (hs : s.memWf) : (State.markG s c i p).memWf := by
  unfold State.markG
  repeat' first
    | with_reducible assumption
    | with_reducible apply State.memWf_setGReg
    | with_reducible apply State.memWf_foldl
    | split
    | (intro _)
    | dsimp only
    | exact hs
    | (dsimp only [State.memWf]; with_reducible apply State.memWf_wf; first | with_reducible apply State.memWf_setGReg | with_reducible apply State.memWf_foldl | exact hs)

theorem State.memWf_markV {s : State} (c i : Nat) (p : Presence) (hs : s.memWf) : (State.markV s c i p).memWf := by
  unfold State.markV
  repeat' first
    | with_reducible assumption
    | with_reducible apply State.memWf_setVReg
    | with_reducible apply State.memWf_foldl
    | split
    | (intro _)
    | dsimp only
    | exact hs
    | (dsimp only [State.memWf]; with_reducible apply State.memWf_wf; first | with_reducible apply State.memWf_setVReg | with_reducible apply State.memWf_foldl | exact hs)

theorem State.memWf_putPair {s : State} (c i : Nat) (v : BitVec 1024) (w : BitVec 32 := BitVec.allOnes 32) (hs : s.memWf) : (State.putPair s c i v w).memWf := by
  unfold State.putPair
  repeat' first
    | with_reducible assumption
    | with_reducible apply State.memWf_putV
    | with_reducible apply State.memWf_foldl
    | split
    | (intro _)
    | dsimp only
    | exact hs

theorem State.memWf_awaitG {s : State} (i : Nat) (hs : s.memWf) : (State.awaitG s i).memWf := by
  unfold State.awaitG
  repeat' first
    | with_reducible assumption
    | with_reducible apply State.memWf_markG
    | with_reducible apply State.memWf_foldl
    | split
    | (intro _)
    | dsimp only
    | exact hs

theorem State.memWf_stopKeeper {s : State} (k : Nat) (hs : s.memWf) : (State.stopKeeper s k).memWf := by
  unfold State.stopKeeper
  repeat' first
    | with_reducible assumption
    | with_reducible apply State.memWf_updCore
    | with_reducible apply State.memWf_emit
    | with_reducible apply State.memWf_foldl
    | split
    | (intro _)
    | dsimp only
    | exact hs
    | (dsimp only [State.memWf]; with_reducible apply State.memWf_wf; first | with_reducible apply State.memWf_updCore | with_reducible apply State.memWf_emit | with_reducible apply State.memWf_foldl | exact hs)

theorem State.memWf_enterTrap {s : State} (c : Nat) (t : PendTrap) (resume : Word) (hs : s.memWf) : (State.enterTrap s c t resume).memWf := by
  unfold State.enterTrap
  repeat' first
    | with_reducible assumption
    | with_reducible apply State.memWf_setCtx
    | with_reducible apply State.memWf_stopKeeper
    | with_reducible apply State.memWf_foldl
    | split
    | (intro _)
    | dsimp only
    | exact hs
    | (dsimp only [State.memWf]; with_reducible apply State.memWf_wf; first | with_reducible apply State.memWf_setCtx | with_reducible apply State.memWf_stopKeeper | with_reducible apply State.memWf_foldl | exact hs)

theorem State.memWf_setTrace {s : State} (d : Nat) (t : Trace) (hs : s.memWf) : (State.setTrace s d t).memWf := by
  unfold State.setTrace
  repeat' first
    | with_reducible assumption
    | with_reducible apply State.memWf_updDie
    | with_reducible apply State.memWf_foldl
    | split
    | (intro _)
    | dsimp only
    | exact hs
    | (dsimp only [State.memWf]; with_reducible apply State.memWf_wf; first | with_reducible apply State.memWf_updDie | with_reducible apply State.memWf_foldl | exact hs)

theorem State.memWf_traceEntry {s : State} (k cyc : Nat) (w : Word) (hs : s.memWf) : (State.traceEntry s k cyc w).memWf := by
  unfold State.traceEntry
  repeat' first
    | with_reducible assumption
    | with_reducible apply State.memWf_setTrace
    | with_reducible apply State.memWf_foldl
    | split
    | (intro _)
    | dsimp only
    | exact hs
    | (dsimp only [State.memWf]; with_reducible apply State.memWf_wf; first | with_reducible apply State.memWf_setTrace | with_reducible apply State.memWf_foldl | exact hs)

theorem State.memWf_traceEvent {s : State} (c kind : Nat) (prog : BitVec 32) (pc : Word) (hs : s.memWf) : (State.traceEvent s c kind prog pc).memWf := by
  unfold State.traceEvent
  repeat' first
    | with_reducible assumption
    | with_reducible apply State.memWf_setBytes
    | with_reducible apply State.memWf_setTrace
    | with_reducible apply State.memWf_foldl
    | split
    | (intro _)
    | dsimp only
    | exact hs
    | (dsimp only [State.memWf]; with_reducible apply State.memWf_wf; first | with_reducible apply State.memWf_setBytes | with_reducible apply State.memWf_setTrace | with_reducible apply State.memWf_foldl | exact hs)

theorem State.memWf_traceHold {s : State} (c : Nat) (h : Hold) (hs : s.memWf) : (State.traceHold s c h).memWf := by
  unfold State.traceHold
  repeat' first
    | with_reducible assumption
    | with_reducible apply State.memWf_setTrace
    | with_reducible apply State.memWf_foldl
    | split
    | (intro _)
    | dsimp only
    | exact hs
    | (dsimp only [State.memWf]; with_reducible apply State.memWf_wf; first | with_reducible apply State.memWf_setTrace | with_reducible apply State.memWf_foldl | exact hs)

theorem State.memWf_count {s : State} (p : Nat) (prog : BitVec 32) (activity n : Nat) (hs : s.memWf) : (State.count s p prog activity n).memWf := by
  unfold State.count
  repeat' first
    | with_reducible assumption
    | with_reducible apply State.memWf_updPkg
    | with_reducible apply State.memWf_foldl
    | split
    | (intro _)
    | dsimp only
    | exact hs
    | (dsimp only [State.memWf]; with_reducible apply State.memWf_wf; first | with_reducible apply State.memWf_updPkg | with_reducible apply State.memWf_foldl | exact hs)

theorem State.memWf_noteIssue {s : State} (hs : s.memWf) : (State.noteIssue s).memWf := by
  unfold State.noteIssue
  repeat' first
    | with_reducible assumption
    | with_reducible apply State.memWf_traceEntry
    | with_reducible apply State.memWf_count
    | with_reducible apply State.memWf_foldl
    | split
    | (intro _)
    | dsimp only
    | exact hs

theorem State.memWf_holdTrap {s : State} (c : Nat) (h : Hold) (t : PendTrap) (resume : Word) (hs : s.memWf) : (State.holdTrap s c h t resume).memWf := by
  unfold State.holdTrap
  repeat' first
    | with_reducible assumption
    | with_reducible apply State.memWf_updCtx
    | with_reducible apply State.memWf_enterTrap
    | with_reducible apply State.memWf_traceHold
    | with_reducible apply State.memWf_foldl
    | split
    | (intro _)
    | dsimp only
    | exact hs
    | (dsimp only [State.memWf]; with_reducible apply State.memWf_wf; first | with_reducible apply State.memWf_updCtx | with_reducible apply State.memWf_enterTrap | with_reducible apply State.memWf_traceHold | with_reducible apply State.memWf_foldl | exact hs)

theorem State.memWf_useSlot {s : State} (hs : s.memWf) : (State.useSlot s).memWf := by
  unfold State.useSlot
  repeat' first
    | with_reducible assumption
    | with_reducible apply State.memWf_updCtx
    | with_reducible apply State.memWf_updCore
    | with_reducible apply State.memWf_noteIssue
    | with_reducible apply State.memWf_foldl
    | split
    | (intro _)
    | dsimp only
    | exact hs
    | (dsimp only [State.memWf]; with_reducible apply State.memWf_wf; first | with_reducible apply State.memWf_updCtx | with_reducible apply State.memWf_updCore | with_reducible apply State.memWf_noteIssue | with_reducible apply State.memWf_foldl | exact hs)

theorem State.memWf_trap {s : State} (cause : Byte) (addr info : Word) (hs : s.memWf) : (State.trap s cause addr info).memWf := by
  unfold State.trap
  repeat' first
    | with_reducible assumption
    | with_reducible apply State.memWf_enterTrap
    | with_reducible apply State.memWf_useSlot
    | with_reducible apply State.memWf_foldl
    | split
    | (intro _)
    | dsimp only
    | exact hs

theorem State.memWf_trapIll {s : State} (reason : Nat) (hs : s.memWf) : (State.trapIll s reason).memWf := by
  unfold State.trapIll
  repeat' first
    | with_reducible assumption
    | with_reducible apply State.memWf_trap
    | with_reducible apply State.memWf_foldl
    | split
    | (intro _)
    | dsimp only
    | exact hs

theorem State.memWf_trapProt {s : State} (addr : Word) (reason : Nat) (hs : s.memWf) : (State.trapProt s addr reason).memWf := by
  unfold State.trapProt
  repeat' first
    | with_reducible assumption
    | with_reducible apply State.memWf_trap
    | with_reducible apply State.memWf_foldl
    | split
    | (intro _)
    | dsimp only
    | exact hs

theorem State.memWf_trapPriv {s : State} (hs : s.memWf) : (State.trapPriv s).memWf := by
  unfold State.trapPriv
  repeat' first
    | with_reducible assumption
    | with_reducible apply State.memWf_holdTrap
    | with_reducible apply State.memWf_useSlot
    | with_reducible apply State.memWf_foldl
    | split
    | (intro _)
    | dsimp only
    | exact hs

theorem State.memWf_tret {s : State} (hs : s.memWf) : (State.tret s).memWf := by
  unfold State.tret
  repeat' first
    | with_reducible assumption
    | with_reducible apply State.memWf_updCtx
    | with_reducible apply State.memWf_useSlot
    | with_reducible apply State.memWf_trapProt
    | with_reducible apply State.memWf_foldl
    | split
    | (intro _)
    | dsimp only
    | exact hs
    | (dsimp only [State.memWf]; with_reducible apply State.memWf_wf; first | with_reducible apply State.memWf_updCtx | with_reducible apply State.memWf_useSlot | with_reducible apply State.memWf_trapProt | with_reducible apply State.memWf_foldl | exact hs)

theorem State.memWf_notUntil {s : State} (n : Nat) (hs : s.memWf) : (State.notUntil s n).memWf := by
  unfold State.notUntil
  repeat' first
    | with_reducible assumption
    | with_reducible apply State.memWf_updCtx
    | with_reducible apply State.memWf_foldl
    | split
    | (intro _)
    | dsimp only
    | exact hs
    | (dsimp only [State.memWf]; with_reducible apply State.memWf_wf; first | with_reducible apply State.memWf_updCtx | with_reducible apply State.memWf_foldl | exact hs)

theorem State.memWf_waitFor {s : State} (w : Wait) (hs : s.memWf) : (State.waitFor s w).memWf := by
  unfold State.waitFor
  repeat' first
    | with_reducible assumption
    | with_reducible apply State.memWf_updCtx
    | with_reducible apply State.memWf_foldl
    | split
    | (intro _)
    | dsimp only
    | exact hs
    | (dsimp only [State.memWf]; with_reducible apply State.memWf_wf; first | with_reducible apply State.memWf_updCtx | with_reducible apply State.memWf_foldl | exact hs)

theorem State.memWf_dueOnce {s : State} (e : Instr) (hs : s.memWf) : (State.dueOnce s e).memWf := by
  unfold State.dueOnce
  repeat' first
    | with_reducible assumption
    | with_reducible apply State.memWf_due
    | with_reducible apply State.memWf_foldl
    | split
    | (intro _)
    | dsimp only
    | exact hs

theorem State.memWf_queueMiss {s : State} (q : Nat) (hs : s.memWf) : (State.queueMiss s q).memWf := by
  unfold State.queueMiss
  repeat' first
    | with_reducible assumption
    | with_reducible apply State.memWf_waitFor
    | with_reducible apply State.memWf_dueOnce
    | with_reducible apply State.memWf_foldl
    | split
    | (intro _)
    | dsimp only
    | exact hs

theorem State.memWf_send {s : State} (m : Msg) (ev : Nat → Instr) (hs : s.memWf) : (State.send s m ev).memWf := by
  unfold State.send
  repeat' first
    | with_reducible assumption
    | with_reducible apply State.memWf_foldl
    | split
    | (intro _)
    | dsimp only
    | exact hs
    | (dsimp only [State.memWf]; with_reducible apply State.memWf_wf; first | with_reducible apply State.memWf_foldl | exact hs)

theorem State.memWf_setMsg {s : State} (m : Msg) (hs : s.memWf) : (State.setMsg s m).memWf := by
  unfold State.setMsg
  repeat' first
    | with_reducible assumption
    | with_reducible apply State.memWf_foldl
    | split
    | (intro _)
    | dsimp only
    | exact hs
    | (dsimp only [State.memWf]; with_reducible apply State.memWf_wf; first | with_reducible apply State.memWf_foldl | exact hs)

theorem State.memWf_dropMsg {s : State} (id : Nat) (hs : s.memWf) : (State.dropMsg s id).memWf := by
  unfold State.dropMsg
  repeat' first
    | with_reducible assumption
    | with_reducible apply State.memWf_foldl
    | split
    | (intro _)
    | dsimp only
    | exact hs
    | (dsimp only [State.memWf]; with_reducible apply State.memWf_wf; first | with_reducible apply State.memWf_foldl | exact hs)

theorem State.memWf_of_mappedSource {s : State} {i : Nat} {h : Nat} {t : State} (e : State.mappedSource s i h = some t) (hs : s.memWf) : t.memWf := by
  revert e
  unfold State.mappedSource
  repeat' first
    | (intro e; cases e; done)
    | (intro e; cases e)
    | dsimp only
    | split
    | with_reducible assumption
    | with_reducible apply State.memWf_markG
    | with_reducible apply State.memWf_trapProt
    | with_reducible apply State.memWf_waitFor
    | with_reducible apply State.memWf_queueMiss
    | with_reducible apply State.memWf_send
    | with_reducible apply State.memWf_foldl
    | split
    | dsimp only
    | exact hs

theorem State.memWf_of_mappedDest {s : State} {h : Nat} {t : State} (e : State.mappedDest s h = some t) (hs : s.memWf) : t.memWf := by
  revert e
  unfold State.mappedDest
  repeat' first
    | (intro e; cases e; done)
    | (intro e; cases e)
    | dsimp only
    | split
    | with_reducible assumption
    | with_reducible apply State.memWf_trapProt
    | with_reducible apply State.memWf_waitFor
    | with_reducible apply State.memWf_queueMiss
    | with_reducible apply State.memWf_foldl
    | split
    | dsimp only
    | exact hs

theorem memWf_of_firstBlock {t : State} {f : Nat → Nat → Option State} {x : Ctx} {l : List Nat} (hf : ∀ i h u, f i h = some u → u.memWf)
    (e : firstBlock f x l = some t) : t.memWf := by
  induction l with
  | nil => cases e
  | cons i r ih =>
    unfold firstBlock at e
    split at e
    · exact ih e
    · split at e
      · rename_i h; cases e; exact hf _ _ _ h
      · exact ih e

theorem State.memWf_issue {s : State} (u : Use) (body : State → State) (hs : s.memWf) (hb : ∀ t, t.memWf → (body t).memWf) :
    (s.issue u body).memWf := by
  unfold State.issue
  dsimp only
  repeat' first
    | (with_reducible apply State.memWf_trap)
    | exact hb s hs
    | exact memWf_of_firstBlock (fun _ _ _ e => State.memWf_of_mappedSource e hs) (by assumption)
    | exact memWf_of_firstBlock (fun _ _ _ e => State.memWf_of_mappedDest e hs) (by assumption)
    | split
    | exact hs

theorem State.memWf_noteUse {s : State} (u : Use) (hs : s.memWf) : (State.noteUse s u).memWf := by
  unfold State.noteUse
  repeat' first
    | with_reducible assumption
    | with_reducible apply State.memWf_count
    | with_reducible apply State.memWf_foldl
    | split
    | (intro _)
    | dsimp only
    | exact hs

theorem State.memWf_finishAt {s : State} (u : Use) (npc : Word) (hs : s.memWf) : (State.finishAt s u npc).memWf := by
  unfold State.finishAt
  repeat' first
    | with_reducible assumption
    | with_reducible apply State.memWf_updCtx
    | with_reducible apply State.memWf_useSlot
    | with_reducible apply State.memWf_noteUse
    | with_reducible apply State.memWf_foldl
    | split
    | (intro _)
    | dsimp only
    | exact hs
    | (dsimp only [State.memWf]; with_reducible apply State.memWf_wf; first | with_reducible apply State.memWf_updCtx | with_reducible apply State.memWf_useSlot | with_reducible apply State.memWf_noteUse | with_reducible apply State.memWf_foldl | exact hs)

theorem State.memWf_finish {s : State} (u : Use) (hs : s.memWf) : (State.finish s u).memWf := by
  unfold State.finish
  repeat' first
    | with_reducible assumption
    | with_reducible apply State.memWf_finishAt
    | with_reducible apply State.memWf_foldl
    | split
    | (intro _)
    | dsimp only
    | exact hs

theorem State.memWf_writeG {s : State} (i : Nat) (v : Word) (hs : s.memWf) : (State.writeG s i v).memWf := by
  unfold State.writeG
  repeat' first
    | with_reducible assumption
    | with_reducible apply State.memWf_putG
    | with_reducible apply State.memWf_send
    | with_reducible apply State.memWf_foldl
    | split
    | (intro _)
    | dsimp only
    | exact hs
    | (dsimp only [State.memWf]; with_reducible apply State.memWf_wf; first | with_reducible apply State.memWf_putG | with_reducible apply State.memWf_send | with_reducible apply State.memWf_foldl | exact hs)

theorem State.memWf_raise {s : State} (c : Nat) (fl : Flags) (hs : s.memWf) : (State.raise s c fl).memWf := by
  unfold State.raise
  repeat' first
    | with_reducible assumption
    | with_reducible apply State.memWf_updCtx
    | with_reducible apply State.memWf_foldl
    | split
    | (intro _)
    | dsimp only
    | exact hs
    | (dsimp only [State.memWf]; with_reducible apply State.memWf_wf; first | with_reducible apply State.memWf_updCtx | with_reducible apply State.memWf_foldl | exact hs)

theorem State.memWf_raiseLate {s : State} (l : Nat) (fl : Flags) (hs : s.memWf) : (State.raiseLate s l fl).memWf := by
  unfold State.raiseLate
  repeat' first
    | with_reducible assumption
    | with_reducible apply State.memWf_updCtx
    | with_reducible apply State.memWf_raise
    | with_reducible apply State.memWf_foldl
    | split
    | (intro _)
    | dsimp only
    | exact hs
    | (dsimp only [State.memWf]; with_reducible apply State.memWf_wf; first | with_reducible apply State.memWf_updCtx | with_reducible apply State.memWf_raise | with_reducible apply State.memWf_foldl | exact hs)

theorem State.memWf_fpResult {s : State} (l : Nat) (fl : Flags) (lanes : Half) (k : State → State) (hs : s.memWf) (hk : ∀ (w0 : State), w0.memWf → (k w0).memWf) : (State.fpResult s l fl lanes k).memWf := by
  unfold State.fpResult
  repeat' first
    | with_reducible assumption
    | with_reducible apply State.memWf_trap
    | with_reducible apply State.memWf_raiseLate
    | with_reducible apply State.memWf_foldl
    | apply hk
    | split
    | (intro _)
    | dsimp only
    | exact hs
    | exact hk

theorem State.memWf_longResult {s : State} (u : Use) (rs : List (RC × Nat × Nat)) (fl : Flags) (lanes : Half) (w : BitVec 32 := BitVec.allOnes 32) (hs : s.memWf) : (State.longResult s u rs fl lanes w).memWf := by
  unfold State.longResult
  repeat' first
    | with_reducible assumption
    | with_reducible apply State.memWf_markV
    | with_reducible apply State.memWf_awaitG
    | with_reducible apply State.memWf_trap
    | with_reducible apply State.memWf_send
    | with_reducible apply State.memWf_finish
    | with_reducible apply State.memWf_foldl
    | split
    | (intro _)
    | dsimp only
    | exact hs
    | (dsimp only [State.memWf]; with_reducible apply State.memWf_wf; first | with_reducible apply State.memWf_markV | with_reducible apply State.memWf_awaitG | with_reducible apply State.memWf_trap | with_reducible apply State.memWf_send | with_reducible apply State.memWf_finish | with_reducible apply State.memWf_foldl | exact hs)

theorem State.memWf_joinFault {s : State} (g space gran : Nat) (pref : Bool := false) (hs : s.memWf) : (State.joinFault s g space gran pref).memWf := by
  unfold State.joinFault
  repeat' first
    | with_reducible assumption
    | with_reducible apply State.memWf_updDie
    | with_reducible apply State.memWf_foldl
    | split
    | (intro _)
    | dsimp only
    | exact hs
    | (dsimp only [State.memWf]; with_reducible apply State.memWf_wf; first | with_reducible apply State.memWf_updDie | with_reducible apply State.memWf_foldl | exact hs)

theorem State.memWf_startWalk {s : State} (g space gran : Nat) (pref : Bool := false) (hs : s.memWf) : (State.startWalk s g space gran pref).memWf := by
  unfold State.startWalk
  repeat' first
    | with_reducible assumption
    | with_reducible apply State.memWf_updDie
    | with_reducible apply State.memWf_due
    | with_reducible apply State.memWf_joinFault
    | with_reducible apply State.memWf_foldl
    | split
    | (intro _)
    | dsimp only
    | exact hs
    | (dsimp only [State.memWf]; with_reducible apply State.memWf_wf; first | with_reducible apply State.memWf_updDie | with_reducible apply State.memWf_due | with_reducible apply State.memWf_joinFault | with_reducible apply State.memWf_foldl | exact hs)

theorem State.memWf_beginSave {s : State} (c : Nat) (hs : s.memWf) : (State.beginSave s c).memWf := by
  unfold State.beginSave
  repeat' first
    | with_reducible assumption
    | with_reducible apply State.memWf_updCore
    | with_reducible apply State.memWf_due
    | with_reducible apply State.memWf_foldl
    | split
    | (intro _)
    | dsimp only
    | exact hs
    | (dsimp only [State.memWf]; with_reducible apply State.memWf_wf; first | with_reducible apply State.memWf_updCore | with_reducible apply State.memWf_due | with_reducible apply State.memWf_foldl | exact hs)

theorem State.memWf_meetFault {s : State} (c space gran : Nat) (hs : s.memWf) : (State.meetFault s c space gran).memWf := by
  unfold State.meetFault
  repeat' first
    | with_reducible assumption
    | with_reducible apply State.memWf_updCtx
    | with_reducible apply State.memWf_beginSave
    | with_reducible apply State.memWf_foldl
    | split
    | (intro _)
    | dsimp only
    | exact hs
    | (dsimp only [State.memWf]; with_reducible apply State.memWf_wf; first | with_reducible apply State.memWf_updCtx | with_reducible apply State.memWf_beginSave | with_reducible apply State.memWf_foldl | exact hs)

theorem State.memWf_missAt {s : State} (space va : Nat) (acc : Acc) (ea : Word) (hs : s.memWf) : (State.missAt s space va acc ea).memWf := by
  unfold State.missAt
  repeat' first
    | with_reducible assumption
    | with_reducible apply State.memWf_updCtx
    | with_reducible apply State.memWf_trap
    | with_reducible apply State.memWf_waitFor
    | with_reducible apply State.memWf_joinFault
    | with_reducible apply State.memWf_startWalk
    | with_reducible apply State.memWf_meetFault
    | with_reducible apply State.memWf_foldl
    | split
    | (intro _)
    | dsimp only
    | exact hs
    | (dsimp only [State.memWf]; with_reducible apply State.memWf_wf; first | with_reducible apply State.memWf_updCtx | with_reducible apply State.memWf_trap | with_reducible apply State.memWf_waitFor | with_reducible apply State.memWf_joinFault | with_reducible apply State.memWf_startWalk | with_reducible apply State.memWf_meetFault | with_reducible apply State.memWf_foldl | exact hs)

theorem State.memWf_of_watchBefore {s : State} {es : List Seen} {t : State} (e : State.watchBefore s es = some t) (hs : s.memWf) : t.memWf := by
  revert e
  unfold State.watchBefore
  repeat' first
    | (intro e; cases e; done)
    | (intro e; cases e)
    | dsimp only
    | split
    | with_reducible assumption
    | with_reducible apply State.memWf_updCtx
    | with_reducible apply State.memWf_holdTrap
    | with_reducible apply State.memWf_useSlot
    | with_reducible apply State.memWf_foldl
    | split
    | dsimp only
    | exact hs
    | (dsimp only [State.memWf]; with_reducible apply State.memWf_wf; first | with_reducible apply State.memWf_updCtx | with_reducible apply State.memWf_holdTrap | with_reducible apply State.memWf_useSlot | with_reducible apply State.memWf_foldl | exact hs)

theorem State.memWf_watchAfter {s : State} (c : Nat) (d : DebugRegs) (pc : Word) (es : List Seen) (hs : s.memWf) : (State.watchAfter s c d pc es).memWf := by
  unfold State.watchAfter
  repeat' first
    | with_reducible assumption
    | with_reducible apply State.memWf_updCtx
    | with_reducible apply State.memWf_foldl
    | split
    | (intro _)
    | dsimp only
    | exact hs
    | (dsimp only [State.memWf]; with_reducible apply State.memWf_wf; first | with_reducible apply State.memWf_updCtx | with_reducible apply State.memWf_foldl | exact hs)

theorem State.memWf_accessSeen {s : State} (acc : Acc) (am : AMode) (es : List El) (seen : List Seen) (k : List Part → State) (hs : s.memWf)
    (hk : ∀ ps, (k ps).memWf) : (s.accessSeen acc am es seen k).memWf := by
  unfold State.accessSeen
  split
  · rename_i heq
    split at heq
    · cases heq
    · exact State.memWf_of_watchBefore heq hs
  · repeat' first
      | (with_reducible apply State.memWf_trap)
      | (with_reducible apply State.memWf_missAt)
      | apply hk
      | exact hs
      | split

theorem State.memWf_access {s : State} (acc : Acc) (am : AMode) (es : List El) (k : List Part → State) (hs : s.memWf) (hk : ∀ (w0 : List Part), (k w0).memWf) : (State.access s acc am es k).memWf := by
  unfold State.access
  repeat' first
    | with_reducible assumption
    | with_reducible apply State.memWf_accessSeen
    | with_reducible apply State.memWf_foldl
    | apply hk
    | split
    | (intro _)
    | dsimp only
    | exact hs
    | exact hk

theorem State.memWf_trapAlign {s : State} (a : Word) (n : Nat) (hs : s.memWf) : (State.trapAlign s a n).memWf := by
  unfold State.trapAlign
  repeat' first
    | with_reducible assumption
    | with_reducible apply State.memWf_trap
    | with_reducible apply State.memWf_foldl
    | split
    | (intro _)
    | dsimp only
    | exact hs

theorem State.memWf_of_stampedFor {s : State} {c : Nat} {m : Msg} {t : State} {u : Msg} (e : State.stampedFor s c m = (t, u)) (hs : s.memWf) : t.memWf := by
  revert e
  unfold State.stampedFor
  repeat' first
    | (intro e; cases e; done)
    | (intro e; cases e)
    | dsimp only
    | split
    | with_reducible assumption
    | with_reducible apply State.memWf_updDie
    | with_reducible apply State.memWf_foldl
    | split
    | dsimp only
    | exact hs
    | (dsimp only [State.memWf]; with_reducible apply State.memWf_wf; first | with_reducible apply State.memWf_updDie | with_reducible apply State.memWf_foldl | exact hs)

theorem State.memWf_fst_stampedFor {s : State} (c : Nat) (m : Msg) (hs : s.memWf) : (State.stampedFor s c m).1.memWf := State.memWf_of_stampedFor rfl hs

theorem State.memWf_of_stamped {s : State} {m : Msg} {t : State} {u : Msg} (e : State.stamped s m = (t, u)) (hs : s.memWf) : t.memWf := by
  revert e
  unfold State.stamped
  repeat' first
    | (intro e; refine State.memWf_of_stampedFor e ?_)
    | (intro e; cases e; done)
    | (intro e; cases e)
    | dsimp only
    | split
    | with_reducible assumption
    | with_reducible apply State.memWf_foldl
    | (refine State.memWf_of_stampedFor (by assumption) ?_)
    | with_reducible apply State.memWf_fst_stampedFor
    | split
    | dsimp only
    | exact hs

theorem State.memWf_fst_stamped {s : State} (m : Msg) (hs : s.memWf) : (State.stamped s m).1.memWf := State.memWf_of_stamped rfl hs

theorem State.memWf_post {s : State} (n : Nat) (hs : s.memWf) : (State.post s n).memWf := by
  unfold State.post
  repeat' first
    | with_reducible assumption
    | with_reducible apply State.memWf_updCtx
    | with_reducible apply State.memWf_foldl
    | split
    | (intro _)
    | dsimp only
    | exact hs
    | (dsimp only [State.memWf]; with_reducible apply State.memWf_wf; first | with_reducible apply State.memWf_updCtx | with_reducible apply State.memWf_foldl | exact hs)

theorem State.memWf_sendStores {s : State} (u : Use) (ps : List Part) (hs : s.memWf) : (State.sendStores s u ps).memWf := by
  unfold State.sendStores
  repeat' first
    | with_reducible assumption
    | with_reducible apply State.memWf_waitFor
    | with_reducible apply State.memWf_send
    | with_reducible apply State.memWf_finish
    | with_reducible apply State.memWf_post
    | with_reducible apply State.memWf_foldl
    | (refine State.memWf_of_stamped (by assumption) ?_)
    | with_reducible apply State.memWf_fst_stamped
    | split
    | (intro _)
    | dsimp only
    | exact hs
    | (dsimp only [State.memWf]; with_reducible apply State.memWf_wf; first | with_reducible apply State.memWf_waitFor | with_reducible apply State.memWf_send | with_reducible apply State.memWf_finish | with_reducible apply State.memWf_post | with_reducible apply State.memWf_foldl | exact hs)

theorem State.memWf_sendWaiting {s : State} (u : Use) (m : Msg) (w : Wait) (gs vs : List Nat) (ev : Nat → Instr) (hs : s.memWf) : (State.sendWaiting s u m w gs vs ev).memWf := by
  unfold State.sendWaiting
  repeat' first
    | with_reducible assumption
    | with_reducible apply State.memWf_updCtx
    | with_reducible apply State.memWf_markV
    | with_reducible apply State.memWf_awaitG
    | with_reducible apply State.memWf_send
    | with_reducible apply State.memWf_finish
    | with_reducible apply State.memWf_foldl
    | split
    | (intro _)
    | dsimp only
    | exact hs
    | (dsimp only [State.memWf]; with_reducible apply State.memWf_wf; first | with_reducible apply State.memWf_updCtx | with_reducible apply State.memWf_markV | with_reducible apply State.memWf_awaitG | with_reducible apply State.memWf_send | with_reducible apply State.memWf_finish | with_reducible apply State.memWf_foldl | exact hs)

theorem State.memWf_setStamp {s : State} (k n : Nat) (c : Clock) (hs : s.memWf) : (State.setStamp s k n c).memWf := by
  unfold State.setStamp
  repeat' first
    | with_reducible assumption
    | with_reducible apply State.memWf_foldl
    | split
    | (intro _)
    | dsimp only
    | exact hs
    | (dsimp only [State.memWf]; with_reducible apply State.memWf_wf; first | with_reducible apply State.memWf_foldl | exact hs)

theorem State.memWf_learn {s : State} (d : Nat) (c : Clock) (hs : s.memWf) : (State.learn s d c).memWf := by
  unfold State.learn
  repeat' first
    | with_reducible assumption
    | with_reducible apply State.memWf_updDie
    | with_reducible apply State.memWf_foldl
    | split
    | (intro _)
    | dsimp only
    | exact hs
    | (dsimp only [State.memWf]; with_reducible apply State.memWf_wf; first | with_reducible apply State.memWf_updDie | with_reducible apply State.memWf_foldl | exact hs)

theorem State.memWf_charge {s : State} (p n : Nat) (t : Nat) (hs : s.memWf) : (State.charge s p n t).memWf := by
  unfold State.charge
  repeat' first
    | with_reducible assumption
    | with_reducible apply State.memWf_foldl
    | split
    | (intro _)
    | dsimp only
    | exact hs
    | (dsimp only [State.memWf]; with_reducible apply State.memWf_wf; first | with_reducible apply State.memWf_foldl | exact hs)

theorem State.memWf_traceCycles {s : State} (p t n : Nat) (hs : s.memWf) : (State.traceCycles s p t n).memWf := by
  unfold State.traceCycles
  repeat' first
    | with_reducible assumption
    | with_reducible apply State.memWf_setTrace
    | with_reducible apply State.memWf_dueOnce
    | with_reducible apply State.memWf_foldl
    | split
    | (intro _)
    | dsimp only
    | exact hs
    | (dsimp only [State.memWf]; with_reducible apply State.memWf_wf; first | with_reducible apply State.memWf_setTrace | with_reducible apply State.memWf_dueOnce | with_reducible apply State.memWf_foldl | exact hs)

theorem State.memWf_advance {s : State} (p t : Nat) (hs : s.memWf) : (State.advance s p t).memWf := by
  unfold State.advance
  repeat' first
    | with_reducible assumption
    | with_reducible apply State.memWf_updPkg
    | with_reducible apply State.memWf_charge
    | with_reducible apply State.memWf_traceCycles
    | with_reducible apply State.memWf_foldl
    | split
    | (intro _)
    | dsimp only
    | exact hs
    | (dsimp only [State.memWf]; with_reducible apply State.memWf_wf; first | with_reducible apply State.memWf_updPkg | with_reducible apply State.memWf_charge | with_reducible apply State.memWf_traceCycles | with_reducible apply State.memWf_foldl | exact hs)

theorem State.memWf_takePrecise {s : State} (t : PendTrap) (hs : s.memWf) : (State.takePrecise s t).memWf := by
  unfold State.takePrecise
  repeat' first
    | with_reducible assumption
    | with_reducible apply State.memWf_enterTrap
    | with_reducible apply State.memWf_useSlot
    | with_reducible apply State.memWf_foldl
    | split
    | (intro _)
    | dsimp only
    | exact hs

theorem State.memWf_localLoad {s : State} (u : Use) (t size : Nat) (sext : Bool) (ps : List Part) (hs : s.memWf) : (State.localLoad s u t size sext ps).memWf := by
  unfold State.localLoad
  repeat' first
    | with_reducible assumption
    | with_reducible apply State.memWf_trap
    | with_reducible apply State.memWf_finish
    | with_reducible apply State.memWf_writeG
    | with_reducible apply State.memWf_watchAfter
    | with_reducible apply State.memWf_learn
    | with_reducible apply State.memWf_foldl
    | split
    | (intro _)
    | dsimp only
    | exact hs
    | (dsimp only [State.memWf]; with_reducible apply State.memWf_wf; first | with_reducible apply State.memWf_trap | with_reducible apply State.memWf_finish | with_reducible apply State.memWf_writeG | with_reducible apply State.memWf_watchAfter | with_reducible apply State.memWf_learn | with_reducible apply State.memWf_foldl | exact hs)

theorem State.memWf_scalarLoad {s : State} (u : Use) (t : Nat) (am : AMode) (size : Nat) (sext : Bool) (ea : State → Word) (hs : s.memWf) : (State.scalarLoad s u t am size sext ea).memWf := by
  unfold State.scalarLoad
  repeat' first
    | with_reducible assumption
    | with_reducible apply State.memWf_issue
    | with_reducible apply State.memWf_access
    | with_reducible apply State.memWf_trapAlign
    | with_reducible apply State.memWf_sendWaiting
    | with_reducible apply State.memWf_localLoad
    | with_reducible apply State.memWf_foldl
    | split
    | (intro _)
    | dsimp only
    | exact hs
    | (dsimp only [State.memWf]; with_reducible apply State.memWf_wf; first | with_reducible apply State.memWf_issue | with_reducible apply State.memWf_access | with_reducible apply State.memWf_trapAlign | with_reducible apply State.memWf_sendWaiting | with_reducible apply State.memWf_localLoad | with_reducible apply State.memWf_foldl | exact hs)

theorem State.memWf_scalarStore {s : State} (u : Use) (am : AMode) (size : Nat) (ea : State → Word) (data : State → Word) (hs : s.memWf) : (State.scalarStore s u am size ea data).memWf := by
  unfold State.scalarStore
  repeat' first
    | with_reducible assumption
    | with_reducible apply State.memWf_issue
    | with_reducible apply State.memWf_access
    | with_reducible apply State.memWf_trapAlign
    | with_reducible apply State.memWf_sendStores
    | with_reducible apply State.memWf_foldl
    | split
    | (intro _)
    | dsimp only
    | exact hs

theorem State.memWf_indexedLoad {s : State} (d a b : GIdx) (size : Nat) (sext : Bool) (hs : s.memWf) : (State.indexedLoad s d a b size sext).memWf := by
  unfold State.indexedLoad
  repeat' first
    | with_reducible assumption
    | with_reducible apply State.memWf_scalarLoad
    | with_reducible apply State.memWf_foldl
    | split
    | (intro _)
    | dsimp only
    | exact hs

theorem State.memWf_indexedStore {s : State} (d a b : GIdx) (size : Nat) (hs : s.memWf) : (State.indexedStore s d a b size).memWf := by
  unfold State.indexedStore
  repeat' first
    | with_reducible assumption
    | with_reducible apply State.memWf_scalarStore
    | with_reducible apply State.memWf_foldl
    | split
    | (intro _)
    | dsimp only
    | exact hs

theorem State.memWf_prefetch {s : State} (u : Use) (ea : Word) (hs : s.memWf) : (State.prefetch s u ea).memWf := by
  unfold State.prefetch
  repeat' first
    | with_reducible assumption
    | with_reducible apply State.memWf_finish
    | with_reducible apply State.memWf_startWalk
    | with_reducible apply State.memWf_foldl
    | split
    | (intro _)
    | dsimp only
    | exact hs
    | (dsimp only [State.memWf]; with_reducible apply State.memWf_wf; first | with_reducible apply State.memWf_finish | with_reducible apply State.memWf_startWalk | with_reducible apply State.memWf_foldl | exact hs)

theorem State.memWf_bankRequest {s : State} (u : Use) (ea : Word) (k : MsgKind) (sc : Scope) (ps : List Part) (dst : Option Nat) (size : Nat) (w : Wait) (hs : s.memWf) : (State.bankRequest s u ea k sc ps dst size w).memWf := by
  unfold State.bankRequest
  repeat' first
    | with_reducible assumption
    | with_reducible apply State.memWf_trapProt
    | with_reducible apply State.memWf_waitFor
    | with_reducible apply State.memWf_send
    | with_reducible apply State.memWf_finish
    | with_reducible apply State.memWf_post
    | with_reducible apply State.memWf_sendWaiting
    | with_reducible apply State.memWf_foldl
    | (refine State.memWf_of_stamped (by assumption) ?_)
    | with_reducible apply State.memWf_fst_stamped
    | split
    | (intro _)
    | dsimp only
    | exact hs
    | (dsimp only [State.memWf]; with_reducible apply State.memWf_wf; first | with_reducible apply State.memWf_trapProt | with_reducible apply State.memWf_waitFor | with_reducible apply State.memWf_send | with_reducible apply State.memWf_finish | with_reducible apply State.memWf_post | with_reducible apply State.memWf_sendWaiting | with_reducible apply State.memWf_foldl | exact hs)

theorem State.memWf_atomicAt {s : State} (u : Use) (d : GIdx) (sc : Scope) (op : AtomOp) (ea val cmp : Word) (hs : s.memWf) : (State.atomicAt s u d sc op ea val cmp).memWf := by
  unfold State.atomicAt
  repeat' first
    | with_reducible assumption
    | with_reducible apply State.memWf_access
    | with_reducible apply State.memWf_trapAlign
    | with_reducible apply State.memWf_bankRequest
    | with_reducible apply State.memWf_foldl
    | split
    | (intro _)
    | dsimp only
    | exact hs

theorem State.memWf_amo {s : State} (d a : GIdx) (b : G5Idx) (sc : Scope) (op : AtomOp) (hs : s.memWf) : (State.amo s d a b sc op).memWf := by
  unfold State.amo
  repeat' first
    | with_reducible assumption
    | with_reducible apply State.memWf_issue
    | with_reducible apply State.memWf_atomicAt
    | with_reducible apply State.memWf_foldl
    | split
    | (intro _)
    | dsimp only
    | exact hs

theorem State.memWf_reduction {s : State} (a b : GIdx) (op : AtomOp) (hs : s.memWf) : (State.reduction s a b op).memWf := by
  unfold State.reduction
  repeat' first
    | with_reducible assumption
    | with_reducible apply State.memWf_issue
    | with_reducible apply State.memWf_atomicAt
    | with_reducible apply State.memWf_foldl
    | split
    | (intro _)
    | dsimp only
    | exact hs

theorem State.memWf_bankAt {s : State} (u : Use) (ea : Word) (acc : Acc) (align : Nat) (k : MsgKind) (sc : Scope) (dst : Option Nat) (w : Wait) (hs : s.memWf) : (State.bankAt s u ea acc align k sc dst w).memWf := by
  unfold State.bankAt
  repeat' first
    | with_reducible assumption
    | with_reducible apply State.memWf_accessSeen
    | with_reducible apply State.memWf_trapAlign
    | with_reducible apply State.memWf_bankRequest
    | with_reducible apply State.memWf_foldl
    | split
    | (intro _)
    | dsimp only
    | exact hs

theorem State.memWf_withToken {s : State} (u : Use) (t : Nat) (body : State → State) (hs : s.memWf) (hbody : ∀ (w0 : State), w0.memWf → (body w0).memWf) : (State.withToken s u t body).memWf := by
  unfold State.withToken
  repeat' first
    | with_reducible assumption
    | with_reducible apply State.memWf_trap
    | with_reducible apply State.memWf_trapIll
    | with_reducible apply State.memWf_issue
    | with_reducible apply State.memWf_foldl
    | apply hbody
    | split
    | (intro _)
    | dsimp only
    | exact hs
    | exact hbody

theorem State.memWf_arm {s : State} (u : Use) (i : Nat) (hs : s.memWf) : (State.arm s u i).memWf := by
  unfold State.arm
  repeat' first
    | with_reducible assumption
    | with_reducible apply State.memWf_markG
    | with_reducible apply State.memWf_trap
    | with_reducible apply State.memWf_trapProt
    | with_reducible apply State.memWf_finish
    | with_reducible apply State.memWf_foldl
    | split
    | (intro _)
    | dsimp only
    | exact hs
    | (dsimp only [State.memWf]; with_reducible apply State.memWf_wf; first | with_reducible apply State.memWf_markG | with_reducible apply State.memWf_trap | with_reducible apply State.memWf_trapProt | with_reducible apply State.memWf_finish | with_reducible apply State.memWf_foldl | exact hs)

theorem State.memWf_wakeAddr {s : State} (ea : Word) (acc : Acc) (k : List Part → State) (hs : s.memWf) (hk : ∀ (w0 : List Part), (k w0).memWf) : (State.wakeAddr s ea acc k).memWf := by
  unfold State.wakeAddr
  repeat' first
    | with_reducible assumption
    | with_reducible apply State.memWf_trapProt
    | with_reducible apply State.memWf_accessSeen
    | with_reducible apply State.memWf_trapAlign
    | with_reducible apply State.memWf_foldl
    | apply hk
    | split
    | (intro _)
    | dsimp only
    | exact hs
    | exact hk

theorem State.memWf_freeSlot {s : State} (k i : Nat) (hs : s.memWf) : (State.freeSlot s k i).memWf := by
  unfold State.freeSlot
  repeat' first
    | with_reducible assumption
    | with_reducible apply State.memWf_updCore
    | with_reducible apply State.memWf_foldl
    | split
    | (intro _)
    | dsimp only
    | exact hs
    | (dsimp only [State.memWf]; with_reducible apply State.memWf_wf; first | with_reducible apply State.memWf_updCore | with_reducible apply State.memWf_foldl | exact hs)

theorem State.memWf_answerLevel {s : State} (r : Level) (w : Nat) (hs : s.memWf) : (State.answerLevel s r w).memWf := by
  unfold State.answerLevel
  repeat' first
    | with_reducible assumption
    | with_reducible apply State.memWf_due
    | with_reducible apply State.memWf_setMsg
    | with_reducible apply State.memWf_foldl
    | split
    | (intro _)
    | dsimp only
    | exact hs
    | (dsimp only [State.memWf]; with_reducible apply State.memWf_wf; first | with_reducible apply State.memWf_due | with_reducible apply State.memWf_setMsg | with_reducible apply State.memWf_foldl | exact hs)

theorem State.memWf_revokeKeys {s : State} (job : Nat) (hs : s.memWf) : (State.revokeKeys s job).memWf := by
  unfold State.revokeKeys
  repeat' first
    | with_reducible assumption
    | with_reducible apply State.memWf_due
    | with_reducible apply State.memWf_foldl
    | split
    | (intro _)
    | dsimp only
    | exact hs

theorem State.memWf_endLevel {s : State} (l st : Nat) (hs : s.memWf) : (State.endLevel s l st).memWf := by
  unfold State.endLevel
  repeat' first
    | with_reducible assumption
    | with_reducible apply State.memWf_setLevel
    | with_reducible apply State.memWf_answerLevel
    | with_reducible apply State.memWf_revokeKeys
    | with_reducible apply State.memWf_foldl
    | split
    | (intro _)
    | dsimp only
    | exact hs
    | (dsimp only [State.memWf]; with_reducible apply State.memWf_wf; first | with_reducible apply State.memWf_setLevel | with_reducible apply State.memWf_answerLevel | with_reducible apply State.memWf_revokeKeys | with_reducible apply State.memWf_foldl | exact hs)

theorem State.memWf_sendLevel {s : State} (p l : Nat) (op : LevelOp) (hs : s.memWf) : (State.sendLevel s p l op).memWf := by
  unfold State.sendLevel
  repeat' first
    | with_reducible assumption
    | with_reducible apply State.memWf_send
    | with_reducible apply State.memWf_foldl
    | split
    | (intro _)
    | dsimp only
    | exact hs

theorem State.memWf_settleLevel {s : State} (z0 : Nat) (z1 : Nat) (hs : s.memWf) : (State.settleLevel s z0 z1).memWf := by
  induction z0 generalizing s z1 with
  | zero =>
    unfold State.settleLevel
    repeat' first
      | with_reducible assumption
      | with_reducible apply State.memWf_setLevel
      | with_reducible apply State.memWf_endLevel
      | with_reducible apply State.memWf_sendLevel
      | with_reducible apply State.memWf_foldl
      | split
      | (intro _)
      | dsimp only
      | exact hs
      | (dsimp only [State.memWf]; with_reducible apply State.memWf_wf; first | with_reducible apply State.memWf_setLevel | with_reducible apply State.memWf_endLevel | with_reducible apply State.memWf_sendLevel | with_reducible apply State.memWf_foldl | exact hs)
  | succ n ih =>
    unfold State.settleLevel
    repeat' first
      | (with_reducible apply ih)
      | with_reducible assumption
      | with_reducible apply State.memWf_setLevel
      | with_reducible apply State.memWf_endLevel
      | with_reducible apply State.memWf_sendLevel
      | with_reducible apply State.memWf_foldl
      | split
      | (intro _)
      | dsimp only
      | exact hs
      | (dsimp only [State.memWf]; with_reducible apply State.memWf_wf; first | with_reducible apply State.memWf_setLevel | with_reducible apply State.memWf_endLevel | with_reducible apply State.memWf_sendLevel | with_reducible apply State.memWf_foldl | exact hs)

theorem State.memWf_applyLevel {s : State} (l : Nat) (op : LevelOp) (c : Clock) (hs : s.memWf) : (State.applyLevel s l op c).memWf := by
  unfold State.applyLevel
  repeat' first
    | with_reducible assumption
    | with_reducible apply State.memWf_setLevel
    | with_reducible apply State.memWf_settleLevel
    | with_reducible apply State.memWf_foldl
    | split
    | (intro _)
    | dsimp only
    | exact hs
    | (dsimp only [State.memWf]; with_reducible apply State.memWf_wf; first | with_reducible apply State.memWf_setLevel | with_reducible apply State.memWf_settleLevel | with_reducible apply State.memWf_foldl | exact hs)

theorem State.memWf_updateLevel {s : State} (p l : Nat) (op : LevelOp) (c : Clock) (hs : s.memWf) : (State.updateLevel s p l op c).memWf := by
  unfold State.updateLevel
  repeat' first
    | with_reducible assumption
    | with_reducible apply State.memWf_sendLevel
    | with_reducible apply State.memWf_applyLevel
    | with_reducible apply State.memWf_foldl
    | split
    | (intro _)
    | dsimp only
    | exact hs

theorem State.memWf_countError {s : State} (p l : Nat) (cause : Half) (hs : s.memWf) : (State.countError s p l cause).memWf := by
  unfold State.countError
  repeat' first
    | with_reducible assumption
    | with_reducible apply State.memWf_updateLevel
    | with_reducible apply State.memWf_foldl
    | split
    | (intro _)
    | dsimp only
    | exact hs

theorem State.memWf_checkRun {s : State} (run : Nat) (hs : s.memWf) : (State.checkRun s run).memWf := by
  unfold State.checkRun
  repeat' first
    | with_reducible assumption
    | with_reducible apply State.memWf_endLevel
    | with_reducible apply State.memWf_updateLevel
    | with_reducible apply State.memWf_foldl
    | split
    | (intro _)
    | dsimp only
    | exact hs

theorem State.memWf_checkRunOf {s : State} (prog : Nat) (hs : s.memWf) : (State.checkRunOf s prog).memWf := by
  unfold State.checkRunOf
  repeat' first
    | with_reducible assumption
    | with_reducible apply State.memWf_checkRun
    | with_reducible apply State.memWf_foldl
    | split
    | (intro _)
    | dsimp only
    | exact hs

theorem State.memWf_updLoaded {s : State} (prog : BitVec 32) (f : Program → Program) (hs : s.memWf) : (State.updLoaded s prog f).memWf := by
  unfold State.updLoaded
  repeat' first
    | with_reducible assumption
    | with_reducible apply State.memWf_foldl
    | split
    | (intro _)
    | dsimp only
    | exact hs
    | (dsimp only [State.memWf]; with_reducible apply State.memWf_wf; first | with_reducible apply State.memWf_foldl | exact hs)

theorem State.memWf_park {s : State} (prog : BitVec 32) (ls : List Loc) (hs : s.memWf) : (State.park s prog ls).memWf := by
  unfold State.park
  repeat' first
    | with_reducible assumption
    | with_reducible apply State.memWf_updLoaded
    | with_reducible apply State.memWf_foldl
    | split
    | (intro _)
    | dsimp only
    | exact hs
    | (dsimp only [State.memWf]; with_reducible apply State.memWf_wf; first | with_reducible apply State.memWf_updLoaded | with_reducible apply State.memWf_foldl | exact hs)

theorem State.memWf_unpark {s : State} (prog : BitVec 32) (ls : List Loc) (hs : s.memWf) : (State.unpark s prog ls).memWf := by
  unfold State.unpark
  repeat' first
    | with_reducible assumption
    | with_reducible apply State.memWf_updLoaded
    | with_reducible apply State.memWf_foldl
    | split
    | (intro _)
    | dsimp only
    | exact hs
    | (dsimp only [State.memWf]; with_reducible apply State.memWf_wf; first | with_reducible apply State.memWf_updLoaded | with_reducible apply State.memWf_foldl | exact hs)

theorem State.memWf_addLive {s : State} (p : Nat) (prog : BitVec 32) (hs : s.memWf) : (State.addLive s p prog).memWf := by
  unfold State.addLive
  repeat' first
    | with_reducible assumption
    | with_reducible apply State.memWf_updateLevel
    | with_reducible apply State.memWf_foldl
    | split
    | (intro _)
    | dsimp only
    | exact hs

theorem State.memWf_undoLive {s : State} (p : Nat) (prog : BitVec 32) (hs : s.memWf) : (State.undoLive s p prog).memWf := by
  unfold State.undoLive
  repeat' first
    | with_reducible assumption
    | with_reducible apply State.memWf_updateLevel
    | with_reducible apply State.memWf_foldl
    | split
    | (intro _)
    | dsimp only
    | exact hs

theorem State.memWf_beginInstance {s : State} (c : Nat) (prog : BitVec 32) (hs : s.memWf) : (State.beginInstance s c prog).memWf := by
  unfold State.beginInstance
  repeat' first
    | with_reducible assumption
    | with_reducible apply State.memWf_updLoaded
    | with_reducible apply State.memWf_foldl
    | split
    | (intro _)
    | dsimp only
    | exact hs
    | (dsimp only [State.memWf]; with_reducible apply State.memWf_wf; first | with_reducible apply State.memWf_updLoaded | with_reducible apply State.memWf_foldl | exact hs)

theorem State.memWf_reapInstance {s : State} (c : Nat) (prog : BitVec 32) (hs : s.memWf) : (State.reapInstance s c prog).memWf := by
  unfold State.reapInstance
  repeat' first
    | with_reducible assumption
    | with_reducible apply State.memWf_updLoaded
    | with_reducible apply State.memWf_foldl
    | split
    | (intro _)
    | dsimp only
    | exact hs
    | (dsimp only [State.memWf]; with_reducible apply State.memWf_wf; first | with_reducible apply State.memWf_updLoaded | with_reducible apply State.memWf_foldl | exact hs)

theorem State.memWf_retireChild {s : State} (p : Nat) (prog : BitVec 32) (c : Clock) (hs : s.memWf) : (State.retireChild s p prog c).memWf := by
  unfold State.retireChild
  repeat' first
    | with_reducible assumption
    | with_reducible apply State.memWf_updateLevel
    | with_reducible apply State.memWf_foldl
    | split
    | (intro _)
    | dsimp only
    | exact hs

theorem State.memWf_retireSlug {s : State} (g : Nat) (l : Slug) (c : Clock) (hs : s.memWf) : (State.retireSlug s g l c).memWf := by
  unfold State.retireSlug
  repeat' first
    | with_reducible assumption
    | with_reducible apply State.memWf_freeSlot
    | with_reducible apply State.memWf_retireChild
    | with_reducible apply State.memWf_foldl
    | split
    | (intro _)
    | dsimp only
    | exact hs
    | (dsimp only [State.memWf]; with_reducible apply State.memWf_wf; first | with_reducible apply State.memWf_freeSlot | with_reducible apply State.memWf_retireChild | with_reducible apply State.memWf_foldl | exact hs)

theorem State.memWf_settleConsumers {s : State} (q : Queue) (hs : s.memWf) : (State.settleConsumers s q).memWf := by
  unfold State.settleConsumers
  repeat' first
    | with_reducible assumption
    | with_reducible apply State.memWf_settleLevel
    | with_reducible apply State.memWf_foldl
    | split
    | (intro _)
    | dsimp only
    | exact hs

theorem State.memWf_countTrap {s : State} (p : Nat) (prog : BitVec 32) (t : PendTrap) (hs : s.memWf) : (State.countTrap s p prog t).memWf := by
  unfold State.countTrap
  repeat' first
    | with_reducible assumption
    | with_reducible apply State.memWf_countError
    | with_reducible apply State.memWf_foldl
    | split
    | (intro _)
    | dsimp only
    | exact hs

theorem State.memWf_countTraps {s : State} (c : Nat) (hs : s.memWf) : (State.countTraps s c).memWf := by
  unfold State.countTraps
  repeat' first
    | with_reducible assumption
    | with_reducible apply State.memWf_countTrap
    | with_reducible apply State.memWf_foldl
    | split
    | (intro _)
    | dsimp only
    | exact hs

theorem State.memWf_pendTrap {s : State} (m : Msg) (t : PendTrap) (hs : s.memWf) : (State.pendTrap s m t).memWf := by
  unfold State.pendTrap
  repeat' first
    | with_reducible assumption
    | with_reducible apply State.memWf_updCtx
    | with_reducible apply State.memWf_updCore
    | with_reducible apply State.memWf_countTrap
    | with_reducible apply State.memWf_foldl
    | split
    | (intro _)
    | dsimp only
    | exact hs
    | (dsimp only [State.memWf]; with_reducible apply State.memWf_wf; first | with_reducible apply State.memWf_updCtx | with_reducible apply State.memWf_updCore | with_reducible apply State.memWf_countTrap | with_reducible apply State.memWf_foldl | exact hs)

theorem State.memWf_touch {s : State} (q : Nat) (hs : s.memWf) : (State.touch s q).memWf := by
  unfold State.touch
  repeat' first
    | with_reducible assumption
    | with_reducible apply State.memWf_updDie
    | with_reducible apply State.memWf_foldl
    | split
    | (intro _)
    | dsimp only
    | exact hs
    | (dsimp only [State.memWf]; with_reducible apply State.memWf_wf; first | with_reducible apply State.memWf_updDie | with_reducible apply State.memWf_foldl | exact hs)

theorem State.memWf_bringIn {s : State} (q : Nat) (hs : s.memWf) : (State.bringIn s q).memWf := by
  unfold State.bringIn
  repeat' first
    | with_reducible assumption
    | with_reducible apply State.memWf_updDie
    | with_reducible apply State.memWf_setQueue
    | with_reducible apply State.memWf_dueOnce
    | with_reducible apply State.memWf_foldl
    | split
    | (intro _)
    | dsimp only
    | exact hs
    | (dsimp only [State.memWf]; with_reducible apply State.memWf_wf; first | with_reducible apply State.memWf_updDie | with_reducible apply State.memWf_setQueue | with_reducible apply State.memWf_dueOnce | with_reducible apply State.memWf_foldl | exact hs)

theorem State.memWf_reports {s : State} (q : Nat) (hs : s.memWf) : (State.reports s q).memWf := by
  unfold State.reports
  repeat' first
    | with_reducible assumption
    | with_reducible apply State.memWf_dueOnce
    | with_reducible apply State.memWf_foldl
    | split
    | (intro _)
    | dsimp only
    | exact hs
    | (dsimp only [State.memWf]; with_reducible apply State.memWf_wf; first | with_reducible apply State.memWf_dueOnce | with_reducible apply State.memWf_foldl | exact hs)

theorem State.memWf_freeCell {s : State} (k : Nat) (hs : s.memWf) : (State.freeCell s k).memWf := by
  unfold State.freeCell
  repeat' first
    | with_reducible assumption
    | with_reducible apply State.memWf_setBytes
    | with_reducible apply State.memWf_foldl
    | (refine State.memWf_of_free (by assumption) ?_)
    | with_reducible apply State.memWf_fst_free
    | split
    | (intro _)
    | dsimp only
    | exact hs

theorem State.memWf_freeCells {s : State} (k : Nat) (z0 : Nat) (hs : s.memWf) : (State.freeCells s k z0).memWf := by
  induction z0 generalizing s k with
  | zero =>
    unfold State.freeCells
    repeat' first
      | with_reducible assumption
      | with_reducible apply State.memWf_freeCell
      | with_reducible apply State.memWf_foldl
      | split
      | (intro _)
      | dsimp only
      | exact hs
  | succ n ih =>
    unfold State.freeCells
    repeat' first
      | (with_reducible apply ih)
      | with_reducible assumption
      | with_reducible apply State.memWf_freeCell
      | with_reducible apply State.memWf_foldl
      | split
      | (intro _)
      | dsimp only
      | exact hs

theorem State.memWf_dropPage {s : State} (p job base : Nat) (hs : s.memWf) : (State.dropPage s p job base).memWf := by
  unfold State.dropPage
  repeat' first
    | with_reducible assumption
    | with_reducible apply State.memWf_foldl
    | split
    | (intro _)
    | dsimp only
    | exact hs
    | (dsimp only [State.memWf]; with_reducible apply State.memWf_wf; first | with_reducible apply State.memWf_foldl | exact hs)

theorem State.memWf_returnPage {s : State} (p job va : Nat) (hs : s.memWf) : (State.returnPage s p job va).memWf := by
  unfold State.returnPage
  repeat' first
    | with_reducible assumption
    | with_reducible apply State.memWf_setBytes
    | with_reducible apply State.memWf_freeCells
    | with_reducible apply State.memWf_dropPage
    | with_reducible apply State.memWf_foldl
    | split
    | (intro _)
    | dsimp only
    | exact hs
    | (dsimp only [State.memWf]; with_reducible apply State.memWf_wf; first | with_reducible apply State.memWf_setBytes | with_reducible apply State.memWf_freeCells | with_reducible apply State.memWf_dropPage | with_reducible apply State.memWf_foldl | exact hs)

theorem State.memWf_returnPages {s : State} (p job va : Nat) (z0 : Nat) (hs : s.memWf) : (State.returnPages s p job va z0).memWf := by
  induction z0 generalizing s p job va with
  | zero =>
    unfold State.returnPages
    repeat' first
      | with_reducible assumption
      | with_reducible apply State.memWf_returnPage
      | with_reducible apply State.memWf_foldl
      | split
      | (intro _)
      | dsimp only
      | exact hs
  | succ n ih =>
    unfold State.returnPages
    repeat' first
      | (with_reducible apply ih)
      | with_reducible assumption
      | with_reducible apply State.memWf_returnPage
      | with_reducible apply State.memWf_foldl
      | split
      | (intro _)
      | dsimp only
      | exact hs

theorem State.memWf_returnRing {s : State} (q : Nat) (hs : s.memWf) : (State.returnRing s q).memWf := by
  unfold State.returnRing
  repeat' first
    | with_reducible assumption
    | with_reducible apply State.memWf_setQueue
    | with_reducible apply State.memWf_returnPages
    | with_reducible apply State.memWf_foldl
    | split
    | (intro _)
    | dsimp only
    | exact hs
    | (dsimp only [State.memWf]; with_reducible apply State.memWf_wf; first | with_reducible apply State.memWf_setQueue | with_reducible apply State.memWf_returnPages | with_reducible apply State.memWf_foldl | exact hs)

theorem State.memWf_callDispatcher {s : State} (g : Nat) (hs : s.memWf) : (State.callDispatcher s g).memWf := by
  unfold State.callDispatcher
  repeat' first
    | with_reducible assumption
    | with_reducible apply State.memWf_dueOnce
    | with_reducible apply State.memWf_foldl
    | split
    | (intro _)
    | dsimp only
    | exact hs

theorem State.memWf_serviceTakes {s : State} (p job : Nat) (edition : Bool) (r : List Byte) (hs : s.memWf) : (State.serviceTakes s p job edition r).memWf := by
  unfold State.serviceTakes
  repeat' first
    | with_reducible assumption
    | with_reducible apply State.memWf_due
    | with_reducible apply State.memWf_foldl
    | (refine State.memWf_of_free (by assumption) ?_)
    | with_reducible apply State.memWf_fst_free
    | split
    | (intro _)
    | dsimp only
    | exact hs

theorem State.memWf_serviceDue {s : State} (q : Nat) (hs : s.memWf) : (State.serviceDue s q).memWf := by
  unfold State.serviceDue
  repeat' first
    | with_reducible assumption
    | with_reducible apply State.memWf_serviceTakes
    | with_reducible apply State.memWf_foldl
    | split
    | (intro _)
    | dsimp only
    | exact hs
    | (dsimp only [State.memWf]; with_reducible apply State.memWf_wf; first | with_reducible apply State.memWf_serviceTakes | with_reducible apply State.memWf_foldl | exact hs)

theorem State.memWf_changed {s : State} (q : Nat) (hs : s.memWf) : (State.changed s q).memWf := by
  unfold State.changed
  repeat' first
    | with_reducible assumption
    | with_reducible apply State.memWf_reports
    | with_reducible apply State.memWf_returnRing
    | with_reducible apply State.memWf_callDispatcher
    | with_reducible apply State.memWf_serviceDue
    | with_reducible apply State.memWf_foldl
    | split
    | (intro _)
    | dsimp only
    | exact hs

theorem State.memWf_popAnswer {s : State} (m : Msg) (val : Nat) (st : Word) (c : Clock) (hs : s.memWf) : (State.popAnswer s m val st c).memWf := by
  unfold State.popAnswer
  repeat' first
    | with_reducible assumption
    | with_reducible apply State.memWf_due
    | with_reducible apply State.memWf_setMsg
    | with_reducible apply State.memWf_foldl
    | split
    | (intro _)
    | dsimp only
    | exact hs
    | (dsimp only [State.memWf]; with_reducible apply State.memWf_wf; first | with_reducible apply State.memWf_due | with_reducible apply State.memWf_setMsg | with_reducible apply State.memWf_foldl | exact hs)

theorem State.memWf_popRefuse {s : State} (m : Msg) (q : Nat) (cause : Byte) (info : Nat) (hs : s.memWf) : (State.popRefuse s m q cause info).memWf := by
  unfold State.popRefuse
  repeat' first
    | with_reducible assumption
    | with_reducible apply State.memWf_due
    | with_reducible apply State.memWf_setMsg
    | with_reducible apply State.memWf_foldl
    | split
    | (intro _)
    | dsimp only
    | exact hs
    | (dsimp only [State.memWf]; with_reducible apply State.memWf_wf; first | with_reducible apply State.memWf_due | with_reducible apply State.memWf_setMsg | with_reducible apply State.memWf_foldl | exact hs)

theorem State.memWf_tookEntry {s : State} (q : Nat) (e : QEntry) (prog : Nat) (hs : s.memWf) : (State.tookEntry s q e prog).memWf := by
  unfold State.tookEntry
  repeat' first
    | with_reducible assumption
    | with_reducible apply State.memWf_checkRunOf
    | with_reducible apply State.memWf_touch
    | with_reducible apply State.memWf_foldl
    | split
    | (intro _)
    | dsimp only
    | exact hs

theorem State.memWf_popEntry {s : State} (m : Msg) (q : Nat) (e : QEntry) {taken : State} (hs : s.memWf) (htaken : taken.memWf) : (State.popEntry s m q e taken).memWf := by
  unfold State.popEntry
  repeat' first
    | with_reducible assumption
    | with_reducible apply State.memWf_popAnswer
    | with_reducible apply State.memWf_popRefuse
    | with_reducible apply State.memWf_tookEntry
    | with_reducible apply State.memWf_foldl
    | apply htaken
    | split
    | (intro _)
    | dsimp only
    | exact hs
    | exact htaken

theorem State.memWf_takeWaiting {s : State} (q id : Nat) (e : QEntry) (P : Half) (hs : s.memWf) : (State.takeWaiting s q id e P).memWf := by
  unfold State.takeWaiting
  repeat' first
    | with_reducible assumption
    | with_reducible apply State.memWf_setQueue
    | with_reducible apply State.memWf_dropMsg
    | with_reducible apply State.memWf_settleConsumers
    | with_reducible apply State.memWf_foldl
    | split
    | (intro _)
    | dsimp only
    | exact hs
    | (dsimp only [State.memWf]; with_reducible apply State.memWf_wf; first | with_reducible apply State.memWf_setQueue | with_reducible apply State.memWf_dropMsg | with_reducible apply State.memWf_settleConsumers | with_reducible apply State.memWf_foldl | exact hs)

theorem State.memWf_bindGot {s : State} (m : Msg) (g i : Nat) (e : Option QEntry) (hs : s.memWf) : (State.bindGot s m g i e).memWf := by
  unfold State.bindGot
  repeat' first
    | with_reducible assumption
    | with_reducible apply State.memWf_updGal
    | with_reducible apply State.memWf_due
    | with_reducible apply State.memWf_dropMsg
    | with_reducible apply State.memWf_foldl
    | split
    | (intro _)
    | dsimp only
    | exact hs
    | (dsimp only [State.memWf]; with_reducible apply State.memWf_wf; first | with_reducible apply State.memWf_updGal | with_reducible apply State.memWf_due | with_reducible apply State.memWf_dropMsg | with_reducible apply State.memWf_foldl | exact hs)

theorem State.memWf_of_tryBind {s : State} {m : Msg} {q g i : Nat} {t : State} (e : State.tryBind s m q g i = some t) (hs : s.memWf) : t.memWf := by
  revert e
  unfold State.tryBind
  repeat' first
    | (intro e; cases e; done)
    | (intro e; cases e)
    | dsimp only
    | split
    | with_reducible assumption
    | with_reducible apply State.memWf_setQueue
    | with_reducible apply State.memWf_tookEntry
    | with_reducible apply State.memWf_takeWaiting
    | with_reducible apply State.memWf_bindGot
    | with_reducible apply State.memWf_foldl
    | split
    | dsimp only
    | exact hs
    | (dsimp only [State.memWf]; with_reducible apply State.memWf_wf; first | with_reducible apply State.memWf_setQueue | with_reducible apply State.memWf_tookEntry | with_reducible apply State.memWf_takeWaiting | with_reducible apply State.memWf_bindGot | with_reducible apply State.memWf_foldl | exact hs)

theorem State.memWf_of_tryPop {s : State} {m : Msg} {q : Nat} {t : State} (e : State.tryPop s m q = some t) (hs : s.memWf) : t.memWf := by
  revert e
  unfold State.tryPop
  repeat' first
    | (intro e; refine State.memWf_of_tryBind e ?_)
    | (intro e; cases e; done)
    | (intro e; cases e)
    | dsimp only
    | split
    | with_reducible assumption
    | with_reducible apply State.memWf_setQueue
    | with_reducible apply State.memWf_popAnswer
    | with_reducible apply State.memWf_popRefuse
    | with_reducible apply State.memWf_popEntry
    | with_reducible apply State.memWf_takeWaiting
    | with_reducible apply State.memWf_foldl
    | (refine State.memWf_of_tryBind (by assumption) ?_)
    | split
    | dsimp only
    | exact hs
    | (dsimp only [State.memWf]; with_reducible apply State.memWf_wf; first | with_reducible apply State.memWf_setQueue | with_reducible apply State.memWf_popAnswer | with_reducible apply State.memWf_popRefuse | with_reducible apply State.memWf_popEntry | with_reducible apply State.memWf_takeWaiting | with_reducible apply State.memWf_foldl | exact hs)

theorem State.memWf_discardEntry {s : State} (q : Nat) (e : QEntry) (hs : s.memWf) : (State.discardEntry s q e).memWf := by
  unfold State.discardEntry
  repeat' first
    | with_reducible assumption
    | with_reducible apply State.memWf_retireSlug
    | with_reducible apply State.memWf_foldl
    | split
    | (intro _)
    | dsimp only
    | exact hs

theorem State.memWf_enterQueue {s : State} (q : Nat) (e : QEntry) (hs : s.memWf) : (State.enterQueue s q e).memWf := by
  unfold State.enterQueue
  repeat' first
    | with_reducible assumption
    | with_reducible apply State.memWf_updGal
    | with_reducible apply State.memWf_setQueue
    | with_reducible apply State.memWf_settleConsumers
    | with_reducible apply State.memWf_touch
    | with_reducible apply State.memWf_foldl
    | split
    | (intro _)
    | dsimp only
    | exact hs
    | (dsimp only [State.memWf]; with_reducible apply State.memWf_wf; first | with_reducible apply State.memWf_updGal | with_reducible apply State.memWf_setQueue | with_reducible apply State.memWf_settleConsumers | with_reducible apply State.memWf_touch | with_reducible apply State.memWf_foldl | exact hs)

theorem State.memWf_letIn {s : State} (q : Nat) (z0 : Nat) (hs : s.memWf) : (State.letIn s q z0).memWf := by
  induction z0 generalizing s q with
  | zero =>
    unfold State.letIn
    repeat' first
      | with_reducible assumption
      | with_reducible apply State.memWf_setQueue
      | with_reducible apply State.memWf_dropMsg
      | with_reducible apply State.memWf_enterQueue
      | with_reducible apply State.memWf_foldl
      | split
      | (intro _)
      | dsimp only
      | exact hs
      | (dsimp only [State.memWf]; with_reducible apply State.memWf_wf; first | with_reducible apply State.memWf_setQueue | with_reducible apply State.memWf_dropMsg | with_reducible apply State.memWf_enterQueue | with_reducible apply State.memWf_foldl | exact hs)
  | succ n ih =>
    unfold State.letIn
    repeat' first
      | (with_reducible apply ih)
      | with_reducible assumption
      | with_reducible apply State.memWf_setQueue
      | with_reducible apply State.memWf_dropMsg
      | with_reducible apply State.memWf_enterQueue
      | with_reducible apply State.memWf_foldl
      | split
      | (intro _)
      | dsimp only
      | exact hs
      | (dsimp only [State.memWf]; with_reducible apply State.memWf_wf; first | with_reducible apply State.memWf_setQueue | with_reducible apply State.memWf_dropMsg | with_reducible apply State.memWf_enterQueue | with_reducible apply State.memWf_foldl | exact hs)

theorem State.memWf_servePops {s : State} (q : Nat) (z0 : List Nat) (hs : s.memWf) : (State.servePops s q z0).memWf := by
  induction z0 generalizing s q with
  | nil =>
    unfold State.servePops
    repeat' first
      | with_reducible assumption
      | with_reducible apply State.memWf_setQueue
      | with_reducible apply State.memWf_foldl
      | (refine State.memWf_of_tryPop (by assumption) ?_)
      | split
      | (intro _)
      | dsimp only
      | exact hs
      | (dsimp only [State.memWf]; with_reducible apply State.memWf_wf; first | with_reducible apply State.memWf_setQueue | with_reducible apply State.memWf_foldl | exact hs)
  | cons a r ih =>
    unfold State.servePops
    repeat' first
      | (with_reducible apply ih)
      | with_reducible assumption
      | with_reducible apply State.memWf_setQueue
      | with_reducible apply State.memWf_foldl
      | (refine State.memWf_of_tryPop (by assumption) ?_)
      | split
      | (intro _)
      | dsimp only
      | exact hs
      | (dsimp only [State.memWf]; with_reducible apply State.memWf_wf; first | with_reducible apply State.memWf_setQueue | with_reducible apply State.memWf_foldl | exact hs)

theorem State.memWf_serve {s : State} (q : Nat) (z0 : Nat) (hs : s.memWf) : (State.serve s q z0).memWf := by
  induction z0 generalizing s q with
  | zero =>
    unfold State.serve
    repeat' first
      | with_reducible assumption
      | with_reducible apply State.memWf_letIn
      | with_reducible apply State.memWf_servePops
      | with_reducible apply State.memWf_foldl
      | split
      | (intro _)
      | dsimp only
      | exact hs
  | succ n ih =>
    unfold State.serve
    repeat' first
      | (with_reducible apply ih)
      | with_reducible assumption
      | with_reducible apply State.memWf_letIn
      | with_reducible apply State.memWf_servePops
      | with_reducible apply State.memWf_foldl
      | split
      | (intro _)
      | dsimp only
      | exact hs

theorem State.memWf_settleQueue {s : State} (q : Nat) (hs : s.memWf) : (State.settleQueue s q).memWf := by
  unfold State.settleQueue
  repeat' first
    | with_reducible assumption
    | with_reducible apply State.memWf_changed
    | with_reducible apply State.memWf_serve
    | with_reducible apply State.memWf_foldl
    | split
    | (intro _)
    | dsimp only
    | exact hs

theorem State.memWf_placePush {s : State} (m : Msg) (q : Nat) (e : QEntry) (hs : s.memWf) : (State.placePush s m q e).memWf := by
  unfold State.placePush
  repeat' first
    | with_reducible assumption
    | with_reducible apply State.memWf_setQueue
    | with_reducible apply State.memWf_count
    | with_reducible apply State.memWf_setMsg
    | with_reducible apply State.memWf_dropMsg
    | with_reducible apply State.memWf_enterQueue
    | with_reducible apply State.memWf_settleQueue
    | with_reducible apply State.memWf_foldl
    | split
    | (intro _)
    | dsimp only
    | exact hs
    | (dsimp only [State.memWf]; with_reducible apply State.memWf_wf; first | with_reducible apply State.memWf_setQueue | with_reducible apply State.memWf_count | with_reducible apply State.memWf_setMsg | with_reducible apply State.memWf_dropMsg | with_reducible apply State.memWf_enterQueue | with_reducible apply State.memWf_settleQueue | with_reducible apply State.memWf_foldl | exact hs)

theorem State.memWf_afterColophon {s : State} (m : Msg) (q : Nat) (hs : s.memWf) : (State.afterColophon s m q).memWf := by
  unfold State.afterColophon
  repeat' first
    | with_reducible assumption
    | with_reducible apply State.memWf_dropMsg
    | with_reducible apply State.memWf_pendTrap
    | with_reducible apply State.memWf_foldl
    | split
    | (intro _)
    | dsimp only
    | exact hs

theorem State.memWf_pushAtHome {s : State} (m : Msg) (q : Nat) (e : QEntry) (hs : s.memWf) : (State.pushAtHome s m q e).memWf := by
  unfold State.pushAtHome
  repeat' first
    | with_reducible assumption
    | with_reducible apply State.memWf_setQueue
    | with_reducible apply State.memWf_dropMsg
    | with_reducible apply State.memWf_discardEntry
    | with_reducible apply State.memWf_placePush
    | with_reducible apply State.memWf_afterColophon
    | with_reducible apply State.memWf_foldl
    | split
    | (intro _)
    | dsimp only
    | exact hs
    | (dsimp only [State.memWf]; with_reducible apply State.memWf_wf; first | with_reducible apply State.memWf_setQueue | with_reducible apply State.memWf_dropMsg | with_reducible apply State.memWf_discardEntry | with_reducible apply State.memWf_placePush | with_reducible apply State.memWf_afterColophon | with_reducible apply State.memWf_foldl | exact hs)

theorem State.memWf_machinePush {s : State} (src : Nat) (prog : BitVec 32) (q : Nat) (e : QEntry) (hs : s.memWf) : (State.machinePush s src prog q e).memWf := by
  unfold State.machinePush
  repeat' first
    | with_reducible assumption
    | with_reducible apply State.memWf_pushAtHome
    | with_reducible apply State.memWf_foldl
    | split
    | (intro _)
    | dsimp only
    | exact hs
    | (dsimp only [State.memWf]; with_reducible apply State.memWf_wf; first | with_reducible apply State.memWf_pushAtHome | with_reducible apply State.memWf_foldl | exact hs)

theorem State.memWf_pushOrDrop {s : State} (src : Nat) (prog : BitVec 32) (q : Nat) (e : QEntry) (hs : s.memWf) : (State.pushOrDrop s src prog q e).memWf := by
  unfold State.pushOrDrop
  repeat' first
    | with_reducible assumption
    | with_reducible apply State.memWf_setQueue
    | with_reducible apply State.memWf_dropMsg
    | with_reducible apply State.memWf_machinePush
    | with_reducible apply State.memWf_foldl
    | split
    | (intro _)
    | dsimp only
    | exact hs
    | (dsimp only [State.memWf]; with_reducible apply State.memWf_wf; first | with_reducible apply State.memWf_setQueue | with_reducible apply State.memWf_dropMsg | with_reducible apply State.memWf_machinePush | with_reducible apply State.memWf_foldl | exact hs)

theorem State.memWf_pushStatus {s : State} (p f cause : Nat) (prog : BitVec 32) (a0 a1 : Word) (hs : s.memWf) : (State.pushStatus s p f cause prog a0 a1).memWf := by
  unfold State.pushStatus
  repeat' first
    | with_reducible assumption
    | with_reducible apply State.memWf_pushOrDrop
    | with_reducible apply State.memWf_foldl
    | split
    | (intro _)
    | dsimp only
    | exact hs

theorem State.memWf_discardPushes {s : State} (q : Nat) (z0 : List Nat) (hs : s.memWf) : (State.discardPushes s q z0).memWf := by
  induction z0 generalizing s q with
  | nil =>
    unfold State.discardPushes
    repeat' first
      | with_reducible assumption
      | with_reducible apply State.memWf_dropMsg
      | with_reducible apply State.memWf_discardEntry
      | with_reducible apply State.memWf_foldl
      | split
      | (intro _)
      | dsimp only
      | exact hs
      | (dsimp only [State.memWf]; with_reducible apply State.memWf_wf; first | with_reducible apply State.memWf_dropMsg | with_reducible apply State.memWf_discardEntry | with_reducible apply State.memWf_foldl | exact hs)
  | cons a r ih =>
    unfold State.discardPushes
    repeat' first
      | (with_reducible apply ih)
      | with_reducible assumption
      | with_reducible apply State.memWf_dropMsg
      | with_reducible apply State.memWf_discardEntry
      | with_reducible apply State.memWf_foldl
      | split
      | (intro _)
      | dsimp only
      | exact hs
      | (dsimp only [State.memWf]; with_reducible apply State.memWf_wf; first | with_reducible apply State.memWf_dropMsg | with_reducible apply State.memWf_discardEntry | with_reducible apply State.memWf_foldl | exact hs)

theorem State.memWf_closeQueue {s : State} (q : Nat) (hs : s.memWf) : (State.closeQueue s q).memWf := by
  unfold State.closeQueue
  repeat' first
    | with_reducible assumption
    | with_reducible apply State.memWf_setQueue
    | with_reducible apply State.memWf_settleConsumers
    | with_reducible apply State.memWf_discardEntry
    | with_reducible apply State.memWf_settleQueue
    | with_reducible apply State.memWf_discardPushes
    | with_reducible apply State.memWf_foldl
    | split
    | (intro _)
    | dsimp only
    | exact hs
    | (dsimp only [State.memWf]; with_reducible apply State.memWf_wf; first | with_reducible apply State.memWf_setQueue | with_reducible apply State.memWf_settleConsumers | with_reducible apply State.memWf_discardEntry | with_reducible apply State.memWf_settleQueue | with_reducible apply State.memWf_discardPushes | with_reducible apply State.memWf_foldl | exact hs)

theorem State.memWf_popAtHome {s : State} (m : Msg) (hs : s.memWf) : (State.popAtHome s m).memWf := by
  unfold State.popAtHome
  repeat' first
    | with_reducible assumption
    | with_reducible apply State.memWf_setQueue
    | with_reducible apply State.memWf_due
    | with_reducible apply State.memWf_setMsg
    | with_reducible apply State.memWf_settleQueue
    | with_reducible apply State.memWf_foldl
    | (refine State.memWf_of_tryPop (by assumption) ?_)
    | split
    | (intro _)
    | dsimp only
    | exact hs
    | (dsimp only [State.memWf]; with_reducible apply State.memWf_wf; first | with_reducible apply State.memWf_setQueue | with_reducible apply State.memWf_due | with_reducible apply State.memWf_setMsg | with_reducible apply State.memWf_settleQueue | with_reducible apply State.memWf_foldl | exact hs)

theorem State.memWf_freshEpoch {s : State} (c : Nat) (hs : s.memWf) : (State.freshEpoch s c).memWf := by
  unfold State.freshEpoch
  repeat' first
    | with_reducible assumption
    | with_reducible apply State.memWf_updCtx
    | with_reducible apply State.memWf_foldl
    | split
    | (intro _)
    | dsimp only
    | exact hs
    | (dsimp only [State.memWf]; with_reducible apply State.memWf_wf; first | with_reducible apply State.memWf_updCtx | with_reducible apply State.memWf_foldl | exact hs)

theorem State.memWf_unoccupied {s : State} (c : Nat) (hs : s.memWf) : (State.unoccupied s c).memWf := by
  unfold State.unoccupied
  repeat' first
    | with_reducible assumption
    | with_reducible apply State.memWf_updCtx
    | with_reducible apply State.memWf_callDispatcher
    | with_reducible apply State.memWf_foldl
    | split
    | (intro _)
    | dsimp only
    | exact hs
    | (dsimp only [State.memWf]; with_reducible apply State.memWf_wf; first | with_reducible apply State.memWf_updCtx | with_reducible apply State.memWf_callDispatcher | with_reducible apply State.memWf_foldl | exact hs)

theorem State.memWf_clearWindow {s : State} (c n v d : Nat) (hs : s.memWf) : (State.clearWindow s c n v d).memWf := by
  unfold State.clearWindow
  repeat' first
    | with_reducible assumption
    | with_reducible apply State.memWf_setGReg
    | with_reducible apply State.memWf_setVReg
    | with_reducible apply State.memWf_setDReg
    | with_reducible apply State.memWf_foldl
    | split
    | (intro _)
    | dsimp only
    | exact hs

theorem State.memWf_beginStrand {s : State} (c : Nat) (g : Slug) (n v d : Nat) (cond : Cond) (hs : s.memWf) : (State.beginStrand s c g n v d cond).memWf := by
  unfold State.beginStrand
  repeat' first
    | with_reducible assumption
    | with_reducible apply State.memWf_updCtx
    | with_reducible apply State.memWf_putG
    | with_reducible apply State.memWf_traceEvent
    | with_reducible apply State.memWf_freshEpoch
    | with_reducible apply State.memWf_clearWindow
    | with_reducible apply State.memWf_foldl
    | split
    | (intro _)
    | dsimp only
    | exact hs
    | (dsimp only [State.memWf]; with_reducible apply State.memWf_wf; first | with_reducible apply State.memWf_updCtx | with_reducible apply State.memWf_putG | with_reducible apply State.memWf_traceEvent | with_reducible apply State.memWf_freshEpoch | with_reducible apply State.memWf_clearWindow | with_reducible apply State.memWf_foldl | exact hs)

theorem State.memWf_giveWindows {s : State} (c : Nat) (w : Windows) (hs : s.memWf) : (State.giveWindows s c w).memWf := by
  unfold State.giveWindows
  repeat' first
    | with_reducible assumption
    | with_reducible apply State.memWf_updCtx
    | with_reducible apply State.memWf_foldl
    | split
    | (intro _)
    | dsimp only
    | exact hs
    | (dsimp only [State.memWf]; with_reducible apply State.memWf_wf; first | with_reducible apply State.memWf_updCtx | with_reducible apply State.memWf_foldl | exact hs)

theorem State.memWf_clearArms {s : State} (c : Nat) (hs : s.memWf) : (State.clearArms s c).memWf := by
  unfold State.clearArms
  repeat' first
    | with_reducible assumption
    | with_reducible apply State.memWf_markG
    | with_reducible apply State.memWf_foldl
    | split
    | (intro _)
    | dsimp only
    | exact hs

theorem State.memWf_traceLeave {s : State} (c : Nat) (hs : s.memWf) : (State.traceLeave s c).memWf := by
  unfold State.traceLeave
  repeat' first
    | with_reducible assumption
    | with_reducible apply State.memWf_traceEvent
    | with_reducible apply State.memWf_foldl
    | split
    | (intro _)
    | dsimp only
    | exact hs

theorem State.memWf_leave {s : State} (c : Nat) (cond : Cond) (hs : s.memWf) : (State.leave s c cond).memWf := by
  unfold State.leave
  repeat' first
    | with_reducible assumption
    | with_reducible apply State.memWf_updCtx
    | with_reducible apply State.memWf_freshEpoch
    | with_reducible apply State.memWf_clearArms
    | with_reducible apply State.memWf_traceLeave
    | with_reducible apply State.memWf_foldl
    | split
    | (intro _)
    | dsimp only
    | exact hs
    | (dsimp only [State.memWf]; with_reducible apply State.memWf_wf; first | with_reducible apply State.memWf_updCtx | with_reducible apply State.memWf_freshEpoch | with_reducible apply State.memWf_clearArms | with_reducible apply State.memWf_traceLeave | with_reducible apply State.memWf_foldl | exact hs)

theorem State.memWf_leavePooled {s : State} (c : Nat) (hs : s.memWf) : (State.leavePooled s c).memWf := by
  unfold State.leavePooled
  repeat' first
    | with_reducible assumption
    | with_reducible apply State.memWf_unoccupied
    | with_reducible apply State.memWf_leave
    | with_reducible apply State.memWf_foldl
    | split
    | (intro _)
    | dsimp only
    | exact hs

theorem State.memWf_releaseWindows {s : State} (c : Nat) (hs : s.memWf) : (State.releaseWindows s c).memWf := by
  unfold State.releaseWindows
  repeat' first
    | with_reducible assumption
    | with_reducible apply State.memWf_updCtx
    | with_reducible apply State.memWf_foldl
    | split
    | (intro _)
    | dsimp only
    | exact hs
    | (dsimp only [State.memWf]; with_reducible apply State.memWf_wf; first | with_reducible apply State.memWf_updCtx | with_reducible apply State.memWf_foldl | exact hs)

theorem State.memWf_slugRead {s : State} {k : State} (hs : s.memWf) (hk : k.memWf) : (State.slugRead s k).memWf := by
  unfold State.slugRead
  repeat' first
    | with_reducible assumption
    | with_reducible apply State.memWf_trap
    | with_reducible apply State.memWf_foldl
    | apply hk
    | split
    | (intro _)
    | dsimp only
    | exact hs
    | exact hk
    | (dsimp only [State.memWf]; with_reducible apply State.memWf_wf; first | with_reducible apply State.memWf_trap | with_reducible apply State.memWf_foldl | exact hs)

theorem State.memWf_doneReservations {s : State} (c : Nat) (hs : s.memWf) : (State.doneReservations s c).memWf := by
  unfold State.doneReservations
  repeat' first
    | with_reducible assumption
    | with_reducible apply State.memWf_send
    | with_reducible apply State.memWf_foldl
    | (refine State.memWf_of_stampedFor (by assumption) ?_)
    | with_reducible apply State.memWf_fst_stampedFor
    | split
    | (intro _)
    | dsimp only
    | exact hs
    | (dsimp only [State.memWf]; with_reducible apply State.memWf_wf; first | with_reducible apply State.memWf_send | with_reducible apply State.memWf_foldl | exact hs)

theorem State.memWf_withdrawMsg {s : State} (m : Msg) (hs : s.memWf) : (State.withdrawMsg s m).memWf := by
  unfold State.withdrawMsg
  repeat' first
    | with_reducible assumption
    | with_reducible apply State.memWf_updPkg
    | with_reducible apply State.memWf_setQueue
    | with_reducible apply State.memWf_markG
    | with_reducible apply State.memWf_markV
    | with_reducible apply State.memWf_dropMsg
    | with_reducible apply State.memWf_reports
    | with_reducible apply State.memWf_foldl
    | split
    | (intro _)
    | dsimp only
    | exact hs
    | (dsimp only [State.memWf]; with_reducible apply State.memWf_wf; first | with_reducible apply State.memWf_updPkg | with_reducible apply State.memWf_setQueue | with_reducible apply State.memWf_markG | with_reducible apply State.memWf_markV | with_reducible apply State.memWf_dropMsg | with_reducible apply State.memWf_reports | with_reducible apply State.memWf_foldl | exact hs)

theorem State.memWf_cancelMsg {s : State} (m : Msg) (hs : s.memWf) : (State.cancelMsg s m).memWf := by
  have w : (s.withdrawMsg m).memWf := State.memWf_withdrawMsg m hs
  have d : (s.setMsg { m with drop := true }).memWf := State.memWf_setMsg _ hs
  have p (b : Bool) : State.memWf (if b = true then s.setMsg { m with drop := true } else s) := by cases b <;> assumption
  unfold State.cancelMsg
  generalize m.kind = k
  cases k <;> dsimp only
  all_goals repeat' first
    | exact w
    | exact d
    | exact hs
    | exact p _
    | split

theorem State.memWf_abandonSave {s : State} (c : Nat) (hs : s.memWf) : (State.abandonSave s c).memWf := by
  unfold State.abandonSave
  repeat' first
    | with_reducible assumption
    | with_reducible apply State.memWf_freeSlot
    | with_reducible apply State.memWf_foldl
    | split
    | (intro _)
    | dsimp only
    | exact hs
    | (dsimp only [State.memWf]; with_reducible apply State.memWf_wf; first | with_reducible apply State.memWf_freeSlot | with_reducible apply State.memWf_foldl | exact hs)

theorem State.memWf_withdraw {s : State} (c : Nat) (hs : s.memWf) : (State.withdraw s c).memWf := by
  unfold State.withdraw
  repeat' first
    | with_reducible assumption
    | with_reducible apply State.memWf_updCtx
    | with_reducible apply State.memWf_cancelMsg
    | with_reducible apply State.memWf_abandonSave
    | with_reducible apply State.memWf_foldl
    | split
    | (intro _)
    | dsimp only
    | exact hs
    | (dsimp only [State.memWf]; with_reducible apply State.memWf_wf; first | with_reducible apply State.memWf_updCtx | with_reducible apply State.memWf_cancelMsg | with_reducible apply State.memWf_abandonSave | with_reducible apply State.memWf_foldl | exact hs)

theorem State.memWf_loseStrand {s : State} (c slot : Nat) (prog : BitVec 32) (hs : s.memWf) : (State.loseStrand s c slot prog).memWf := by
  unfold State.loseStrand
  repeat' first
    | with_reducible assumption
    | with_reducible apply State.memWf_updCore
    | with_reducible apply State.memWf_countError
    | with_reducible apply State.memWf_retireChild
    | with_reducible apply State.memWf_pushStatus
    | with_reducible apply State.memWf_foldl
    | split
    | (intro _)
    | dsimp only
    | exact hs
    | (dsimp only [State.memWf]; with_reducible apply State.memWf_wf; first | with_reducible apply State.memWf_updCore | with_reducible apply State.memWf_countError | with_reducible apply State.memWf_retireChild | with_reducible apply State.memWf_pushStatus | with_reducible apply State.memWf_foldl | exact hs)

theorem State.memWf_undoBlocked {s : State} (c : Nat) (hs : s.memWf) : (State.undoBlocked s c).memWf := by
  unfold State.undoBlocked
  repeat' first
    | with_reducible assumption
    | with_reducible apply State.memWf_updCtx
    | with_reducible apply State.memWf_withdrawMsg
    | with_reducible apply State.memWf_foldl
    | split
    | (intro _)
    | dsimp only
    | exact hs
    | (dsimp only [State.memWf]; with_reducible apply State.memWf_wf; first | with_reducible apply State.memWf_updCtx | with_reducible apply State.memWf_withdrawMsg | with_reducible apply State.memWf_foldl | exact hs)

theorem State.memWf_homeSlug {s : State} (c : Nat) (w : Wait) (g : Slug) (q : Nat) (prog : BitVec 32) (hs : s.memWf) : (State.homeSlug s c w g q prog).memWf := by
  unfold State.homeSlug
  repeat' first
    | with_reducible assumption
    | with_reducible apply State.memWf_updDie
    | with_reducible apply State.memWf_machinePush
    | with_reducible apply State.memWf_foldl
    | split
    | (intro _)
    | dsimp only
    | exact hs
    | (dsimp only [State.memWf]; with_reducible apply State.memWf_wf; first | with_reducible apply State.memWf_updDie | with_reducible apply State.memWf_machinePush | with_reducible apply State.memWf_foldl | exact hs)

theorem State.memWf_saveStrand {s : State} (c : Nat) (hs : s.memWf) : (State.saveStrand s c).memWf := by
  unfold State.saveStrand
  repeat' first
    | with_reducible assumption
    | with_reducible apply State.memWf_updCore
    | with_reducible apply State.memWf_setBytes
    | with_reducible apply State.memWf_leavePooled
    | with_reducible apply State.memWf_loseStrand
    | with_reducible apply State.memWf_homeSlug
    | with_reducible apply State.memWf_foldl
    | split
    | (intro _)
    | dsimp only
    | exact hs
    | (dsimp only [State.memWf]; with_reducible apply State.memWf_wf; first | with_reducible apply State.memWf_updCore | with_reducible apply State.memWf_setBytes | with_reducible apply State.memWf_leavePooled | with_reducible apply State.memWf_loseStrand | with_reducible apply State.memWf_homeSlug | with_reducible apply State.memWf_foldl | exact hs)

theorem State.memWf_restoreWindow {s : State} (c cell n v d : Nat) (hs : s.memWf) : (State.restoreWindow s c cell n v d).memWf := by
  unfold State.restoreWindow
  repeat' first
    | with_reducible assumption
    | with_reducible apply State.memWf_setGReg
    | with_reducible apply State.memWf_setVReg
    | with_reducible apply State.memWf_setDReg
    | with_reducible apply State.memWf_foldl
    | split
    | (intro _)
    | dsimp only
    | exact hs

theorem State.memWf_reportSlots {s : State} (c : Nat) (hs : s.memWf) : (State.reportSlots s c).memWf := by
  unfold State.reportSlots
  repeat' first
    | with_reducible assumption
    | with_reducible apply State.memWf_dueOnce
    | with_reducible apply State.memWf_foldl
    | split
    | (intro _)
    | dsimp only
    | exact hs

theorem State.memWf_restoreStrand {s : State} (c i : Nat) (g : Slug) (hs : s.memWf) : (State.restoreStrand s c i g).memWf := by
  unfold State.restoreStrand
  repeat' first
    | with_reducible assumption
    | with_reducible apply State.memWf_updCtx
    | with_reducible apply State.memWf_traceEvent
    | with_reducible apply State.memWf_freeSlot
    | with_reducible apply State.memWf_loseStrand
    | with_reducible apply State.memWf_restoreWindow
    | with_reducible apply State.memWf_reportSlots
    | with_reducible apply State.memWf_foldl
    | split
    | (intro _)
    | dsimp only
    | exact hs
    | (dsimp only [State.memWf]; with_reducible apply State.memWf_wf; first | with_reducible apply State.memWf_updCtx | with_reducible apply State.memWf_traceEvent | with_reducible apply State.memWf_freeSlot | with_reducible apply State.memWf_loseStrand | with_reducible apply State.memWf_restoreWindow | with_reducible apply State.memWf_reportSlots | with_reducible apply State.memWf_foldl | exact hs)

theorem State.memWf_takeSlug {s : State} (g : Nat) (x : Cand) (hs : s.memWf) : (State.takeSlug s g x).memWf := by
  unfold State.takeSlug
  repeat' first
    | with_reducible assumption
    | with_reducible apply State.memWf_updGal
    | with_reducible apply State.memWf_setQueue
    | with_reducible apply State.memWf_touch
    | with_reducible apply State.memWf_takeWaiting
    | with_reducible apply State.memWf_settleQueue
    | with_reducible apply State.memWf_foldl
    | split
    | (intro _)
    | dsimp only
    | exact hs
    | (dsimp only [State.memWf]; with_reducible apply State.memWf_wf; first | with_reducible apply State.memWf_updGal | with_reducible apply State.memWf_setQueue | with_reducible apply State.memWf_touch | with_reducible apply State.memWf_takeWaiting | with_reducible apply State.memWf_settleQueue | with_reducible apply State.memWf_foldl | exact hs)

theorem State.memWf_discardSlug {s : State} (g : Nat) (x : Cand) (hs : s.memWf) : (State.discardSlug s g x).memWf := by
  unfold State.discardSlug
  repeat' first
    | with_reducible assumption
    | with_reducible apply State.memWf_countError
    | with_reducible apply State.memWf_retireChild
    | with_reducible apply State.memWf_pushStatus
    | with_reducible apply State.memWf_takeSlug
    | with_reducible apply State.memWf_foldl
    | split
    | (intro _)
    | dsimp only
    | exact hs

theorem State.memWf_place {s : State} (g c : Nat) (x : Cand) (hs : s.memWf) : (State.place s g c x).memWf := by
  unfold State.place
  repeat' first
    | with_reducible assumption
    | with_reducible apply State.memWf_learn
    | with_reducible apply State.memWf_beginStrand
    | with_reducible apply State.memWf_restoreStrand
    | with_reducible apply State.memWf_takeSlug
    | with_reducible apply State.memWf_foldl
    | split
    | (intro _)
    | dsimp only
    | exact hs
    | (dsimp only [State.memWf]; with_reducible apply State.memWf_wf; first | with_reducible apply State.memWf_learn | with_reducible apply State.memWf_beginStrand | with_reducible apply State.memWf_restoreStrand | with_reducible apply State.memWf_takeSlug | with_reducible apply State.memWf_foldl | exact hs)

theorem State.memWf_lateRecord {s : State} (g : Nat) (l : Slug) (hs : s.memWf) : (State.lateRecord s g l).memWf := by
  unfold State.lateRecord
  repeat' first
    | with_reducible assumption
    | with_reducible apply State.memWf_updateLevel
    | with_reducible apply State.memWf_pushStatus
    | with_reducible apply State.memWf_foldl
    | split
    | (intro _)
    | dsimp only
    | exact hs

theorem State.memWf_dispatch {s : State} (g : Nat) (hs : s.memWf) : (State.dispatch s g).memWf := by
  unfold State.dispatch
  repeat' first
    | with_reducible assumption
    | with_reducible apply State.memWf_updGal
    | with_reducible apply State.memWf_beginSave
    | with_reducible apply State.memWf_callDispatcher
    | with_reducible apply State.memWf_discardSlug
    | with_reducible apply State.memWf_place
    | with_reducible apply State.memWf_lateRecord
    | with_reducible apply State.memWf_foldl
    | split
    | (intro _)
    | dsimp only
    | exact hs
    | (dsimp only [State.memWf]; with_reducible apply State.memWf_wf; first | with_reducible apply State.memWf_updGal | with_reducible apply State.memWf_beginSave | with_reducible apply State.memWf_callDispatcher | with_reducible apply State.memWf_discardSlug | with_reducible apply State.memWf_place | with_reducible apply State.memWf_lateRecord | with_reducible apply State.memWf_foldl | exact hs)

theorem State.memWf_landG {s : State} (m : Msg) (i : Nat) (v : Word) (hs : s.memWf) : (State.landG s m i v).memWf := by
  unfold State.landG
  repeat' first
    | with_reducible assumption
    | with_reducible apply State.memWf_setBytes
    | with_reducible apply State.memWf_putG
    | with_reducible apply State.memWf_markG
    | with_reducible apply State.memWf_send
    | with_reducible apply State.memWf_foldl
    | split
    | (intro _)
    | dsimp only
    | exact hs
    | (dsimp only [State.memWf]; with_reducible apply State.memWf_wf; first | with_reducible apply State.memWf_setBytes | with_reducible apply State.memWf_putG | with_reducible apply State.memWf_markG | with_reducible apply State.memWf_send | with_reducible apply State.memWf_foldl | exact hs)

theorem State.memWf_landV {s : State} (m : Msg) (i : Nat) (v : VWord) (w : Half) (hs : s.memWf) : (State.landV s m i v w).memWf := by
  unfold State.landV
  repeat' first
    | with_reducible assumption
    | with_reducible apply State.memWf_setBytes
    | with_reducible apply State.memWf_putV
    | with_reducible apply State.memWf_markV
    | with_reducible apply State.memWf_foldl
    | split
    | (intro _)
    | dsimp only
    | exact hs
    | (dsimp only [State.memWf]; with_reducible apply State.memWf_wf; first | with_reducible apply State.memWf_setBytes | with_reducible apply State.memWf_putV | with_reducible apply State.memWf_markV | with_reducible apply State.memWf_foldl | exact hs)

theorem State.memWf_landHeld {s : State} (m : Msg) (i : Nat) (v : Word) (hs : s.memWf) : (State.landHeld s m i v).memWf := by
  unfold State.landHeld
  repeat' first
    | with_reducible assumption
    | with_reducible apply State.memWf_updCtx
    | with_reducible apply State.memWf_putG
    | with_reducible apply State.memWf_foldl
    | split
    | (intro _)
    | dsimp only
    | exact hs
    | (dsimp only [State.memWf]; with_reducible apply State.memWf_wf; first | with_reducible apply State.memWf_updCtx | with_reducible apply State.memWf_putG | with_reducible apply State.memWf_foldl | exact hs)

theorem State.memWf_landDest {s : State} (m : Msg) (hs : s.memWf) : (State.landDest s m).memWf := by
  unfold State.landDest
  repeat' first
    | with_reducible assumption
    | with_reducible apply State.memWf_updCtx
    | with_reducible apply State.memWf_landG
    | with_reducible apply State.memWf_landV
    | with_reducible apply State.memWf_landHeld
    | with_reducible apply State.memWf_foldl
    | split
    | (intro _)
    | dsimp only
    | exact hs
    | (dsimp only [State.memWf]; with_reducible apply State.memWf_wf; first | with_reducible apply State.memWf_updCtx | with_reducible apply State.memWf_landG | with_reducible apply State.memWf_landV | with_reducible apply State.memWf_landHeld | with_reducible apply State.memWf_foldl | exact hs)

theorem State.memWf_restoreRegs {s : State} (c : Nat) (rs : List (RC × Nat × Nat)) (hs : s.memWf) : (State.restoreRegs s c rs).memWf := by
  unfold State.restoreRegs
  repeat' first
    | with_reducible assumption
    | with_reducible apply State.memWf_markG
    | with_reducible apply State.memWf_markV
    | with_reducible apply State.memWf_foldl
    | split
    | (intro _)
    | dsimp only
    | exact hs
    | (dsimp only [State.memWf]; with_reducible apply State.memWf_wf; first | with_reducible apply State.memWf_markG | with_reducible apply State.memWf_markV | with_reducible apply State.memWf_foldl | exact hs)

theorem State.memWf_restoreDest {s : State} (m : Msg) (hs : s.memWf) : (State.restoreDest s m).memWf := by
  unfold State.restoreDest
  repeat' first
    | with_reducible assumption
    | with_reducible apply State.memWf_markG
    | with_reducible apply State.memWf_markV
    | with_reducible apply State.memWf_restoreRegs
    | with_reducible apply State.memWf_foldl
    | split
    | (intro _)
    | dsimp only
    | exact hs
    | (dsimp only [State.memWf]; with_reducible apply State.memWf_wf; first | with_reducible apply State.memWf_markG | with_reducible apply State.memWf_markV | with_reducible apply State.memWf_restoreRegs | with_reducible apply State.memWf_foldl | exact hs)

theorem State.memWf_rejoin {s : State} (m : Msg) (hs : s.memWf) : (State.rejoin s m).memWf := by
  unfold State.rejoin
  repeat' first
    | with_reducible assumption
    | with_reducible apply State.memWf_updCtx
    | with_reducible apply State.memWf_foldl
    | split
    | (intro _)
    | dsimp only
    | exact hs
    | (dsimp only [State.memWf]; with_reducible apply State.memWf_wf; first | with_reducible apply State.memWf_updCtx | with_reducible apply State.memWf_foldl | exact hs)

theorem State.memWf_updGroup {s : State} (p h : Nat) (f : Group → Group) (hs : s.memWf) : (State.updGroup s p h f).memWf := by
  unfold State.updGroup
  repeat' first
    | with_reducible assumption
    | with_reducible apply State.memWf_updPkg
    | with_reducible apply State.memWf_foldl
    | split
    | (intro _)
    | dsimp only
    | exact hs
    | (dsimp only [State.memWf]; with_reducible apply State.memWf_wf; first | with_reducible apply State.memWf_updPkg | with_reducible apply State.memWf_foldl | exact hs)

theorem State.memWf_of_rpstatWord {s : State} {p h : Nat} {t : State} {u : Word} (e : State.rpstatWord s p h = (u, t)) (hs : s.memWf) : t.memWf := by
  revert e
  unfold State.rpstatWord
  repeat' first
    | (intro e; refine State.memWf_of_free e ?_)
    | (intro e; cases e; done)
    | (intro e; cases e)
    | dsimp only
    | split
    | with_reducible assumption
    | with_reducible apply State.memWf_foldl
    | (refine State.memWf_of_free (by assumption) ?_)
    | with_reducible apply State.memWf_fst_free
    | split
    | dsimp only
    | exact hs

theorem State.memWf_fst_rpstatWord {s : State} (p h : Nat) (hs : s.memWf) : (State.rpstatWord s p h).2.memWf := State.memWf_of_rpstatWord rfl hs

theorem State.memWf_declared {s : State} (p : Nat) (job : Half) (base : Nat) (hs : s.memWf) : (State.declared s p job base).memWf := by
  unfold State.declared
  repeat' first
    | with_reducible assumption
    | with_reducible apply State.memWf_foldl
    | split
    | (intro _)
    | dsimp only
    | exact hs
    | (dsimp only [State.memWf]; with_reducible apply State.memWf_wf; first | with_reducible apply State.memWf_foldl | exact hs)

theorem State.memWf_landing {s : State} (m : Msg) (hs : s.memWf) : (State.landing s m).memWf := by
  unfold State.landing
  repeat' first
    | with_reducible assumption
    | with_reducible apply State.memWf_trap
    | with_reducible apply State.memWf_dropMsg
    | with_reducible apply State.memWf_raise
    | with_reducible apply State.memWf_watchAfter
    | with_reducible apply State.memWf_learn
    | with_reducible apply State.memWf_pendTrap
    | with_reducible apply State.memWf_landDest
    | with_reducible apply State.memWf_rejoin
    | with_reducible apply State.memWf_declared
    | with_reducible apply State.memWf_foldl
    | (refine State.memWf_of_rpstatWord (by assumption) ?_)
    | with_reducible apply State.memWf_fst_rpstatWord
    | split
    | (intro _)
    | dsimp only
    | exact hs
    | (dsimp only [State.memWf]; with_reducible apply State.memWf_wf; first | with_reducible apply State.memWf_trap | with_reducible apply State.memWf_dropMsg | with_reducible apply State.memWf_raise | with_reducible apply State.memWf_watchAfter | with_reducible apply State.memWf_learn | with_reducible apply State.memWf_pendTrap | with_reducible apply State.memWf_landDest | with_reducible apply State.memWf_rejoin | with_reducible apply State.memWf_declared | with_reducible apply State.memWf_foldl | exact hs)

theorem State.memWf_landTrap {s : State} (m : Msg) (reason : Nat) (addr : Word) (hs : s.memWf) : (State.landTrap s m reason addr).memWf := by
  unfold State.landTrap
  repeat' first
    | with_reducible assumption
    | with_reducible apply State.memWf_updCtx
    | with_reducible apply State.memWf_dropMsg
    | with_reducible apply State.memWf_foldl
    | split
    | (intro _)
    | dsimp only
    | exact hs
    | (dsimp only [State.memWf]; with_reducible apply State.memWf_wf; first | with_reducible apply State.memWf_updCtx | with_reducible apply State.memWf_dropMsg | with_reducible apply State.memWf_foldl | exact hs)

theorem State.memWf_pushFor {s : State} (m : Msg) (q : Nat) (e : QEntry) (hs : s.memWf) : (State.pushFor s m q e).memWf := by
  unfold State.pushFor
  repeat' first
    | with_reducible assumption
    | with_reducible apply State.memWf_send
    | with_reducible apply State.memWf_foldl
    | split
    | (intro _)
    | dsimp only
    | exact hs
    | (dsimp only [State.memWf]; with_reducible apply State.memWf_wf; first | with_reducible apply State.memWf_send | with_reducible apply State.memWf_foldl | exact hs)

theorem State.memWf_spawnLands {s : State} (m : Msg) (hs : s.memWf) : (State.spawnLands s m).memWf := by
  unfold State.spawnLands
  repeat' first
    | with_reducible assumption
    | with_reducible apply State.memWf_due
    | with_reducible apply State.memWf_dueOnce
    | with_reducible apply State.memWf_setMsg
    | with_reducible apply State.memWf_dropMsg
    | with_reducible apply State.memWf_addLive
    | with_reducible apply State.memWf_undoLive
    | with_reducible apply State.memWf_landing
    | with_reducible apply State.memWf_landTrap
    | with_reducible apply State.memWf_pushFor
    | with_reducible apply State.memWf_foldl
    | split
    | (intro _)
    | dsimp only
    | exact hs
    | (dsimp only [State.memWf]; with_reducible apply State.memWf_wf; first | with_reducible apply State.memWf_due | with_reducible apply State.memWf_dueOnce | with_reducible apply State.memWf_setMsg | with_reducible apply State.memWf_dropMsg | with_reducible apply State.memWf_addLive | with_reducible apply State.memWf_undoLive | with_reducible apply State.memWf_landing | with_reducible apply State.memWf_landTrap | with_reducible apply State.memWf_pushFor | with_reducible apply State.memWf_foldl | exact hs)

theorem State.memWf_strikeLate {s : State} (c : Nat) (prog : BitVec 32) (hs : s.memWf) : (State.strikeLate s c prog).memWf := by
  unfold State.strikeLate
  repeat' first
    | with_reducible assumption
    | with_reducible apply State.memWf_updCtx
    | with_reducible apply State.memWf_foldl
    | split
    | (intro _)
    | dsimp only
    | exact hs
    | (dsimp only [State.memWf]; with_reducible apply State.memWf_wf; first | with_reducible apply State.memWf_updCtx | with_reducible apply State.memWf_foldl | exact hs)

theorem State.memWf_cstartLands {s : State} (m : Msg) (c : Nat) (win : Word) (hs : s.memWf) : (State.cstartLands s m c win).memWf := by
  unfold State.cstartLands
  repeat' first
    | with_reducible assumption
    | with_reducible apply State.memWf_due
    | with_reducible apply State.memWf_setMsg
    | with_reducible apply State.memWf_dropMsg
    | with_reducible apply State.memWf_unpark
    | with_reducible apply State.memWf_addLive
    | with_reducible apply State.memWf_undoLive
    | with_reducible apply State.memWf_beginInstance
    | with_reducible apply State.memWf_beginStrand
    | with_reducible apply State.memWf_giveWindows
    | with_reducible apply State.memWf_landing
    | with_reducible apply State.memWf_landTrap
    | with_reducible apply State.memWf_strikeLate
    | with_reducible apply State.memWf_foldl
    | split
    | (intro _)
    | dsimp only
    | exact hs
    | (dsimp only [State.memWf]; with_reducible apply State.memWf_wf; first | with_reducible apply State.memWf_due | with_reducible apply State.memWf_setMsg | with_reducible apply State.memWf_dropMsg | with_reducible apply State.memWf_unpark | with_reducible apply State.memWf_addLive | with_reducible apply State.memWf_undoLive | with_reducible apply State.memWf_beginInstance | with_reducible apply State.memWf_beginStrand | with_reducible apply State.memWf_giveWindows | with_reducible apply State.memWf_landing | with_reducible apply State.memWf_landTrap | with_reducible apply State.memWf_strikeLate | with_reducible apply State.memWf_foldl | exact hs)

theorem State.memWf_unpost {s : State} (m : Msg) (hs : s.memWf) : (State.unpost s m).memWf := by
  unfold State.unpost
  repeat' first
    | with_reducible assumption
    | with_reducible apply State.memWf_updCtx
    | with_reducible apply State.memWf_foldl
    | split
    | (intro _)
    | dsimp only
    | exact hs
    | (dsimp only [State.memWf]; with_reducible apply State.memWf_wf; first | with_reducible apply State.memWf_updCtx | with_reducible apply State.memWf_foldl | exact hs)

theorem State.memWf_refusal {s : State} (m : Msg) (t : PendTrap) (hs : s.memWf) : (State.refusal s m t).memWf := by
  unfold State.refusal
  repeat' first
    | with_reducible assumption
    | with_reducible apply State.memWf_updCtx
    | with_reducible apply State.memWf_dropMsg
    | with_reducible apply State.memWf_pendTrap
    | with_reducible apply State.memWf_restoreDest
    | with_reducible apply State.memWf_unpost
    | with_reducible apply State.memWf_foldl
    | split
    | (intro _)
    | dsimp only
    | exact hs
    | (dsimp only [State.memWf]; with_reducible apply State.memWf_wf; first | with_reducible apply State.memWf_updCtx | with_reducible apply State.memWf_dropMsg | with_reducible apply State.memWf_pendTrap | with_reducible apply State.memWf_restoreDest | with_reducible apply State.memWf_unpost | with_reducible apply State.memWf_foldl | exact hs)

theorem State.memWf_applied {s : State} (d n : Nat) (hs : s.memWf) : (State.applied s d n).memWf := by
  unfold State.applied
  repeat' first
    | with_reducible assumption
    | with_reducible apply State.memWf_updDie
    | with_reducible apply State.memWf_due
    | with_reducible apply State.memWf_foldl
    | split
    | (intro _)
    | dsimp only
    | exact hs
    | (dsimp only [State.memWf]; with_reducible apply State.memWf_wf; first | with_reducible apply State.memWf_updDie | with_reducible apply State.memWf_due | with_reducible apply State.memWf_foldl | exact hs)

theorem State.memWf_of_partDone {s : State} {m : Msg} {f : Part → Part} {t : State} {u : Msg} (e : State.partDone s m f = (t, u)) (hs : s.memWf) : t.memWf := by
  revert e
  unfold State.partDone
  repeat' first
    | (intro e; cases e; done)
    | (intro e; cases e)
    | dsimp only
    | split
    | with_reducible assumption
    | with_reducible apply State.memWf_count
    | with_reducible apply State.memWf_setMsg
    | with_reducible apply State.memWf_applied
    | with_reducible apply State.memWf_foldl
    | split
    | dsimp only
    | exact hs
    | (dsimp only [State.memWf]; with_reducible apply State.memWf_wf; first | with_reducible apply State.memWf_count | with_reducible apply State.memWf_setMsg | with_reducible apply State.memWf_applied | with_reducible apply State.memWf_foldl | exact hs)

theorem State.memWf_fst_partDone {s : State} (m : Msg) (f : Part → Part) (hs : s.memWf) : (State.partDone s m f).1.memWf := State.memWf_of_partDone rfl hs

theorem State.memWf_settle {s : State} (m : Msg) (hs : s.memWf) : (State.settle s m).memWf := by
  unfold State.settle
  repeat' first
    | with_reducible assumption
    | with_reducible apply State.memWf_due
    | with_reducible apply State.memWf_refusal
    | with_reducible apply State.memWf_foldl
    | split
    | (intro _)
    | dsimp only
    | exact hs

theorem State.memWf_goOn {s : State} (m : Msg) (hs : s.memWf) : (State.goOn s m).memWf := by
  unfold State.goOn
  repeat' first
    | with_reducible assumption
    | with_reducible apply State.memWf_due
    | with_reducible apply State.memWf_settle
    | with_reducible apply State.memWf_foldl
    | split
    | (intro _)
    | dsimp only
    | exact hs

theorem State.memWf_refusePart {s : State} (m : Msg) (p : Part) (cause : Byte) (info : Nat) (hs : s.memWf) : (State.refusePart s m p cause info).memWf := by
  unfold State.refusePart
  repeat' first
    | with_reducible assumption
    | with_reducible apply State.memWf_due
    | with_reducible apply State.memWf_setMsg
    | with_reducible apply State.memWf_refusal
    | with_reducible apply State.memWf_goOn
    | with_reducible apply State.memWf_foldl
    | (refine State.memWf_of_partDone (by assumption) ?_)
    | with_reducible apply State.memWf_fst_partDone
    | split
    | (intro _)
    | dsimp only
    | exact hs
    | (dsimp only [State.memWf]; with_reducible apply State.memWf_wf; first | with_reducible apply State.memWf_due | with_reducible apply State.memWf_setMsg | with_reducible apply State.memWf_refusal | with_reducible apply State.memWf_goOn | with_reducible apply State.memWf_foldl | exact hs)

theorem State.memWf_performPart {s : State} (m : Msg) (p : Part) (k : Nat) (hs : s.memWf) : (State.performPart s m p k).memWf := by
  unfold State.performPart
  repeat' first
    | with_reducible assumption
    | with_reducible apply State.memWf_setBytes
    | with_reducible apply State.memWf_clearCovered
    | with_reducible apply State.memWf_setStamp
    | with_reducible apply State.memWf_learn
    | with_reducible apply State.memWf_goOn
    | with_reducible apply State.memWf_refusePart
    | with_reducible apply State.memWf_foldl
    | (refine State.memWf_of_partDone (by assumption) ?_)
    | with_reducible apply State.memWf_fst_partDone
    | split
    | (intro _)
    | dsimp only
    | exact hs
    | (dsimp only [State.memWf]; with_reducible apply State.memWf_wf; first | with_reducible apply State.memWf_setBytes | with_reducible apply State.memWf_clearCovered | with_reducible apply State.memWf_setStamp | with_reducible apply State.memWf_learn | with_reducible apply State.memWf_goOn | with_reducible apply State.memWf_refusePart | with_reducible apply State.memWf_foldl | exact hs)

theorem State.memWf_markOwned {s : State} (m : Msg) (hs : s.memWf) : (State.markOwned s m).memWf := by
  unfold State.markOwned
  repeat' first
    | with_reducible assumption
    | with_reducible apply State.memWf_setMsg
    | with_reducible apply State.memWf_foldl
    | split
    | (intro _)
    | dsimp only
    | exact hs
    | (dsimp only [State.memWf]; with_reducible apply State.memWf_wf; first | with_reducible apply State.memWf_setMsg | with_reducible apply State.memWf_foldl | exact hs)

theorem State.memWf_requestAtHome {s : State} (id : Nat) (hs : s.memWf) : (State.requestAtHome s id).memWf := by
  unfold State.requestAtHome
  repeat' first
    | with_reducible assumption
    | with_reducible apply State.memWf_due
    | with_reducible apply State.memWf_startWalk
    | with_reducible apply State.memWf_settle
    | with_reducible apply State.memWf_refusePart
    | with_reducible apply State.memWf_performPart
    | with_reducible apply State.memWf_markOwned
    | with_reducible apply State.memWf_foldl
    | split
    | (intro _)
    | dsimp only
    | exact hs
    | (dsimp only [State.memWf]; with_reducible apply State.memWf_wf; first | with_reducible apply State.memWf_due | with_reducible apply State.memWf_startWalk | with_reducible apply State.memWf_settle | with_reducible apply State.memWf_refusePart | with_reducible apply State.memWf_performPart | with_reducible apply State.memWf_markOwned | with_reducible apply State.memWf_foldl | exact hs)

theorem State.memWf_bankDone {s : State} (m : Msg) (v : Word) (fl : Flags) (hs : s.memWf) : (State.bankDone s m v fl).memWf := by
  unfold State.bankDone
  repeat' first
    | with_reducible assumption
    | with_reducible apply State.memWf_due
    | with_reducible apply State.memWf_foldl
    | (refine State.memWf_of_partDone (by assumption) ?_)
    | with_reducible apply State.memWf_fst_partDone
    | split
    | (intro _)
    | dsimp only
    | exact hs
    | (dsimp only [State.memWf]; with_reducible apply State.memWf_wf; first | with_reducible apply State.memWf_due | with_reducible apply State.memWf_foldl | exact hs)

theorem State.memWf_bankRefuse {s : State} (m : Msg) (p : Part) (cause : Byte) (info : Nat) (hs : s.memWf) : (State.bankRefuse s m p cause info).memWf := by
  unfold State.bankRefuse
  repeat' first
    | with_reducible assumption
    | with_reducible apply State.memWf_due
    | with_reducible apply State.memWf_refusal
    | with_reducible apply State.memWf_foldl
    | (refine State.memWf_of_partDone (by assumption) ?_)
    | with_reducible apply State.memWf_fst_partDone
    | split
    | (intro _)
    | dsimp only
    | exact hs
    | (dsimp only [State.memWf]; with_reducible apply State.memWf_wf; first | with_reducible apply State.memWf_due | with_reducible apply State.memWf_refusal | with_reducible apply State.memWf_foldl | exact hs)

theorem State.memWf_bankLearn {s : State} (m : Msg) (k n : Nat) (hs : s.memWf) : (State.bankLearn s m k n).memWf := by
  unfold State.bankLearn
  repeat' first
    | with_reducible assumption
    | with_reducible apply State.memWf_learn
    | with_reducible apply State.memWf_foldl
    | split
    | (intro _)
    | dsimp only
    | exact hs

theorem State.memWf_bankWrite {s : State} (m : Msg) (k : Nat) (bs : List Byte) (hs : s.memWf) : (State.bankWrite s m k bs).memWf := by
  unfold State.bankWrite
  repeat' first
    | with_reducible assumption
    | with_reducible apply State.memWf_setBytes
    | with_reducible apply State.memWf_setStamp
    | with_reducible apply State.memWf_foldl
    | split
    | (intro _)
    | dsimp only
    | exact hs

theorem State.memWf_atomicHome {s : State} (m : Msg) (p : Part) (k : Nat) (op : AtomOp) (val cmp : Word) (hs : s.memWf) : (State.atomicHome s m p k op val cmp).memWf := by
  unfold State.atomicHome
  repeat' first
    | with_reducible assumption
    | with_reducible apply State.memWf_bankDone
    | with_reducible apply State.memWf_bankRefuse
    | with_reducible apply State.memWf_bankLearn
    | with_reducible apply State.memWf_bankWrite
    | with_reducible apply State.memWf_foldl
    | split
    | (intro _)
    | dsimp only
    | exact hs

theorem State.memWf_grant {s : State} (k : Nat) (c : Clock) (z0 : List Nat) (hs : s.memWf) : (State.grant s k c z0).memWf := by
  induction z0 generalizing s k c with
  | nil =>
    unfold State.grant
    repeat' first
      | with_reducible assumption
      | with_reducible apply State.memWf_learn
      | with_reducible apply State.memWf_bankDone
      | with_reducible apply State.memWf_bankRefuse
      | with_reducible apply State.memWf_bankLearn
      | with_reducible apply State.memWf_foldl
      | split
      | (intro _)
      | dsimp only
      | exact hs
      | (dsimp only [State.memWf]; with_reducible apply State.memWf_wf; first | with_reducible apply State.memWf_learn | with_reducible apply State.memWf_bankDone | with_reducible apply State.memWf_bankRefuse | with_reducible apply State.memWf_bankLearn | with_reducible apply State.memWf_foldl | exact hs)
  | cons a r ih =>
    unfold State.grant
    repeat' first
      | (with_reducible apply ih)
      | with_reducible assumption
      | with_reducible apply State.memWf_learn
      | with_reducible apply State.memWf_bankDone
      | with_reducible apply State.memWf_bankRefuse
      | with_reducible apply State.memWf_bankLearn
      | with_reducible apply State.memWf_foldl
      | split
      | (intro _)
      | dsimp only
      | exact hs
      | (dsimp only [State.memWf]; with_reducible apply State.memWf_wf; first | with_reducible apply State.memWf_learn | with_reducible apply State.memWf_bankDone | with_reducible apply State.memWf_bankRefuse | with_reducible apply State.memWf_bankLearn | with_reducible apply State.memWf_foldl | exact hs)

theorem State.memWf_loseReservations {s : State} (c : Nat) (hs : s.memWf) : (State.loseReservations s c).memWf := by
  unfold State.loseReservations
  repeat' first
    | with_reducible assumption
    | with_reducible apply State.memWf_grant
    | with_reducible apply State.memWf_foldl
    | split
    | (intro _)
    | dsimp only
    | exact hs
    | (dsimp only [State.memWf]; with_reducible apply State.memWf_wf; first | with_reducible apply State.memWf_grant | with_reducible apply State.memWf_foldl | exact hs)

theorem State.memWf_lrwHome {s : State} (m : Msg) (p : Part) (k : Nat) (hs : s.memWf) : (State.lrwHome s m p k).memWf := by
  unfold State.lrwHome
  repeat' first
    | with_reducible assumption
    | with_reducible apply State.memWf_setMsg
    | with_reducible apply State.memWf_bankRefuse
    | with_reducible apply State.memWf_grant
    | with_reducible apply State.memWf_foldl
    | split
    | (intro _)
    | dsimp only
    | exact hs
    | (dsimp only [State.memWf]; with_reducible apply State.memWf_wf; first | with_reducible apply State.memWf_setMsg | with_reducible apply State.memWf_bankRefuse | with_reducible apply State.memWf_grant | with_reducible apply State.memWf_foldl | exact hs)

theorem State.memWf_handOver {s : State} (m : Msg) (p : Part) (k : Nat) (val : Option Word) (hs : s.memWf) : (State.handOver s m p k val).memWf := by
  unfold State.handOver
  repeat' first
    | with_reducible assumption
    | with_reducible apply State.memWf_bankDone
    | with_reducible apply State.memWf_bankRefuse
    | with_reducible apply State.memWf_bankWrite
    | with_reducible apply State.memWf_grant
    | with_reducible apply State.memWf_foldl
    | split
    | (intro _)
    | dsimp only
    | exact hs
    | (dsimp only [State.memWf]; with_reducible apply State.memWf_wf; first | with_reducible apply State.memWf_bankDone | with_reducible apply State.memWf_bankRefuse | with_reducible apply State.memWf_bankWrite | with_reducible apply State.memWf_grant | with_reducible apply State.memWf_foldl | exact hs)

theorem State.memWf_release {s : State} (k phase : Nat) (f : Nat → Option Nat) (z0 : List Nat) (hs : s.memWf) : (State.release s k phase f z0).memWf := by
  induction z0 generalizing s k phase with
  | nil =>
    unfold State.release
    repeat' first
      | with_reducible assumption
      | with_reducible apply State.memWf_bankDone
      | with_reducible apply State.memWf_bankLearn
      | with_reducible apply State.memWf_foldl
      | split
      | (intro _)
      | dsimp only
      | exact hs
      | (dsimp only [State.memWf]; with_reducible apply State.memWf_wf; first | with_reducible apply State.memWf_bankDone | with_reducible apply State.memWf_bankLearn | with_reducible apply State.memWf_foldl | exact hs)
  | cons a r ih =>
    unfold State.release
    repeat' first
      | (with_reducible apply ih)
      | with_reducible assumption
      | with_reducible apply State.memWf_bankDone
      | with_reducible apply State.memWf_bankLearn
      | with_reducible apply State.memWf_foldl
      | split
      | (intro _)
      | dsimp only
      | exact hs
      | (dsimp only [State.memWf]; with_reducible apply State.memWf_wf; first | with_reducible apply State.memWf_bankDone | with_reducible apply State.memWf_bankLearn | with_reducible apply State.memWf_foldl | exact hs)

theorem State.memWf_judgeBar {s : State} (k : Nat) (hs : s.memWf) : (State.judgeBar s k).memWf := by
  unfold State.judgeBar
  repeat' first
    | with_reducible assumption
    | with_reducible apply State.memWf_release
    | with_reducible apply State.memWf_foldl
    | split
    | (intro _)
    | dsimp only
    | exact hs

theorem State.memWf_binitHome {s : State} (m : Msg) (k n : Nat) (hs : s.memWf) : (State.binitHome s m k n).memWf := by
  unfold State.binitHome
  repeat' first
    | with_reducible assumption
    | with_reducible apply State.memWf_bankDone
    | with_reducible apply State.memWf_bankWrite
    | with_reducible apply State.memWf_release
    | with_reducible apply State.memWf_judgeBar
    | with_reducible apply State.memWf_foldl
    | split
    | (intro _)
    | dsimp only
    | exact hs

theorem State.memWf_barriveHome {s : State} (m : Msg) (p : Part) (k : Nat) (hs : s.memWf) : (State.barriveHome s m p k).memWf := by
  unfold State.barriveHome
  repeat' first
    | with_reducible assumption
    | with_reducible apply State.memWf_bankDone
    | with_reducible apply State.memWf_bankRefuse
    | with_reducible apply State.memWf_bankWrite
    | with_reducible apply State.memWf_release
    | with_reducible apply State.memWf_judgeBar
    | with_reducible apply State.memWf_foldl
    | split
    | (intro _)
    | dsimp only
    | exact hs

theorem State.memWf_bwaitHome {s : State} (m : Msg) (k p : Nat) (hs : s.memWf) : (State.bwaitHome s m k p).memWf := by
  unfold State.bwaitHome
  repeat' first
    | with_reducible assumption
    | with_reducible apply State.memWf_setMsg
    | with_reducible apply State.memWf_bankDone
    | with_reducible apply State.memWf_bankLearn
    | with_reducible apply State.memWf_judgeBar
    | with_reducible apply State.memWf_foldl
    | split
    | (intro _)
    | dsimp only
    | exact hs
    | (dsimp only [State.memWf]; with_reducible apply State.memWf_wf; first | with_reducible apply State.memWf_setMsg | with_reducible apply State.memWf_bankDone | with_reducible apply State.memWf_bankLearn | with_reducible apply State.memWf_judgeBar | with_reducible apply State.memWf_foldl | exact hs)

theorem State.memWf_bstatHome {s : State} (m : Msg) (k n : Nat) (hs : s.memWf) : (State.bstatHome s m k n).memWf := by
  unfold State.bstatHome
  repeat' first
    | with_reducible assumption
    | with_reducible apply State.memWf_bankDone
    | with_reducible apply State.memWf_foldl
    | split
    | (intro _)
    | dsimp only
    | exact hs
    | (dsimp only [State.memWf]; with_reducible apply State.memWf_wf; first | with_reducible apply State.memWf_bankDone | with_reducible apply State.memWf_foldl | exact hs)

theorem State.memWf_bankOp {s : State} (m : Msg) (p : Part) (k : Nat) (hs : s.memWf) : (State.bankOp s m p k).memWf := by
  have bar (t : State) (ht : t.memWf) : (if s.poisoned k 16 then s.bankRefuse m p causeECC (eccWhere k) else t).memWf := by
    split
    · exact State.memWf_bankRefuse _ _ _ _ hs
    · exact ht
  unfold State.bankOp
  generalize m.kind = kd
  cases kd with
  | atomic a b c => exact State.memWf_atomicHome _ _ _ _ _ _ hs
  | lrw => exact State.memWf_lrwHome _ _ _ hs
  | sch v => exact State.memWf_handOver _ _ _ _ hs
  | rsvrel => exact State.memWf_handOver _ _ _ _ hs
  | binit n => exact bar _ (State.memWf_binitHome _ _ _ hs)
  | barrive => exact bar _ (State.memWf_barriveHome _ _ _ hs)
  | bwait q => exact bar _ (State.memWf_bwaitHome _ _ _ hs)
  | bstat n =>
    rcases n with _ | _ | _ | n
    · exact bar _ (State.memWf_bstatHome _ _ _ hs)
    · exact bar _ (State.memWf_bstatHome _ _ _ hs)
    · exact State.memWf_bstatHome _ _ _ hs
    · exact bar _ (State.memWf_bstatHome _ _ _ hs)
  | _ => exact hs

theorem State.memWf_bankAtHome {s : State} (id : Nat) (hs : s.memWf) : (State.bankAtHome s id).memWf := by
  unfold State.bankAtHome
  repeat' first
    | with_reducible assumption
    | with_reducible apply State.memWf_due
    | with_reducible apply State.memWf_startWalk
    | with_reducible apply State.memWf_markOwned
    | with_reducible apply State.memWf_bankRefuse
    | with_reducible apply State.memWf_bankOp
    | with_reducible apply State.memWf_foldl
    | split
    | (intro _)
    | dsimp only
    | exact hs
    | (dsimp only [State.memWf]; with_reducible apply State.memWf_wf; first | with_reducible apply State.memWf_due | with_reducible apply State.memWf_startWalk | with_reducible apply State.memWf_markOwned | with_reducible apply State.memWf_bankRefuse | with_reducible apply State.memWf_bankOp | with_reducible apply State.memWf_foldl | exact hs)

theorem State.memWf_depositAt {s : State} (m : Msg) (target reg : Nat) (val : Word) (hs : s.memWf) : (State.depositAt s m target reg val).memWf := by
  unfold State.depositAt
  repeat' first
    | with_reducible assumption
    | with_reducible apply State.memWf_due
    | with_reducible apply State.memWf_putG
    | with_reducible apply State.memWf_setMsg
    | with_reducible apply State.memWf_foldl
    | split
    | (intro _)
    | dsimp only
    | exact hs
    | (dsimp only [State.memWf]; with_reducible apply State.memWf_wf; first | with_reducible apply State.memWf_due | with_reducible apply State.memWf_putG | with_reducible apply State.memWf_setMsg | with_reducible apply State.memWf_foldl | exact hs)

theorem State.memWf_completeFor {s : State} (m : Msg) (hs : s.memWf) : (State.completeFor s m).memWf := by
  unfold State.completeFor
  repeat' first
    | with_reducible assumption
    | with_reducible apply State.memWf_updCtx
    | with_reducible apply State.memWf_foldl
    | split
    | (intro _)
    | dsimp only
    | exact hs
    | (dsimp only [State.memWf]; with_reducible apply State.memWf_wf; first | with_reducible apply State.memWf_updCtx | with_reducible apply State.memWf_foldl | exact hs)

theorem State.memWf_copyFrame {s : State} (k j n : Nat) (hs : s.memWf) : (State.copyFrame s k j n).memWf := wf_copyCells k j n hs

theorem State.memWf_of_takeFrame {s : State} {p : Nat} {x : BufPage} {a : Nat} {t : State} (e : State.takeFrame s p x = some (a, t)) (hs : s.memWf) :
    t.memWf := by
  revert e
  unfold State.takeFrame
  dsimp only
  split
  · intro e; cases e
  · intro e; cases e; exact State.memWf_updPkg _ _ hs

theorem State.memWf_of_pairPage {s : State} {p : Nat} {x : BufPage} {t : State} (e : State.pairPage s p x = some t) (hs : s.memWf) : t.memWf := by
  revert e
  unfold State.pairPage
  split
  · intro e; cases e
  · rename_i a s' h
    intro e
    cases e
    exact State.memWf_setBytes _ _ (State.memWf_setBytes _ _ (State.memWf_copyFrame _ _ _ (State.memWf_of_takeFrame h hs)))

theorem State.memWf_of_pairPages {s : State} {p : Nat} {l : List BufPage} {t : State} (e : State.pairPages s p l = some t) (hs : s.memWf) : t.memWf := by
  induction l generalizing s with
  | nil => cases e; exact hs
  | cons x r ih =>
    unfold State.pairPages at e
    split at e
    · cases e
    · rename_i h; exact ih e (State.memWf_of_pairPage h hs)

theorem State.memWf_dropPages {s : State} (p job base len : Nat) (hs : s.memWf) : (State.dropPages s p job base len).memWf := by
  unfold State.dropPages
  repeat' first
    | with_reducible assumption
    | with_reducible apply State.memWf_dueOnce
    | with_reducible apply State.memWf_foldl
    | split
    | (intro _)
    | dsimp only
    | exact hs
    | (dsimp only [State.memWf]; with_reducible apply State.memWf_wf; first | with_reducible apply State.memWf_dueOnce | with_reducible apply State.memWf_foldl | exact hs)

theorem State.memWf_of_declare {s : State} {c : Nat} {job : Half} {base len : Nat} {t : State} {u : Int}
    (e : State.declare s c job base len = (u, t)) (hs : s.memWf) : t.memWf := by
  revert e
  unfold State.declare
  dsimp only
  split
  · intro e; cases e; exact hs
  · split
    · intro e; cases e; exact hs
    · split
      · intro e; cases e; exact hs
      · split
        · intro e; cases e; exact hs
        · rename_i h
          intro e
          cases e
          have hw : Memory.wf _ = true := State.memWf_of_pairPages h hs
          exact State.memWf_dropPages _ _ _ _ hw

theorem State.memWf_fst_declare {s : State} (c : Nat) (job : Half) (base len : Nat) (hs : s.memWf) : (State.declare s c job base len).2.memWf :=
  State.memWf_of_declare rfl hs

theorem State.memWf_tokenLands {s : State} (m : Msg) (c : Int) (hs : s.memWf) : (State.tokenLands s m c).memWf := by
  unfold State.tokenLands
  repeat' first
    | with_reducible assumption
    | with_reducible apply State.memWf_due
    | with_reducible apply State.memWf_setMsg
    | with_reducible apply State.memWf_foldl
    | split
    | (intro _)
    | dsimp only
    | exact hs
    | (dsimp only [State.memWf]; with_reducible apply State.memWf_wf; first | with_reducible apply State.memWf_due | with_reducible apply State.memWf_setMsg | with_reducible apply State.memWf_foldl | exact hs)

theorem State.memWf_exchange {s : State} (b : Shadow) (hs : s.memWf) : (State.exchange s b).memWf := by
  unfold State.exchange
  repeat' first
    | with_reducible assumption
    | with_reducible apply State.memWf_setBytes
    | with_reducible apply State.memWf_dropPages
    | with_reducible apply State.memWf_foldl
    | split
    | (intro _)
    | dsimp only
    | exact hs

theorem State.memWf_of_publishBuffer {s : State} {b : Shadow} {t : State} {u : Int} (e : State.publishBuffer s b = (t, u)) (hs : s.memWf) : t.memWf := by
  revert e
  unfold State.publishBuffer
  repeat' first
    | (intro e; cases e; done)
    | (intro e; cases e)
    | dsimp only
    | split
    | with_reducible assumption
    | with_reducible apply State.memWf_exchange
    | with_reducible apply State.memWf_foldl
    | split
    | dsimp only
    | exact hs
    | (dsimp only [State.memWf]; with_reducible apply State.memWf_wf; first | with_reducible apply State.memWf_exchange | with_reducible apply State.memWf_foldl | exact hs)

theorem State.memWf_fst_publishBuffer {s : State} (b : Shadow) (hs : s.memWf) : (State.publishBuffer s b).1.memWf := State.memWf_of_publishBuffer rfl hs

theorem State.memWf_publishAt {s : State} (m : Msg) (base : Nat) (hs : s.memWf) : (State.publishAt s m base).memWf := by
  unfold State.publishAt
  repeat' first
    | with_reducible assumption
    | with_reducible apply State.memWf_tokenLands
    | with_reducible apply State.memWf_foldl
    | (refine State.memWf_of_publishBuffer (by assumption) ?_)
    | with_reducible apply State.memWf_fst_publishBuffer
    | split
    | (intro _)
    | dsimp only
    | exact hs
    | (dsimp only [State.memWf]; with_reducible apply State.memWf_wf; first | with_reducible apply State.memWf_tokenLands | with_reducible apply State.memWf_foldl | exact hs)

theorem State.memWf_withdrawShadow {s : State} (b : Shadow) (hs : s.memWf) : (State.withdrawShadow s b).memWf := by
  unfold State.withdrawShadow
  repeat' first
    | with_reducible assumption
    | with_reducible apply State.memWf_setBytes
    | with_reducible apply State.memWf_dropPages
    | with_reducible apply State.memWf_foldl
    | split
    | (intro _)
    | dsimp only
    | exact hs
    | (dsimp only [State.memWf]; with_reducible apply State.memWf_wf; first | with_reducible apply State.memWf_setBytes | with_reducible apply State.memWf_dropPages | with_reducible apply State.memWf_foldl | exact hs)

theorem State.memWf_waitStatus {s : State} (m : Msg) (st : Nat) (hs : s.memWf) : (State.waitStatus s m st).memWf := by
  unfold State.waitStatus
  repeat' first
    | with_reducible assumption
    | with_reducible apply State.memWf_due
    | with_reducible apply State.memWf_setMsg
    | with_reducible apply State.memWf_foldl
    | split
    | (intro _)
    | dsimp only
    | exact hs
    | (dsimp only [State.memWf]; with_reducible apply State.memWf_wf; first | with_reducible apply State.memWf_due | with_reducible apply State.memWf_setMsg | with_reducible apply State.memWf_foldl | exact hs)

theorem State.memWf_enterWait {s : State} (m : Msg) (addr : Nat) (val deadline : Word) (hs : s.memWf) : (State.enterWait s m addr val deadline).memWf := by
  unfold State.enterWait
  repeat' first
    | with_reducible assumption
    | with_reducible apply State.memWf_updPkg
    | with_reducible apply State.memWf_due
    | with_reducible apply State.memWf_setMsg
    | with_reducible apply State.memWf_waitStatus
    | with_reducible apply State.memWf_foldl
    | split
    | (intro _)
    | dsimp only
    | exact hs
    | (dsimp only [State.memWf]; with_reducible apply State.memWf_wf; first | with_reducible apply State.memWf_updPkg | with_reducible apply State.memWf_due | with_reducible apply State.memWf_setMsg | with_reducible apply State.memWf_waitStatus | with_reducible apply State.memWf_foldl | exact hs)

theorem State.memWf_hostComplete {s : State} (p : Nat) (addr : Word) (st : Nat) (hs : s.memWf) : (State.hostComplete s p addr st).memWf := by
  unfold State.hostComplete
  repeat' first
    | with_reducible assumption
    | with_reducible apply State.memWf_emit
    | with_reducible apply State.memWf_foldl
    | split
    | (intro _)
    | dsimp only
    | exact hs

theorem State.memWf_wakeOne {s : State} (p : Nat) (w : Waiter) (st : Nat) (hs : s.memWf) : (State.wakeOne s p w st).memWf := by
  unfold State.wakeOne
  repeat' first
    | with_reducible assumption
    | with_reducible apply State.memWf_updPkg
    | with_reducible apply State.memWf_waitStatus
    | with_reducible apply State.memWf_hostComplete
    | with_reducible apply State.memWf_foldl
    | split
    | (intro _)
    | dsimp only
    | exact hs
    | (dsimp only [State.memWf]; with_reducible apply State.memWf_wf; first | with_reducible apply State.memWf_updPkg | with_reducible apply State.memWf_waitStatus | with_reducible apply State.memWf_hostComplete | with_reducible apply State.memWf_foldl | exact hs)

theorem State.memWf_of_wake {s : State} {p : Nat} {job : Half} {addr n : Nat} {t : State} {u : Nat} (e : State.wake s p job addr n = (t, u)) (hs : s.memWf) : t.memWf := by
  revert e
  unfold State.wake
  repeat' first
    | (intro e; cases e; done)
    | (intro e; cases e)
    | dsimp only
    | split
    | with_reducible assumption
    | with_reducible apply State.memWf_wakeOne
    | with_reducible apply State.memWf_foldl
    | split
    | dsimp only
    | exact hs

theorem State.memWf_fst_wake {s : State} (p : Nat) (job : Half) (addr n : Nat) (hs : s.memWf) : (State.wake s p job addr n).1.memWf := State.memWf_of_wake rfl hs

theorem State.memWf_faultWaiters {s : State} (d space gran : Nat) (hs : s.memWf) : (State.faultWaiters s d space gran).memWf := by
  unfold State.faultWaiters
  repeat' first
    | with_reducible assumption
    | with_reducible apply State.memWf_meetFault
    | with_reducible apply State.memWf_foldl
    | split
    | (intro _)
    | dsimp only
    | exact hs

theorem State.memWf_startFill {s : State} (p space gran : Nat) (hs : s.memWf) : (State.startFill s p space gran).memWf := by
  unfold State.startFill
  repeat' first
    | with_reducible assumption
    | with_reducible apply State.memWf_updPkg
    | with_reducible apply State.memWf_emit
    | with_reducible apply State.memWf_foldl
    | split
    | (intro _)
    | dsimp only
    | exact hs
    | (dsimp only [State.memWf]; with_reducible apply State.memWf_wf; first | with_reducible apply State.memWf_updPkg | with_reducible apply State.memWf_emit | with_reducible apply State.memWf_foldl | exact hs)

theorem State.memWf_cacheUsed {s : State} (p key : Nat) (hs : s.memWf) : (State.cacheUsed s p key).memWf := by
  unfold State.cacheUsed
  repeat' first
    | with_reducible assumption
    | with_reducible apply State.memWf_updPkg
    | with_reducible apply State.memWf_foldl
    | split
    | (intro _)
    | dsimp only
    | exact hs
    | (dsimp only [State.memWf]; with_reducible apply State.memWf_wf; first | with_reducible apply State.memWf_updPkg | with_reducible apply State.memWf_foldl | exact hs)

theorem State.memWf_walkDone {s : State} (d space gran : Nat) (hs : s.memWf) : (State.walkDone s d space gran).memWf := by
  unfold State.walkDone
  repeat' first
    | with_reducible assumption
    | with_reducible apply State.memWf_updGal
    | with_reducible apply State.memWf_updDie
    | with_reducible apply State.memWf_emit
    | with_reducible apply State.memWf_faultWaiters
    | with_reducible apply State.memWf_startFill
    | with_reducible apply State.memWf_cacheUsed
    | with_reducible apply State.memWf_foldl
    | split
    | (intro _)
    | dsimp only
    | exact hs
    | (dsimp only [State.memWf]; with_reducible apply State.memWf_wf; first | with_reducible apply State.memWf_updGal | with_reducible apply State.memWf_updDie | with_reducible apply State.memWf_emit | with_reducible apply State.memWf_faultWaiters | with_reducible apply State.memWf_startFill | with_reducible apply State.memWf_cacheUsed | with_reducible apply State.memWf_foldl | exact hs)

theorem State.memWf_withQueue {s : State} (h : Word) (k : Nat → State) (hs : s.memWf) (hk : ∀ (w0 : Nat), (k w0).memWf) : (State.withQueue s h k).memWf := by
  unfold State.withQueue
  repeat' first
    | with_reducible assumption
    | with_reducible apply State.memWf_trapProt
    | with_reducible apply State.memWf_foldl
    | apply hk
    | split
    | (intro _)
    | dsimp only
    | exact hs
    | exact hk

theorem State.memWf_queueTrap {s : State} (q reason : Nat) (hs : s.memWf) : (State.queueTrap s q reason).memWf := by
  unfold State.queueTrap
  repeat' first
    | with_reducible assumption
    | with_reducible apply State.memWf_trapProt
    | with_reducible apply State.memWf_foldl
    | split
    | (intro _)
    | dsimp only
    | exact hs

theorem State.memWf_sendPush {s : State} (u : Use) (q : Nat) (e : QEntry) (hs : s.memWf) : (State.sendPush s u q e).memWf := by
  unfold State.sendPush
  repeat' first
    | with_reducible assumption
    | with_reducible apply State.memWf_waitFor
    | with_reducible apply State.memWf_queueMiss
    | with_reducible apply State.memWf_send
    | with_reducible apply State.memWf_finish
    | with_reducible apply State.memWf_foldl
    | split
    | (intro _)
    | dsimp only
    | exact hs

theorem State.memWf_sendPop {s : State} (u : Use) (q : Nat) (now vec : Bool) (t b : Nat) (hs : s.memWf) : (State.sendPop s u q now vec t b).memWf := by
  unfold State.sendPop
  repeat' first
    | with_reducible assumption
    | with_reducible apply State.memWf_markV
    | with_reducible apply State.memWf_awaitG
    | with_reducible apply State.memWf_send
    | with_reducible apply State.memWf_finish
    | with_reducible apply State.memWf_sendWaiting
    | with_reducible apply State.memWf_foldl
    | split
    | (intro _)
    | dsimp only
    | exact hs
    | (dsimp only [State.memWf]; with_reducible apply State.memWf_wf; first | with_reducible apply State.memWf_markV | with_reducible apply State.memWf_awaitG | with_reducible apply State.memWf_send | with_reducible apply State.memWf_finish | with_reducible apply State.memWf_sendWaiting | with_reducible apply State.memWf_foldl | exact hs)

theorem State.memWf_popChecks {s : State} (u : Use) (h : Word) (now vec : Bool) (t b : Nat) (hs : s.memWf) : (State.popChecks s u h now vec t b).memWf := by
  unfold State.popChecks
  repeat' first
    | with_reducible assumption
    | with_reducible apply State.memWf_queueMiss
    | with_reducible apply State.memWf_withQueue
    | with_reducible apply State.memWf_queueTrap
    | with_reducible apply State.memWf_sendPop
    | with_reducible apply State.memWf_foldl
    | split
    | (intro _)
    | dsimp only
    | exact hs

theorem State.memWf_wordPop {s : State} (now : Bool) (t a b : Nat) (hs : s.memWf) : (State.wordPop s now t a b).memWf := by
  unfold State.wordPop
  repeat' first
    | with_reducible assumption
    | with_reducible apply State.memWf_trapIll
    | with_reducible apply State.memWf_issue
    | with_reducible apply State.memWf_popChecks
    | with_reducible apply State.memWf_foldl
    | split
    | (intro _)
    | dsimp only
    | exact hs

theorem State.memWf_setQmap {s : State} (v : Word) (hs : s.memWf) : (State.setQmap s v).memWf := by
  unfold State.setQmap
  repeat' first
    | with_reducible assumption
    | with_reducible apply State.memWf_updCtx
    | with_reducible apply State.memWf_dueOnce
    | with_reducible apply State.memWf_foldl
    | split
    | (intro _)
    | dsimp only
    | exact hs
    | (dsimp only [State.memWf]; with_reducible apply State.memWf_wf; first | with_reducible apply State.memWf_updCtx | with_reducible apply State.memWf_dueOnce | with_reducible apply State.memWf_foldl | exact hs)

theorem State.memWf_writeQmap {s : State} (v : Word) (ch : List Nat) (k : State → State) (hs : s.memWf) (hk : ∀ (w0 : State), w0.memWf → (k w0).memWf) : (State.writeQmap s v ch k).memWf := by
  unfold State.writeQmap
  repeat' first
    | with_reducible assumption
    | with_reducible apply State.memWf_waitFor
    | with_reducible apply State.memWf_setQmap
    | with_reducible apply State.memWf_foldl
    | apply hk
    | split
    | (intro _)
    | dsimp only
    | exact hs
    | exact hk
    | (dsimp only [State.memWf]; with_reducible apply State.memWf_wf; first | with_reducible apply State.memWf_waitFor | with_reducible apply State.memWf_setQmap | with_reducible apply State.memWf_foldl | exact hs)

theorem State.memWf_suspendPooled {s : State} (hs : s.memWf) : (State.suspendPooled s).memWf := by
  unfold State.suspendPooled
  repeat' first
    | with_reducible assumption
    | with_reducible apply State.memWf_useSlot
    | with_reducible apply State.memWf_trapProt
    | with_reducible apply State.memWf_waitFor
    | with_reducible apply State.memWf_queueMiss
    | with_reducible apply State.memWf_send
    | with_reducible apply State.memWf_countTraps
    | with_reducible apply State.memWf_leavePooled
    | with_reducible apply State.memWf_slugRead
    | with_reducible apply State.memWf_foldl
    | split
    | (intro _)
    | dsimp only
    | exact hs

theorem State.memWf_suspendPinned {s : State} (ea : Word) (hs : s.memWf) : (State.suspendPinned s ea).memWf := by
  unfold State.suspendPinned
  repeat' first
    | with_reducible assumption
    | with_reducible apply State.memWf_useSlot
    | with_reducible apply State.memWf_trapProt
    | with_reducible apply State.memWf_waitFor
    | with_reducible apply State.memWf_send
    | with_reducible apply State.memWf_accessSeen
    | with_reducible apply State.memWf_trapAlign
    | with_reducible apply State.memWf_post
    | with_reducible apply State.memWf_park
    | with_reducible apply State.memWf_countTraps
    | with_reducible apply State.memWf_leave
    | with_reducible apply State.memWf_releaseWindows
    | with_reducible apply State.memWf_slugRead
    | with_reducible apply State.memWf_foldl
    | (refine State.memWf_of_stamped (by assumption) ?_)
    | with_reducible apply State.memWf_fst_stamped
    | split
    | (intro _)
    | dsimp only
    | exact hs
    | (dsimp only [State.memWf]; with_reducible apply State.memWf_wf; first | with_reducible apply State.memWf_useSlot | with_reducible apply State.memWf_trapProt | with_reducible apply State.memWf_waitFor | with_reducible apply State.memWf_send | with_reducible apply State.memWf_accessSeen | with_reducible apply State.memWf_trapAlign | with_reducible apply State.memWf_post | with_reducible apply State.memWf_park | with_reducible apply State.memWf_countTraps | with_reducible apply State.memWf_leave | with_reducible apply State.memWf_releaseWindows | with_reducible apply State.memWf_slugRead | with_reducible apply State.memWf_foldl | exact hs)

theorem State.memWf_retire {s : State} (hs : s.memWf) : (State.retire s).memWf := by
  unfold State.retire
  repeat' first
    | with_reducible assumption
    | with_reducible apply State.memWf_updCtx
    | with_reducible apply State.memWf_useSlot
    | with_reducible apply State.memWf_retireChild
    | with_reducible apply State.memWf_countTraps
    | with_reducible apply State.memWf_leave
    | with_reducible apply State.memWf_leavePooled
    | with_reducible apply State.memWf_doneReservations
    | with_reducible apply State.memWf_foldl
    | split
    | (intro _)
    | dsimp only
    | exact hs
    | (dsimp only [State.memWf]; with_reducible apply State.memWf_wf; first | with_reducible apply State.memWf_updCtx | with_reducible apply State.memWf_useSlot | with_reducible apply State.memWf_retireChild | with_reducible apply State.memWf_countTraps | with_reducible apply State.memWf_leave | with_reducible apply State.memWf_leavePooled | with_reducible apply State.memWf_doneReservations | with_reducible apply State.memWf_foldl | exact hs)

theorem State.memWf_migrateTo {s : State} (u : Use) (ea : Word) (k : Nat) (hs : s.memWf) : (State.migrateTo s u ea k).memWf := by
  unfold State.migrateTo
  repeat' first
    | with_reducible assumption
    | with_reducible apply State.memWf_updGal
    | with_reducible apply State.memWf_useSlot
    | with_reducible apply State.memWf_trap
    | with_reducible apply State.memWf_trapProt
    | with_reducible apply State.memWf_waitFor
    | with_reducible apply State.memWf_finish
    | with_reducible apply State.memWf_learn
    | with_reducible apply State.memWf_countTraps
    | with_reducible apply State.memWf_callDispatcher
    | with_reducible apply State.memWf_leavePooled
    | with_reducible apply State.memWf_slugRead
    | with_reducible apply State.memWf_foldl
    | (refine State.memWf_of_free (by assumption) ?_)
    | with_reducible apply State.memWf_fst_free
    | split
    | (intro _)
    | dsimp only
    | exact hs
    | (dsimp only [State.memWf]; with_reducible apply State.memWf_wf; first | with_reducible apply State.memWf_updGal | with_reducible apply State.memWf_useSlot | with_reducible apply State.memWf_trap | with_reducible apply State.memWf_trapProt | with_reducible apply State.memWf_waitFor | with_reducible apply State.memWf_finish | with_reducible apply State.memWf_learn | with_reducible apply State.memWf_countTraps | with_reducible apply State.memWf_callDispatcher | with_reducible apply State.memWf_leavePooled | with_reducible apply State.memWf_slugRead | with_reducible apply State.memWf_foldl | exact hs)

theorem State.memWf_keeper {s : State} (k : State → State) (hs : s.memWf) (hk : ∀ (w0 : State), w0.memWf → (k w0).memWf) : (State.keeper s k).memWf := by
  unfold State.keeper
  repeat' first
    | with_reducible assumption
    | with_reducible apply State.memWf_trapPriv
    | with_reducible apply State.memWf_foldl
    | apply hk
    | split
    | (intro _)
    | dsimp only
    | exact hs
    | exact hk

theorem State.memWf_unmapPrivate {s : State} (c : Nat) (hs : s.memWf) : (State.unmapPrivate s c).memWf := by
  have h : State.memWf (if (s.ctx c).ptab = 0 then s else s.setBytes (physKey (pkgOf c) (s.ctx c).ptab) (List.replicate 32 0#8)) := by
    split
    · exact hs
    · exact State.memWf_setBytes _ _ hs
  unfold State.unmapPrivate
  dsimp only [State.memWf]
  exact h

theorem State.memWf_reap {s : State} (t : Nat) (hs : s.memWf) : (State.reap s t).memWf := by
  unfold State.reap
  repeat' first
    | with_reducible assumption
    | with_reducible apply State.memWf_updCtx
    | with_reducible apply State.memWf_leave
    | with_reducible apply State.memWf_releaseWindows
    | with_reducible apply State.memWf_unmapPrivate
    | with_reducible apply State.memWf_foldl
    | split
    | (intro _)
    | dsimp only
    | exact hs
    | (dsimp only [State.memWf]; with_reducible apply State.memWf_wf; first | with_reducible apply State.memWf_updCtx | with_reducible apply State.memWf_leave | with_reducible apply State.memWf_releaseWindows | with_reducible apply State.memWf_unmapPrivate | with_reducible apply State.memWf_foldl | exact hs)

theorem State.memWf_creap {s : State} (u : Use) (t : Nat) (hs : s.memWf) : (State.creap s u t).memWf := by
  unfold State.creap
  repeat' first
    | with_reducible assumption
    | with_reducible apply State.memWf_trapProt
    | with_reducible apply State.memWf_waitFor
    | with_reducible apply State.memWf_finish
    | with_reducible apply State.memWf_countError
    | with_reducible apply State.memWf_reapInstance
    | with_reducible apply State.memWf_retireChild
    | with_reducible apply State.memWf_withdraw
    | with_reducible apply State.memWf_loseReservations
    | with_reducible apply State.memWf_reap
    | with_reducible apply State.memWf_foldl
    | split
    | (intro _)
    | dsimp only
    | exact hs

theorem State.memWf_strikeWatch {s : State} (c : Nat) (t : PendTrap) (hs : s.memWf) : (State.strikeWatch s c t).memWf := by
  unfold State.strikeWatch
  repeat' first
    | with_reducible assumption
    | with_reducible apply State.memWf_updCtx
    | with_reducible apply State.memWf_holdTrap
    | with_reducible apply State.memWf_foldl
    | split
    | (intro _)
    | dsimp only
    | exact hs
    | (dsimp only [State.memWf]; with_reducible apply State.memWf_wf; first | with_reducible apply State.memWf_updCtx | with_reducible apply State.memWf_holdTrap | with_reducible apply State.memWf_foldl | exact hs)

theorem State.memWf_strikeStep {s : State} (c : Nat) (pc : Word) (hs : s.memWf) : (State.strikeStep s c pc).memWf := by
  unfold State.strikeStep
  repeat' first
    | with_reducible assumption
    | with_reducible apply State.memWf_updCtx
    | with_reducible apply State.memWf_holdTrap
    | with_reducible apply State.memWf_foldl
    | split
    | (intro _)
    | dsimp only
    | exact hs
    | (dsimp only [State.memWf]; with_reducible apply State.memWf_wf; first | with_reducible apply State.memWf_updCtx | with_reducible apply State.memWf_holdTrap | with_reducible apply State.memWf_foldl | exact hs)

theorem State.memWf_chold {s : State} (t : Nat) (hs : s.memWf) : (State.chold s t).memWf := by
  unfold State.chold
  repeat' first
    | with_reducible assumption
    | with_reducible apply State.memWf_updCtx
    | with_reducible apply State.memWf_strikeWatch
    | with_reducible apply State.memWf_strikeStep
    | with_reducible apply State.memWf_foldl
    | split
    | (intro _)
    | dsimp only
    | exact hs
    | (dsimp only [State.memWf]; with_reducible apply State.memWf_wf; first | with_reducible apply State.memWf_updCtx | with_reducible apply State.memWf_strikeWatch | with_reducible apply State.memWf_strikeStep | with_reducible apply State.memWf_foldl | exact hs)

theorem State.memWf_crelease {s : State} (t : Nat) (hs : s.memWf) : (State.crelease s t).memWf := by
  unfold State.crelease
  repeat' first
    | with_reducible assumption
    | with_reducible apply State.memWf_setCtx
    | with_reducible apply State.memWf_updCtx
    | with_reducible apply State.memWf_enterTrap
    | with_reducible apply State.memWf_foldl
    | split
    | (intro _)
    | dsimp only
    | exact hs
    | (dsimp only [State.memWf]; with_reducible apply State.memWf_wf; first | with_reducible apply State.memWf_setCtx | with_reducible apply State.memWf_updCtx | with_reducible apply State.memWf_enterTrap | with_reducible apply State.memWf_foldl | exact hs)

theorem State.memWf_setPool {s : State} (k : Nat) (v : Word) (hs : s.memWf) : (State.setPool s k v).memWf := by
  unfold State.setPool
  repeat' first
    | with_reducible assumption
    | with_reducible apply State.memWf_updCore
    | with_reducible apply State.memWf_unoccupied
    | with_reducible apply State.memWf_foldl
    | split
    | (intro _)
    | dsimp only
    | exact hs
    | (dsimp only [State.memWf]; with_reducible apply State.memWf_wf; first | with_reducible apply State.memWf_updCore | with_reducible apply State.memWf_unoccupied | with_reducible apply State.memWf_foldl | exact hs)

theorem State.memWf_setSaveArea {s : State} (k : Nat) (v : Word) (hs : s.memWf) : (State.setSaveArea s k v).memWf := by
  unfold State.setSaveArea
  repeat' first
    | with_reducible assumption
    | with_reducible apply State.memWf_updCore
    | with_reducible apply State.memWf_foldl
    | split
    | (intro _)
    | dsimp only
    | exact hs
    | (dsimp only [State.memWf]; with_reducible apply State.memWf_wf; first | with_reducible apply State.memWf_updCore | with_reducible apply State.memWf_foldl | exact hs)

theorem State.memWf_setWindow {s : State} (k r : Nat) (v : Word) (hs : s.memWf) : (State.setWindow s k r v).memWf := by
  unfold State.setWindow
  repeat' first
    | with_reducible assumption
    | with_reducible apply State.memWf_updCore
    | with_reducible apply State.memWf_foldl
    | split
    | (intro _)
    | dsimp only
    | exact hs
    | (dsimp only [State.memWf]; with_reducible apply State.memWf_wf; first | with_reducible apply State.memWf_updCore | with_reducible apply State.memWf_foldl | exact hs)

theorem State.memWf_ctlWrite {s : State} (u : Use) (n : Nat) (v : Word) (hs : s.memWf) : (State.ctlWrite s u n v).memWf := by
  unfold State.ctlWrite
  repeat' first
    | with_reducible assumption
    | with_reducible apply State.memWf_updCtx
    | with_reducible apply State.memWf_finish
    | with_reducible apply State.memWf_writeQmap
    | with_reducible apply State.memWf_setPool
    | with_reducible apply State.memWf_setSaveArea
    | with_reducible apply State.memWf_setWindow
    | with_reducible apply State.memWf_foldl
    | split
    | (intro _)
    | dsimp only
    | exact hs

theorem State.memWf_xCheck {s : State} (k : RClass) (g : Word) (t : Nat) (write : Bool) (go : State → State) (hs : s.memWf) (hgo : ∀ (w0 : State), w0.memWf → (go w0).memWf) : (State.xCheck s k g t write go).memWf := by
  unfold State.xCheck
  repeat' first
    | with_reducible assumption
    | with_reducible apply State.memWf_trapProt
    | with_reducible apply State.memWf_foldl
    | apply hgo
    | split
    | (intro _)
    | dsimp only
    | exact hs
    | exact hgo

theorem State.memWf_xWrite {s : State} (k : RClass) (g : Word) (t : Nat) (v : Word) (hs : s.memWf) : (State.xWrite s k g t v).memWf := by
  unfold State.xWrite
  repeat' first
    | with_reducible assumption
    | with_reducible apply State.memWf_updCtx
    | with_reducible apply State.memWf_setVReg
    | with_reducible apply State.memWf_putG
    | with_reducible apply State.memWf_foldl
    | split
    | (intro _)
    | dsimp only
    | exact hs
    | (dsimp only [State.memWf]; with_reducible apply State.memWf_wf; first | with_reducible apply State.memWf_updCtx | with_reducible apply State.memWf_setVReg | with_reducible apply State.memWf_putG | with_reducible apply State.memWf_foldl | exact hs)

theorem State.memWf_xMark {s : State} (k : RClass) (i t : Nat) (p : Presence) (hs : s.memWf) : (State.xMark s k i t p).memWf := by
  unfold State.xMark
  repeat' first
    | with_reducible assumption
    | with_reducible apply State.memWf_markG
    | with_reducible apply State.memWf_markV
    | with_reducible apply State.memWf_foldl
    | split
    | (intro _)
    | dsimp only
    | exact hs
    | (dsimp only [State.memWf]; with_reducible apply State.memWf_wf; first | with_reducible apply State.memWf_markG | with_reducible apply State.memWf_markV | with_reducible apply State.memWf_foldl | exact hs)

theorem State.memWf_issueTrap {s : State} (hs : s.memWf) : (State.issueTrap s).memWf := by
  unfold State.issueTrap
  repeat' first
    | with_reducible assumption
    | with_reducible apply State.memWf_updCtx
    | with_reducible apply State.memWf_useSlot
    | with_reducible apply State.memWf_foldl
    | split
    | (intro _)
    | dsimp only
    | exact hs
    | (dsimp only [State.memWf]; with_reducible apply State.memWf_wf; first | with_reducible apply State.memWf_updCtx | with_reducible apply State.memWf_useSlot | with_reducible apply State.memWf_foldl | exact hs)

theorem State.memWf_alu {s : State} (u : Use) (d : Nat) (f : State → Word) (hs : s.memWf) : (State.alu s u d f).memWf := by
  unfold State.alu
  repeat' first
    | with_reducible assumption
    | with_reducible apply State.memWf_issue
    | with_reducible apply State.memWf_finish
    | with_reducible apply State.memWf_writeG
    | with_reducible apply State.memWf_foldl
    | split
    | (intro _)
    | dsimp only
    | exact hs

theorem State.memWf_aluRR {s : State} (d a b : GIdx) (f : Word → Word → Word) (hs : s.memWf) : (State.aluRR s d a b f).memWf := by
  unfold State.aluRR
  repeat' first
    | with_reducible assumption
    | with_reducible apply State.memWf_alu
    | with_reducible apply State.memWf_foldl
    | split
    | (intro _)
    | dsimp only
    | exact hs

theorem State.memWf_aluRI {s : State} (d a : GIdx) (f : Word → Word) (hs : s.memWf) : (State.aluRI s d a f).memWf := by
  unfold State.aluRI
  repeat' first
    | with_reducible assumption
    | with_reducible apply State.memWf_alu
    | with_reducible apply State.memWf_foldl
    | split
    | (intro _)
    | dsimp only
    | exact hs

theorem State.memWf_divide {s : State} (d a b : GIdx) (f : Word → Word → Word) (hs : s.memWf) : (State.divide s d a b f).memWf := by
  unfold State.divide
  repeat' first
    | with_reducible assumption
    | with_reducible apply State.memWf_trap
    | with_reducible apply State.memWf_issue
    | with_reducible apply State.memWf_longResult
    | with_reducible apply State.memWf_foldl
    | split
    | (intro _)
    | dsimp only
    | exact hs

theorem State.memWf_branch {s : State} (u : Use) (taken : Bool) (off : Word) (hs : s.memWf) : (State.branch s u taken off).memWf := by
  unfold State.branch
  repeat' first
    | with_reducible assumption
    | with_reducible apply State.memWf_finishAt
    | with_reducible apply State.memWf_finish
    | with_reducible apply State.memWf_foldl
    | split
    | (intro _)
    | dsimp only
    | exact hs

theorem State.memWf_bcc {s : State} (a : GIdx) (o : BitVec 14) (p : Word → Bool) (hs : s.memWf) : (State.bcc s a o p).memWf := by
  unfold State.bcc
  repeat' first
    | with_reducible assumption
    | with_reducible apply State.memWf_issue
    | with_reducible apply State.memWf_branch
    | with_reducible apply State.memWf_foldl
    | split
    | (intro _)
    | dsimp only
    | exact hs

theorem State.memWf_bmask {s : State} (k : MIdx) (o : BitVec 14) (p : Half → Bool) (hs : s.memWf) : (State.bmask s k o p).memWf := by
  unfold State.bmask
  repeat' first
    | with_reducible assumption
    | with_reducible apply State.memWf_issue
    | with_reducible apply State.memWf_branch
    | with_reducible apply State.memWf_foldl
    | split
    | (intro _)
    | dsimp only
    | exact hs

theorem State.memWf_bpresence {s : State} (a : GIdx) (o : BitVec 14) (want : Bool) (hs : s.memWf) : (State.bpresence s a o want).memWf := by
  unfold State.bpresence
  repeat' first
    | with_reducible assumption
    | with_reducible apply State.memWf_due
    | with_reducible apply State.memWf_trapProt
    | with_reducible apply State.memWf_issue
    | with_reducible apply State.memWf_branch
    | with_reducible apply State.memWf_foldl
    | split
    | (intro _)
    | dsimp only
    | exact hs
    | (dsimp only [State.memWf]; with_reducible apply State.memWf_wf; first | with_reducible apply State.memWf_due | with_reducible apply State.memWf_trapProt | with_reducible apply State.memWf_issue | with_reducible apply State.memWf_branch | with_reducible apply State.memWf_foldl | exact hs)

theorem State.memWf_jumpReg {s : State} (u : Use) (d a : Nat) (i : Word) (hs : s.memWf) : (State.jumpReg s u d a i).memWf := by
  unfold State.jumpReg
  refine State.memWf_issue _ _ hs (fun s hs => ?_)
  dsimp only
  split
  · exact State.memWf_trapAlign _ _ hs
  · split
    · exact memWf_of_firstBlock (fun _ _ _ e => State.memWf_of_mappedDest e hs) (by assumption)
    · exact State.memWf_finishAt _ _ (State.memWf_writeG _ _ hs)

theorem State.memWf_bccC {s : State} (a : G5Idx) (i : BitVec 5) (p : Word → Bool) (hs : s.memWf) : (State.bccC s a i p).memWf := by
  unfold State.bccC
  repeat' first
    | with_reducible assumption
    | with_reducible apply State.memWf_issue
    | with_reducible apply State.memWf_branch
    | with_reducible apply State.memWf_foldl
    | split
    | (intro _)
    | dsimp only
    | exact hs

theorem State.memWf_fpu {s : State} (u : Use) (d : Nat) (f : State → RMode → Nat × Flags) (l : Nat := 6) (hs : s.memWf) : (State.fpu s u d f l).memWf := by
  unfold State.fpu
  repeat' first
    | with_reducible assumption
    | with_reducible apply State.memWf_issue
    | with_reducible apply State.memWf_finish
    | with_reducible apply State.memWf_writeG
    | with_reducible apply State.memWf_fpResult
    | with_reducible apply State.memWf_foldl
    | split
    | (intro _)
    | dsimp only
    | exact hs

theorem State.memWf_fpuLong {s : State} (u : Use) (d : Nat) (f : State → RMode → Nat × Flags) (hs : s.memWf) : (State.fpuLong s u d f).memWf := by
  unfold State.fpuLong
  repeat' first
    | with_reducible assumption
    | with_reducible apply State.memWf_issue
    | with_reducible apply State.memWf_longResult
    | with_reducible apply State.memWf_foldl
    | split
    | (intro _)
    | dsimp only
    | exact hs

theorem State.memWf_fpRR {s : State} (d a b : GIdx) (f : RMode → Nat → Nat → Nat × Flags) (hs : s.memWf) : (State.fpRR s d a b f).memWf := by
  unfold State.fpRR
  repeat' first
    | with_reducible assumption
    | with_reducible apply State.memWf_fpu
    | with_reducible apply State.memWf_foldl
    | split
    | (intro _)
    | dsimp only
    | exact hs

theorem State.memWf_fpRI {s : State} (d a : GIdx) (f : RMode → Nat → Nat × Flags) (hs : s.memWf) : (State.fpRI s d a f).memWf := by
  unfold State.fpRI
  repeat' first
    | with_reducible assumption
    | with_reducible apply State.memWf_fpu
    | with_reducible apply State.memWf_foldl
    | split
    | (intro _)
    | dsimp only
    | exact hs

theorem State.memWf_fpCvt {s : State} (d a : GIdx) (f : RMode → Nat → Nat × Flags) (hs : s.memWf) : (State.fpCvt s d a f).memWf := by
  unfold State.fpCvt
  repeat' first
    | with_reducible assumption
    | with_reducible apply State.memWf_fpu
    | with_reducible apply State.memWf_foldl
    | split
    | (intro _)
    | dsimp only
    | exact hs

theorem State.memWf_fpFma {s : State} (d a b : GIdx) (f : Fmt) (negP negC : Bool) (hs : s.memWf) : (State.fpFma s d a b f negP negC).memWf := by
  unfold State.fpFma
  repeat' first
    | with_reducible assumption
    | with_reducible apply State.memWf_fpu
    | with_reducible apply State.memWf_foldl
    | split
    | (intro _)
    | dsimp only
    | exact hs
    | (dsimp only [State.memWf]; with_reducible apply State.memWf_wf; first | with_reducible apply State.memWf_fpu | with_reducible apply State.memWf_foldl | exact hs)

theorem State.memWf_writeV {s : State} (pair : Bool) (i n : Nat) (w : BitVec 32 := BitVec.allOnes 32) (hs : s.memWf) : (State.writeV s pair i n w).memWf := by
  unfold State.writeV
  repeat' first
    | with_reducible assumption
    | with_reducible apply State.memWf_putV
    | with_reducible apply State.memWf_putPair
    | with_reducible apply State.memWf_foldl
    | split
    | (intro _)
    | dsimp only
    | exact hs

theorem State.memWf_writeM {s : State} (k : MIdx) (v : Half) (hs : s.memWf) : (State.writeM s k v).memWf := by
  unfold State.writeM
  repeat' first
    | with_reducible assumption
    | with_reducible apply State.memWf_updCtx
    | with_reducible apply State.memWf_foldl
    | split
    | (intro _)
    | dsimp only
    | exact hs

theorem State.memWf_vissue {s : State} (u : Use) (body : State → State) (hs : s.memWf) (hbody : ∀ (w0 : State), w0.memWf → (body w0).memWf) : (State.vissue s u body).memWf := by
  unfold State.vissue
  repeat' first
    | with_reducible assumption
    | with_reducible apply State.memWf_traceEntry
    | with_reducible apply State.memWf_notUntil
    | with_reducible apply State.memWf_issue
    | with_reducible apply State.memWf_foldl
    | apply hbody
    | split
    | (intro _)
    | dsimp only
    | exact hs
    | exact hbody

theorem State.memWf_holdUnit {s : State} (on : Bool) (hs : s.memWf) : (State.holdUnit s on).memWf := by
  unfold State.holdUnit
  repeat' first
    | with_reducible assumption
    | with_reducible apply State.memWf_updCore
    | with_reducible apply State.memWf_foldl
    | split
    | (intro _)
    | dsimp only
    | exact hs
    | (dsimp only [State.memWf]; with_reducible apply State.memWf_wf; first | with_reducible apply State.memWf_updCore | with_reducible apply State.memWf_foldl | exact hs)

theorem State.memWf_vint {s : State} (d a b : VIdx) (m : MIdx) (t : Elem) (f : Nat → Nat → Nat → Nat) (hs : s.memWf) : (State.vint s d a b m t f).memWf := by
  unfold State.vint
  repeat' first
    | with_reducible assumption
    | with_reducible apply State.memWf_finish
    | with_reducible apply State.memWf_writeV
    | with_reducible apply State.memWf_vissue
    | with_reducible apply State.memWf_foldl
    | split
    | (intro _)
    | dsimp only
    | exact hs

theorem State.memWf_vint1 {s : State} (d a : VIdx) (m : MIdx) (t : Elem) (f : Nat → Nat → Nat) (hs : s.memWf) : (State.vint1 s d a m t f).memWf := by
  unfold State.vint1
  repeat' first
    | with_reducible assumption
    | with_reducible apply State.memWf_finish
    | with_reducible apply State.memWf_writeV
    | with_reducible apply State.memWf_vissue
    | with_reducible apply State.memWf_foldl
    | split
    | (intro _)
    | dsimp only
    | exact hs

theorem State.memWf_vfShort {s : State} (u : Use) (t : ElemWD) (d : Nat) (rs : List (Nat × Flags)) (w : BitVec 32) (n : Nat := 6) (hs : s.memWf) : (State.vfShort s u t d rs w n).memWf := by
  unfold State.vfShort
  repeat' first
    | with_reducible assumption
    | with_reducible apply State.memWf_finish
    | with_reducible apply State.memWf_fpResult
    | with_reducible apply State.memWf_writeV
    | with_reducible apply State.memWf_foldl
    | split
    | (intro _)
    | dsimp only
    | exact hs

theorem State.memWf_vfLong {s : State} (u : Use) (t : ElemWD) (d : Nat) (rs : List (Nat × Flags)) (w : BitVec 32) (hs : s.memWf) : (State.vfLong s u t d rs w).memWf := by
  unfold State.vfLong
  repeat' first
    | with_reducible assumption
    | with_reducible apply State.memWf_longResult
    | with_reducible apply State.memWf_foldl
    | split
    | (intro _)
    | dsimp only
    | exact hs
    | (dsimp only [State.memWf]; with_reducible apply State.memWf_wf; first | with_reducible apply State.memWf_longResult | with_reducible apply State.memWf_foldl | exact hs)

theorem State.memWf_vf2 {s : State} (d a b : VIdx) (m : MIdx) (t : ElemWD) (long rounds : Bool) (f : Fmt → RMode → Nat → Nat → Nat × Flags) (hs : s.memWf) : (State.vf2 s d a b m t long rounds f).memWf := by
  unfold State.vf2
  repeat' first
    | with_reducible assumption
    | with_reducible apply State.memWf_vissue
    | with_reducible apply State.memWf_holdUnit
    | with_reducible apply State.memWf_vfShort
    | with_reducible apply State.memWf_vfLong
    | with_reducible apply State.memWf_foldl
    | split
    | (intro _)
    | dsimp only
    | exact hs

theorem State.memWf_vf1 {s : State} (d a : VIdx) (m : MIdx) (t : ElemWD) (long : Bool) (f : Fmt → RMode → Nat → Nat × Flags) (hs : s.memWf) : (State.vf1 s d a m t long f).memWf := by
  unfold State.vf1
  repeat' first
    | with_reducible assumption
    | with_reducible apply State.memWf_vissue
    | with_reducible apply State.memWf_holdUnit
    | with_reducible apply State.memWf_vfShort
    | with_reducible apply State.memWf_vfLong
    | with_reducible apply State.memWf_foldl
    | split
    | (intro _)
    | dsimp only
    | exact hs

theorem State.memWf_vf3 {s : State} (d a b : VIdx) (m : MIdx) (t : ElemWD) (negP negC : Bool) (hs : s.memWf) : (State.vf3 s d a b m t negP negC).memWf := by
  unfold State.vf3
  repeat' first
    | with_reducible assumption
    | with_reducible apply State.memWf_vissue
    | with_reducible apply State.memWf_holdUnit
    | with_reducible apply State.memWf_vfShort
    | with_reducible apply State.memWf_foldl
    | split
    | (intro _)
    | dsimp only
    | exact hs
    | (dsimp only [State.memWf]; with_reducible apply State.memWf_wf; first | with_reducible apply State.memWf_vissue | with_reducible apply State.memWf_holdUnit | with_reducible apply State.memWf_vfShort | with_reducible apply State.memWf_foldl | exact hs)

theorem State.memWf_vcmp {s : State} (k : MIdx) (a b : VIdx) (m : MIdx) (t : ElemWD) (f : Nat → Nat → Nat → Bool) (hs : s.memWf) : (State.vcmp s k a b m t f).memWf := by
  unfold State.vcmp
  repeat' first
    | with_reducible assumption
    | with_reducible apply State.memWf_finish
    | with_reducible apply State.memWf_writeM
    | with_reducible apply State.memWf_vissue
    | with_reducible apply State.memWf_foldl
    | split
    | (intro _)
    | dsimp only
    | exact hs

theorem State.memWf_vfcmp {s : State} (k : MIdx) (a b : VIdx) (m : MIdx) (t : ElemWD) (c : FCmp) (hs : s.memWf) : (State.vfcmp s k a b m t c).memWf := by
  unfold State.vfcmp
  repeat' first
    | with_reducible assumption
    | with_reducible apply State.memWf_finish
    | with_reducible apply State.memWf_fpResult
    | with_reducible apply State.memWf_writeM
    | with_reducible apply State.memWf_vissue
    | with_reducible apply State.memWf_foldl
    | split
    | (intro _)
    | dsimp only
    | exact hs

theorem State.memWf_vsf {s : State} (d a : VIdx) (m : MIdx) (f : SFn) (hs : s.memWf) : (State.vsf s d a m f).memWf := by
  unfold State.vsf
  repeat' first
    | with_reducible assumption
    | with_reducible apply State.memWf_vissue
    | with_reducible apply State.memWf_vfLong
    | with_reducible apply State.memWf_foldl
    | split
    | (intro _)
    | dsimp only
    | exact hs

theorem State.memWf_vconv {s : State} (d a : VIdx) (m : MIdx) (n sw dw sh : Nat) (f : State → Nat → Nat × Flags) (hs : s.memWf) : (State.vconv s d a m n sw dw sh f).memWf := by
  unfold State.vconv
  repeat' first
    | with_reducible assumption
    | with_reducible apply State.memWf_finish
    | with_reducible apply State.memWf_fpResult
    | with_reducible apply State.memWf_writeV
    | with_reducible apply State.memWf_vissue
    | with_reducible apply State.memWf_foldl
    | split
    | (intro _)
    | dsimp only
    | exact hs

theorem State.memWf_vreduce {s : State} (d a : VIdx) (m : MIdx) (t : ElemWD) (rounds : Bool) (ident : Fmt → Nat) (f : Fmt → RMode → Nat → Nat → Nat × Flags) (hs : s.memWf) : (State.vreduce s d a m t rounds ident f).memWf := by
  unfold State.vreduce
  repeat' first
    | with_reducible assumption
    | with_reducible apply State.memWf_vissue
    | with_reducible apply State.memWf_vfShort
    | with_reducible apply State.memWf_foldl
    | split
    | (intro _)
    | dsimp only
    | exact hs

theorem State.memWf_wideAdd {s : State} (d a b : VIdx) (k : MIdx) (t : ElemWD) (f : Int → Int → Int → Int) (hs : s.memWf) : (State.wideAdd s d a b k t f).memWf := by
  unfold State.wideAdd
  repeat' first
    | with_reducible assumption
    | with_reducible apply State.memWf_finish
    | with_reducible apply State.memWf_writeV
    | with_reducible apply State.memWf_writeM
    | with_reducible apply State.memWf_vissue
    | with_reducible apply State.memWf_foldl
    | split
    | (intro _)
    | dsimp only
    | exact hs

theorem State.memWf_wideShift {s : State} (d a b : VIdx) (t : ElemWD) (f : Nat → Nat → Nat) (hs : s.memWf) : (State.wideShift s d a b t f).memWf := by
  unfold State.wideShift
  repeat' first
    | with_reducible assumption
    | with_reducible apply State.memWf_finish
    | with_reducible apply State.memWf_writeV
    | with_reducible apply State.memWf_vissue
    | with_reducible apply State.memWf_foldl
    | split
    | (intro _)
    | dsimp only
    | exact hs

theorem State.memWf_xaccAddLanes {s : State} (u : Use) (d : VIdx) (m : MIdx) (f : Nat → FVal × Flags) (hs : s.memWf) : (State.xaccAddLanes s u d m f).memWf := by
  unfold State.xaccAddLanes
  repeat' first
    | with_reducible assumption
    | with_reducible apply State.memWf_finish
    | with_reducible apply State.memWf_fpResult
    | with_reducible apply State.memWf_writeV
    | with_reducible apply State.memWf_vissue
    | with_reducible apply State.memWf_foldl
    | split
    | (intro _)
    | dsimp only
    | exact hs
    | (dsimp only [State.memWf]; with_reducible apply State.memWf_wf; first | with_reducible apply State.memWf_finish | with_reducible apply State.memWf_fpResult | with_reducible apply State.memWf_writeV | with_reducible apply State.memWf_vissue | with_reducible apply State.memWf_foldl | exact hs)

theorem State.memWf_xaccRnd {s : State} (d a : VIdx) (f : Fmt) (hs : s.memWf) : (State.xaccRnd s d a f).memWf := by
  unfold State.xaccRnd
  repeat' first
    | with_reducible assumption
    | with_reducible apply State.memWf_finish
    | with_reducible apply State.memWf_fpResult
    | with_reducible apply State.memWf_writeV
    | with_reducible apply State.memWf_vissue
    | with_reducible apply State.memWf_foldl
    | split
    | (intro _)
    | dsimp only
    | exact hs

theorem State.memWf_vloadParts {s : State} (u : Use) (d es : Nat) (pair : Bool) (m : Half) (fast : Bool) (ps : List Part) (hs : s.memWf) : (State.vloadParts s u d es pair m fast ps).memWf := by
  unfold State.vloadParts
  repeat' first
    | with_reducible assumption
    | with_reducible apply State.memWf_putV
    | with_reducible apply State.memWf_trap
    | with_reducible apply State.memWf_finish
    | with_reducible apply State.memWf_watchAfter
    | with_reducible apply State.memWf_sendWaiting
    | with_reducible apply State.memWf_learn
    | with_reducible apply State.memWf_foldl
    | split
    | (intro _)
    | dsimp only
    | exact hs
    | (dsimp only [State.memWf]; with_reducible apply State.memWf_wf; first | with_reducible apply State.memWf_putV | with_reducible apply State.memWf_trap | with_reducible apply State.memWf_finish | with_reducible apply State.memWf_watchAfter | with_reducible apply State.memWf_sendWaiting | with_reducible apply State.memWf_learn | with_reducible apply State.memWf_foldl | exact hs)

theorem State.memWf_maskOp {s : State} (k : MIdx) (f : State → Half) (hs : s.memWf) : (State.maskOp s k f).memWf := by
  unfold State.maskOp
  repeat' first
    | with_reducible assumption
    | with_reducible apply State.memWf_finish
    | with_reducible apply State.memWf_writeM
    | with_reducible apply State.memWf_vissue
    | with_reducible apply State.memWf_foldl
    | split
    | (intro _)
    | dsimp only
    | exact hs

theorem State.memWf_maskToG {s : State} (d : G5Idx) (f : State → Nat) (hs : s.memWf) : (State.maskToG s d f).memWf := by
  unfold State.maskToG
  repeat' first
    | with_reducible assumption
    | with_reducible apply State.memWf_finish
    | with_reducible apply State.memWf_writeG
    | with_reducible apply State.memWf_vissue
    | with_reducible apply State.memWf_foldl
    | split
    | (intro _)
    | dsimp only
    | exact hs

theorem State.memWf_curve {s : State} (d a : VIdx) (m : MIdx) (hilbert : Bool) (hs : s.memWf) : (State.curve s d a m hilbert).memWf := by
  unfold State.curve
  repeat' first
    | with_reducible assumption
    | with_reducible apply State.memWf_trap
    | with_reducible apply State.memWf_finish
    | with_reducible apply State.memWf_writeV
    | with_reducible apply State.memWf_vissue
    | with_reducible apply State.memWf_foldl
    | split
    | (intro _)
    | dsimp only
    | exact hs
    | (dsimp only [State.memWf]; with_reducible apply State.memWf_wf; first | with_reducible apply State.memWf_trap | with_reducible apply State.memWf_finish | with_reducible apply State.memWf_writeV | with_reducible apply State.memWf_vissue | with_reducible apply State.memWf_foldl | exact hs)

theorem State.memWf_markShadows {s : State} (p : Nat) (job : Half) (rs : List (Nat × Nat)) (code : Int) (hs : s.memWf) : (State.markShadows s p job rs code).memWf := by
  unfold State.markShadows
  repeat' first
    | with_reducible assumption
    | with_reducible apply State.memWf_foldl
    | split
    | (intro _)
    | dsimp only
    | exact hs
    | (dsimp only [State.memWf]; with_reducible apply State.memWf_wf; first | with_reducible apply State.memWf_foldl | exact hs)

theorem State.memWf_putEngine {s : State} (p : Nat) (c : Clock) (k : Nat) (bs : List Byte) (hs : s.memWf) : (State.putEngine s p c k bs).memWf := by
  unfold State.putEngine
  repeat' first
    | with_reducible assumption
    | with_reducible apply State.memWf_setBytes
    | with_reducible apply State.memWf_setStamp
    | with_reducible apply State.memWf_foldl
    | split
    | (intro _)
    | dsimp only
    | exact hs

theorem State.memWf_of_putAll {s : State} {d : Nat} {c : Clock} {ws : List (Nat × Nat × List Byte)} {t : State} {u : Clock} (e : State.putAll s d c ws = (t, u)) (hs : s.memWf) : t.memWf := by
  revert e
  unfold State.putAll
  repeat' first
    | (intro e; cases e; done)
    | (intro e; cases e)
    | dsimp only
    | split
    | with_reducible assumption
    | with_reducible apply State.memWf_updDie
    | with_reducible apply State.memWf_clearCovered
    | with_reducible apply State.memWf_applied
    | with_reducible apply State.memWf_putEngine
    | with_reducible apply State.memWf_foldl
    | split
    | dsimp only
    | exact hs
    | (dsimp only [State.memWf]; with_reducible apply State.memWf_wf; first | with_reducible apply State.memWf_updDie | with_reducible apply State.memWf_clearCovered | with_reducible apply State.memWf_applied | with_reducible apply State.memWf_putEngine | with_reducible apply State.memWf_foldl | exact hs)

theorem State.memWf_fst_putAll {s : State} (d : Nat) (c : Clock) (ws : List (Nat × Nat × List Byte)) (hs : s.memWf) : (State.putAll s d c ws).1.memWf := State.memWf_of_putAll rfl hs

theorem State.memWf_raiseFor {s : State} (c epoch : Nat) (fl : Flags) (hs : s.memWf) : (State.raiseFor s c epoch fl).memWf := by
  unfold State.raiseFor
  repeat' first
    | with_reducible assumption
    | with_reducible apply State.memWf_setBytes
    | with_reducible apply State.memWf_raise
    | with_reducible apply State.memWf_foldl
    | split
    | (intro _)
    | dsimp only
    | exact hs
    | (dsimp only [State.memWf]; with_reducible apply State.memWf_wf; first | with_reducible apply State.memWf_setBytes | with_reducible apply State.memWf_raise | with_reducible apply State.memWf_foldl | exact hs)

theorem State.memWf_landToken {s : State} (c epoch tok : Nat) (code : Int) (fl : Flags) (stamp : Clock) (hs : s.memWf) : (State.landToken s c epoch tok code fl stamp).memWf := by
  unfold State.landToken
  repeat' first
    | with_reducible assumption
    | with_reducible apply State.memWf_learn
    | with_reducible apply State.memWf_landG
    | with_reducible apply State.memWf_raiseFor
    | with_reducible apply State.memWf_foldl
    | split
    | (intro _)
    | dsimp only
    | exact hs

theorem State.memWf_unitBusy {s : State} (hs : s.memWf) : (State.unitBusy s).memWf := by
  unfold State.unitBusy
  repeat' first
    | with_reducible assumption
    | with_reducible apply State.memWf_notUntil
    | with_reducible apply State.memWf_foldl
    | split
    | (intro _)
    | dsimp only
    | exact hs

theorem State.memWf_engineMiss {s : State} (x : Nat × Nat × Nat) (hs : s.memWf) : (State.engineMiss s x).memWf := by
  unfold State.engineMiss
  repeat' first
    | with_reducible assumption
    | with_reducible apply State.memWf_startWalk
    | with_reducible apply State.memWf_foldl
    | split
    | (intro _)
    | dsimp only
    | exact hs

theorem State.memWf_feederFull {s : State} (hs : s.memWf) : (State.feederFull s).memWf := by
  unfold State.feederFull
  repeat' first
    | with_reducible assumption
    | with_reducible apply State.memWf_updGal
    | with_reducible apply State.memWf_unitBusy
    | with_reducible apply State.memWf_foldl
    | split
    | (intro _)
    | dsimp only
    | exact hs
    | (dsimp only [State.memWf]; with_reducible apply State.memWf_wf; first | with_reducible apply State.memWf_updGal | with_reducible apply State.memWf_unitBusy | with_reducible apply State.memWf_foldl | exact hs)

theorem State.memWf_feederIssue {s : State} (t a b : GIdx) (kind : State → FeedKind) (ev : Nat → Nat → Instr) (hs : s.memWf) : (State.feederIssue s t a b kind ev).memWf := by
  unfold State.feederIssue
  repeat' first
    | with_reducible assumption
    | with_reducible apply State.memWf_updGal
    | with_reducible apply State.memWf_due
    | with_reducible apply State.memWf_markG
    | with_reducible apply State.memWf_finish
    | with_reducible apply State.memWf_withToken
    | with_reducible apply State.memWf_feederFull
    | with_reducible apply State.memWf_foldl
    | split
    | (intro _)
    | dsimp only
    | exact hs
    | (dsimp only [State.memWf]; with_reducible apply State.memWf_wf; first | with_reducible apply State.memWf_updGal | with_reducible apply State.memWf_due | with_reducible apply State.memWf_markG | with_reducible apply State.memWf_finish | with_reducible apply State.memWf_withToken | with_reducible apply State.memWf_feederFull | with_reducible apply State.memWf_foldl | exact hs)

theorem State.memWf_putBarrier {s : State} (k : Nat) (b : Bar) (c : Clock) (hs : s.memWf) : (State.putBarrier s k b c).memWf := by
  unfold State.putBarrier
  repeat' first
    | with_reducible assumption
    | with_reducible apply State.memWf_setBytes
    | with_reducible apply State.memWf_setStamp
    | with_reducible apply State.memWf_foldl
    | split
    | (intro _)
    | dsimp only
    | exact hs

theorem State.memWf_fst_boundAct {s : State} (k c : Nat) (code : Int) (stamp : Clock) (hs : s.memWf) : (State.boundAct s k c code stamp).1.memWf := by
  have h := State.memWf_judgeBar k hs
  unfold State.boundAct
  generalize s.judgeBar k = s' at h
  dsimp only
  split
  · exact h
  · split
    · split
      · exact h
      · dsimp only
        split
        · exact State.memWf_release _ _ _ _ (State.memWf_putBarrier _ _ _ h)
        · exact State.memWf_putBarrier _ _ _ h
    · split
      · exact h
      · exact State.memWf_release _ _ _ _ (State.memWf_putBarrier _ _ _ h)

theorem State.memWf_fst_outcome {s : State} (abort : Bool) (x : Copy) (hs : s.memWf) : (State.outcome s abort x).1.memWf := by
  unfold State.outcome
  split <;> exact hs

theorem State.memWf_setSlot {s : State} (g i : Nat) (o : FeedOp) (hs : s.memWf) : (State.setSlot s g i o).memWf := by
  unfold State.setSlot
  repeat' first
    | with_reducible assumption
    | with_reducible apply State.memWf_updGal
    | with_reducible apply State.memWf_foldl
    | split
    | (intro _)
    | dsimp only
    | exact hs
    | (dsimp only [State.memWf]; with_reducible apply State.memWf_wf; first | with_reducible apply State.memWf_updGal | with_reducible apply State.memWf_foldl | exact hs)

theorem State.memWf_endSlot {s : State} (g i : Nat) (o : FeedOp) (hs : s.memWf) : (State.endSlot s g i o).memWf := by
  unfold State.endSlot
  repeat' first
    | with_reducible assumption
    | with_reducible apply State.memWf_updGal
    | with_reducible apply State.memWf_checkRunOf
    | with_reducible apply State.memWf_foldl
    | split
    | (intro _)
    | dsimp only
    | exact hs
    | (dsimp only [State.memWf]; with_reducible apply State.memWf_wf; first | with_reducible apply State.memWf_updGal | with_reducible apply State.memWf_checkRunOf | with_reducible apply State.memWf_foldl | exact hs)

theorem State.memWf_copyEnds {s : State} (g i : Nat) (o : FeedOp) (bar : Option Nat) (x : Copy) (hs : s.memWf) :
    (State.copyEnds s g i o bar x).memWf := by
  have h := State.memWf_fst_outcome o.abort x hs
  unfold State.copyEnds
  generalize s.outcome o.abort x = r at h
  have h2 := State.memWf_fst_putAll (dieOfGal g) (o.clock.merge x.stamp) r.2.1
    (State.memWf_count (g / 128) o.prog 202 (movedBytes r.2.1) h)
  apply State.memWf_endSlot
  apply State.memWf_landToken
  apply State.memWf_markShadows
  cases bar with
  | some k => exact State.memWf_fst_boundAct _ _ _ _ h2
  | none => exact h2

theorem State.memWf_copyEnd {s : State} (g i : Nat) (o : FeedOp) (hs : s.memWf) : (State.copyEnd s g i o).memWf := by
  unfold State.copyEnd
  repeat' first
    | with_reducible assumption
    | with_reducible apply State.memWf_due
    | with_reducible apply State.memWf_engineMiss
    | with_reducible apply State.memWf_setSlot
    | with_reducible apply State.memWf_copyEnds
    | with_reducible apply State.memWf_foldl
    | split
    | (intro _)
    | dsimp only
    | exact hs
    | (dsimp only [State.memWf]; with_reducible apply State.memWf_wf; first | with_reducible apply State.memWf_due | with_reducible apply State.memWf_engineMiss | with_reducible apply State.memWf_setSlot | with_reducible apply State.memWf_copyEnds | with_reducible apply State.memWf_foldl | exact hs)

theorem State.memWf_bindPush {s : State} (g i : Nat) (o : FeedOp) (q : Nat) (e : QEntry) (hs : s.memWf) : (State.bindPush s g i o q e).memWf := by
  unfold State.bindPush
  repeat' first
    | with_reducible assumption
    | with_reducible apply State.memWf_pushAtHome
    | with_reducible apply State.memWf_setSlot
    | with_reducible apply State.memWf_foldl
    | split
    | (intro _)
    | dsimp only
    | exact hs
    | (dsimp only [State.memWf]; with_reducible apply State.memWf_wf; first | with_reducible apply State.memWf_pushAtHome | with_reducible apply State.memWf_setSlot | with_reducible apply State.memWf_foldl | exact hs)

theorem State.memWf_bindOut {s : State} (g i : Nat) (o : FeedOp) (out : Option Nat) (e : QEntry) (hs : s.memWf) : (State.bindOut s g i o out e).memWf := by
  unfold State.bindOut
  repeat' first
    | with_reducible assumption
    | with_reducible apply State.memWf_setSlot
    | with_reducible apply State.memWf_bindPush
    | with_reducible apply State.memWf_foldl
    | split
    | (intro _)
    | dsimp only
    | exact hs
    | (dsimp only [State.memWf]; with_reducible apply State.memWf_wf; first | with_reducible apply State.memWf_setSlot | with_reducible apply State.memWf_bindPush | with_reducible apply State.memWf_foldl | exact hs)

theorem State.memWf_bindEnds {s : State} (g i : Nat) (o : FeedOp) (code : Int) (hs : s.memWf) : (State.bindEnds s g i o code).memWf := by
  unfold State.bindEnds
  repeat' first
    | with_reducible assumption
    | with_reducible apply State.memWf_updLoaded
    | with_reducible apply State.memWf_landToken
    | with_reducible apply State.memWf_endSlot
    | with_reducible apply State.memWf_foldl
    | split
    | (intro _)
    | dsimp only
    | exact hs
    | (dsimp only [State.memWf]; with_reducible apply State.memWf_wf; first | with_reducible apply State.memWf_updLoaded | with_reducible apply State.memWf_landToken | with_reducible apply State.memWf_endSlot | with_reducible apply State.memWf_foldl | exact hs)

theorem State.memWf_bindPop {s : State} (g i : Nat) (o : FeedOp) (inq : Nat) (hs : s.memWf) : (State.bindPop s g i o inq).memWf := by
  unfold State.bindPop
  repeat' first
    | with_reducible assumption
    | with_reducible apply State.memWf_setQueue
    | with_reducible apply State.memWf_settleQueue
    | with_reducible apply State.memWf_setSlot
    | with_reducible apply State.memWf_foldl
    | (refine State.memWf_of_tryBind (by assumption) ?_)
    | split
    | (intro _)
    | dsimp only
    | exact hs
    | (dsimp only [State.memWf]; with_reducible apply State.memWf_wf; first | with_reducible apply State.memWf_setQueue | with_reducible apply State.memWf_settleQueue | with_reducible apply State.memWf_setSlot | with_reducible apply State.memWf_foldl | exact hs)

theorem State.memWf_requestDone {s : State} (g i : Nat) (o : FeedOp) (out : Option Nat) (tag : Nat) (code : Int) (c : Clock) (hs : s.memWf) : (State.requestDone s g i o out tag code c).memWf := by
  unfold State.requestDone
  repeat' first
    | with_reducible assumption
    | with_reducible apply State.memWf_due
    | with_reducible apply State.memWf_bindOut
    | with_reducible apply State.memWf_foldl
    | split
    | (intro _)
    | dsimp only
    | exact hs
    | (dsimp only [State.memWf]; with_reducible apply State.memWf_wf; first | with_reducible apply State.memWf_due | with_reducible apply State.memWf_bindOut | with_reducible apply State.memWf_foldl | exact hs)

theorem State.memWf_requestRuns {s : State} (g i : Nat) (o : FeedOp) (out : Option Nat) (tag : Nat) (r : FeedArgs) (hs : s.memWf) : (State.requestRuns s g i o out tag r).memWf := by
  unfold State.requestRuns
  repeat' first
    | with_reducible assumption
    | with_reducible apply State.memWf_due
    | with_reducible apply State.memWf_count
    | with_reducible apply State.memWf_markShadows
    | with_reducible apply State.memWf_raiseFor
    | with_reducible apply State.memWf_engineMiss
    | with_reducible apply State.memWf_setSlot
    | with_reducible apply State.memWf_bindEnds
    | with_reducible apply State.memWf_requestDone
    | with_reducible apply State.memWf_foldl
    | (refine State.memWf_of_putAll (by assumption) ?_)
    | with_reducible apply State.memWf_fst_putAll
    | with_reducible apply State.memWf_fst_outcome
    | split
    | (intro _)
    | dsimp only
    | exact hs
    | (dsimp only [State.memWf]; with_reducible apply State.memWf_wf; first | with_reducible apply State.memWf_due | with_reducible apply State.memWf_count | with_reducible apply State.memWf_markShadows | with_reducible apply State.memWf_raiseFor | with_reducible apply State.memWf_engineMiss | with_reducible apply State.memWf_setSlot | with_reducible apply State.memWf_bindEnds | with_reducible apply State.memWf_requestDone | with_reducible apply State.memWf_foldl | exact hs)

theorem State.memWf_bindEntry {s : State} (g i : Nat) (o : FeedOp) (out : Option Nat) (e : QEntry) (hs : s.memWf) : (State.bindEntry s g i o out e).memWf := by
  unfold State.bindEntry
  repeat' first
    | with_reducible assumption
    | with_reducible apply State.memWf_due
    | with_reducible apply State.memWf_bindPush
    | with_reducible apply State.memWf_bindOut
    | with_reducible apply State.memWf_bindEnds
    | with_reducible apply State.memWf_requestDone
    | with_reducible apply State.memWf_requestRuns
    | with_reducible apply State.memWf_foldl
    | split
    | (intro _)
    | dsimp only
    | exact hs
    | (dsimp only [State.memWf]; with_reducible apply State.memWf_wf; first | with_reducible apply State.memWf_due | with_reducible apply State.memWf_bindPush | with_reducible apply State.memWf_bindOut | with_reducible apply State.memWf_bindEnds | with_reducible apply State.memWf_requestDone | with_reducible apply State.memWf_requestRuns | with_reducible apply State.memWf_foldl | exact hs)

theorem State.memWf_feedqStep {s : State} (g i : Nat) (o : FeedOp) (inq : Nat) (out : Option Nat) (hs : s.memWf) : (State.feedqStep s g i o inq out).memWf := by
  unfold State.feedqStep
  repeat' first
    | with_reducible assumption
    | with_reducible apply State.memWf_due
    | with_reducible apply State.memWf_dueOnce
    | with_reducible apply State.memWf_bindEnds
    | with_reducible apply State.memWf_bindPop
    | with_reducible apply State.memWf_bindEntry
    | with_reducible apply State.memWf_foldl
    | split
    | (intro _)
    | dsimp only
    | exact hs
    | (dsimp only [State.memWf]; with_reducible apply State.memWf_wf; first | with_reducible apply State.memWf_due | with_reducible apply State.memWf_dueOnce | with_reducible apply State.memWf_bindEnds | with_reducible apply State.memWf_bindPop | with_reducible apply State.memWf_bindEntry | with_reducible apply State.memWf_foldl | exact hs)

theorem State.memWf_platenTake {s : State} (o : PlatenOp) (hs : s.memWf) : (State.platenTake s o).memWf := by
  unfold State.platenTake
  repeat' first
    | with_reducible assumption
    | with_reducible apply State.memWf_updCore
    | with_reducible apply State.memWf_due
    | with_reducible apply State.memWf_foldl
    | split
    | (intro _)
    | dsimp only
    | exact hs
    | (dsimp only [State.memWf]; with_reducible apply State.memWf_wf; first | with_reducible apply State.memWf_updCore | with_reducible apply State.memWf_due | with_reducible apply State.memWf_foldl | exact hs)

theorem State.memWf_platenIssue {s : State} (body : State → State) (hs : s.memWf) (hbody : ∀ (w0 : State), w0.memWf → (body w0).memWf) : (State.platenIssue s body).memWf := by
  unfold State.platenIssue
  repeat' first
    | with_reducible assumption
    | with_reducible apply State.memWf_trapIll
    | with_reducible apply State.memWf_issue
    | with_reducible apply State.memWf_unitBusy
    | with_reducible apply State.memWf_foldl
    | apply hbody
    | split
    | (intro _)
    | dsimp only
    | exact hs
    | exact hbody

theorem State.memWf_platenToken {s : State} (u : Use) (t : Nat) (body : State → State) (hs : s.memWf) (hbody : ∀ (w0 : State), w0.memWf → (body w0).memWf) : (State.platenToken s u t body).memWf := by
  unfold State.platenToken
  repeat' first
    | with_reducible assumption
    | with_reducible apply State.memWf_trapIll
    | with_reducible apply State.memWf_withToken
    | with_reducible apply State.memWf_unitBusy
    | with_reducible apply State.memWf_foldl
    | apply hbody
    | split
    | (intro _)
    | dsimp only
    | exact hs
    | exact hbody

theorem State.memWf_mmaChecked {s : State} (o : PlatenOp) {k : State} (hs : s.memWf) (hk : k.memWf) : (State.mmaChecked s o k).memWf := by
  unfold State.mmaChecked
  repeat' first
    | with_reducible assumption
    | with_reducible apply State.memWf_trapProt
    | with_reducible apply State.memWf_trapAlign
    | with_reducible apply State.memWf_foldl
    | apply hk
    | split
    | (intro _)
    | dsimp only
    | exact hs
    | exact hk

theorem State.memWf_drainChecked {s : State} (cfg ga : Word) (c f : Nat) {k : State} (hs : s.memWf) (hk : k.memWf) : (State.drainChecked s cfg ga c f k).memWf := by
  unfold State.drainChecked
  repeat' first
    | with_reducible assumption
    | with_reducible apply State.memWf_trapProt
    | with_reducible apply State.memWf_trapAlign
    | with_reducible apply State.memWf_foldl
    | apply hk
    | split
    | (intro _)
    | dsimp only
    | exact hs
    | exact hk

theorem State.memWf_plldChecked {s : State} (ga gb : Word) {k : State} (hs : s.memWf) (hk : k.memWf) : (State.plldChecked s ga gb k).memWf := by
  unfold State.plldChecked
  repeat' first
    | with_reducible assumption
    | with_reducible apply State.memWf_trapProt
    | with_reducible apply State.memWf_trapAlign
    | with_reducible apply State.memWf_foldl
    | apply hk
    | split
    | (intro _)
    | dsimp only
    | exact hs
    | exact hk

theorem State.memWf_sortChecked {s : State} (src dst x2 : Word) {k : State} (hs : s.memWf) (hk : k.memWf) : (State.sortChecked s src dst x2 k).memWf := by
  unfold State.sortChecked
  repeat' first
    | with_reducible assumption
    | with_reducible apply State.memWf_trapProt
    | with_reducible apply State.memWf_trapAlign
    | with_reducible apply State.memWf_foldl
    | apply hk
    | split
    | (intro _)
    | dsimp only
    | exact hs
    | exact hk

theorem State.memWf_platenStart {s : State} (core : Nat) (hs : s.memWf) : (State.platenStart s core).memWf := by
  unfold State.platenStart
  repeat' first
    | with_reducible assumption
    | with_reducible apply State.memWf_updCore
    | with_reducible apply State.memWf_due
    | with_reducible apply State.memWf_foldl
    | split
    | (intro _)
    | dsimp only
    | exact hs
    | (dsimp only [State.memWf]; with_reducible apply State.memWf_wf; first | with_reducible apply State.memWf_updCore | with_reducible apply State.memWf_due | with_reducible apply State.memWf_foldl | exact hs)

theorem State.memWf_of_platenDone {s : State} {core : Nat} {o : PlatenOp} {t : State} {u : Int × Flags × Clock} (e : State.platenDone s core o = (t, u)) (hs : s.memWf) : t.memWf := by
  revert e
  unfold State.platenDone
  repeat' first
    | (intro e; refine State.memWf_of_putAll e ?_)
    | (intro e; cases e; done)
    | (intro e; cases e)
    | dsimp only
    | split
    | with_reducible assumption
    | with_reducible apply State.memWf_updCore
    | with_reducible apply State.memWf_foldl
    | (refine State.memWf_of_putAll (by assumption) ?_)
    | with_reducible apply State.memWf_fst_putAll
    | split
    | dsimp only
    | exact hs
    | (dsimp only [State.memWf]; with_reducible apply State.memWf_wf; first | with_reducible apply State.memWf_updCore | with_reducible apply State.memWf_foldl | exact hs)

theorem State.memWf_fst_platenDone {s : State} (core : Nat) (o : PlatenOp) (hs : s.memWf) : (State.platenDone s core o).1.memWf := State.memWf_of_platenDone rfl hs

theorem State.memWf_platenEnd {s : State} (core : Nat) (hs : s.memWf) : (State.platenEnd s core).memWf := by
  unfold State.platenEnd
  repeat' first
    | with_reducible assumption
    | with_reducible apply State.memWf_updCore
    | with_reducible apply State.memWf_due
    | with_reducible apply State.memWf_count
    | with_reducible apply State.memWf_raiseFor
    | with_reducible apply State.memWf_landToken
    | with_reducible apply State.memWf_foldl
    | (refine State.memWf_of_platenDone (by assumption) ?_)
    | with_reducible apply State.memWf_fst_platenDone
    | split
    | (intro _)
    | dsimp only
    | exact hs
    | (dsimp only [State.memWf]; with_reducible apply State.memWf_wf; first | with_reducible apply State.memWf_updCore | with_reducible apply State.memWf_due | with_reducible apply State.memWf_count | with_reducible apply State.memWf_raiseFor | with_reducible apply State.memWf_landToken | with_reducible apply State.memWf_foldl | exact hs)

theorem State.memWf_gather {s : State} (h : Nat) (hs : s.memWf) : (State.gather s h).memWf := by
  unfold State.gather
  repeat' first
    | with_reducible assumption
    | with_reducible apply State.memWf_dueOnce
    | with_reducible apply State.memWf_foldl
    | split
    | (intro _)
    | dsimp only
    | exact hs

theorem State.memWf_repJoin {s : State} (o : RepOp) (hs : s.memWf) : (State.repJoin s o).memWf := by
  unfold State.repJoin
  repeat' first
    | with_reducible assumption
    | with_reducible apply State.memWf_updGroup
    | with_reducible apply State.memWf_landToken
    | with_reducible apply State.memWf_gather
    | with_reducible apply State.memWf_foldl
    | split
    | (intro _)
    | dsimp only
    | exact hs
    | (dsimp only [State.memWf]; with_reducible apply State.memWf_wf; first | with_reducible apply State.memWf_updGroup | with_reducible apply State.memWf_landToken | with_reducible apply State.memWf_gather | with_reducible apply State.memWf_foldl | exact hs)

theorem State.memWf_engineFault {s : State} (p space gran : Nat) (hs : s.memWf) : (State.engineFault s p space gran).memWf := by
  unfold State.engineFault
  repeat' first
    | with_reducible assumption
    | with_reducible apply State.memWf_updDie
    | with_reducible apply State.memWf_emit
    | with_reducible apply State.memWf_startFill
    | with_reducible apply State.memWf_foldl
    | split
    | (intro _)
    | dsimp only
    | exact hs
    | (dsimp only [State.memWf]; with_reducible apply State.memWf_wf; first | with_reducible apply State.memWf_updDie | with_reducible apply State.memWf_emit | with_reducible apply State.memWf_startFill | with_reducible apply State.memWf_foldl | exact hs)

theorem State.memWf_faultAt {s : State} (x : Nat × Nat) (hs : s.memWf) : (State.faultAt s x).memWf := by
  unfold State.faultAt
  repeat' first
    | with_reducible assumption
    | with_reducible apply State.memWf_engineFault
    | with_reducible apply State.memWf_foldl
    | split
    | (intro _)
    | dsimp only
    | exact hs

theorem State.memWf_repDrain {s : State} (p : Nat) (z0 : Nat) (hs : s.memWf) : (State.repDrain s p z0).memWf := by
  induction z0 generalizing s p with
  | zero =>
    unfold State.repDrain
    repeat' first
      | with_reducible assumption
      | with_reducible apply State.memWf_updPkg
      | with_reducible apply State.memWf_repJoin
      | with_reducible apply State.memWf_foldl
      | split
      | (intro _)
      | dsimp only
      | exact hs
      | (dsimp only [State.memWf]; with_reducible apply State.memWf_wf; first | with_reducible apply State.memWf_updPkg | with_reducible apply State.memWf_repJoin | with_reducible apply State.memWf_foldl | exact hs)
  | succ n ih =>
    unfold State.repDrain
    repeat' first
      | (with_reducible apply ih)
      | with_reducible assumption
      | with_reducible apply State.memWf_updPkg
      | with_reducible apply State.memWf_repJoin
      | with_reducible apply State.memWf_foldl
      | split
      | (intro _)
      | dsimp only
      | exact hs
      | (dsimp only [State.memWf]; with_reducible apply State.memWf_wf; first | with_reducible apply State.memWf_updPkg | with_reducible apply State.memWf_repJoin | with_reducible apply State.memWf_foldl | exact hs)

theorem State.memWf_repAdvance {s : State} (p : Nat) (hs : s.memWf) : (State.repAdvance s p).memWf := by
  unfold State.repAdvance
  repeat' first
    | with_reducible assumption
    | with_reducible apply State.memWf_repDrain
    | with_reducible apply State.memWf_foldl
    | split
    | (intro _)
    | dsimp only
    | exact hs

theorem State.memWf_of_repTry {s : State} {o : RepOp} {t : State} {u : Option RepOp} (e : State.repTry s o = (t, u)) (hs : s.memWf) : t.memWf := by
  revert e
  unfold State.repTry
  repeat' first
    | (intro e; cases e; done)
    | (intro e; cases e)
    | dsimp only
    | split
    | with_reducible assumption
    | with_reducible apply State.memWf_landToken
    | with_reducible apply State.memWf_faultAt
    | with_reducible apply State.memWf_foldl
    | split
    | dsimp only
    | exact hs
    | (dsimp only [State.memWf]; with_reducible apply State.memWf_wf; first | with_reducible apply State.memWf_landToken | with_reducible apply State.memWf_faultAt | with_reducible apply State.memWf_foldl | exact hs)

theorem State.memWf_fst_repTry {s : State} (o : RepOp) (hs : s.memWf) : (State.repTry s o).1.memWf := State.memWf_of_repTry rfl hs

theorem State.memWf_repRead {s : State} (o : RepOp) (hs : s.memWf) : (State.repRead s o).memWf := by
  unfold State.repRead
  repeat' first
    | with_reducible assumption
    | with_reducible apply State.memWf_updPkg
    | with_reducible apply State.memWf_repAdvance
    | with_reducible apply State.memWf_foldl
    | (refine State.memWf_of_repTry (by assumption) ?_)
    | with_reducible apply State.memWf_fst_repTry
    | split
    | (intro _)
    | dsimp only
    | exact hs
    | (dsimp only [State.memWf]; with_reducible apply State.memWf_wf; first | with_reducible apply State.memWf_updPkg | with_reducible apply State.memWf_repAdvance | with_reducible apply State.memWf_foldl | exact hs)

theorem State.memWf_fst_repRetry {s : State} (x : Nat × Nat) (f : RepOp → RepOp) (l : List RepOp) (hs : s.memWf) : (State.repRetry s x f l).1.memWf := by
  induction l generalizing s with
  | nil => exact hs
  | cons o r ih =>
    show (State.repRetry _ x f r).1.memWf
    refine ih ?_
    split
    · exact State.memWf_fst_repTry _ hs
    · exact hs

theorem State.memWf_recount {s : State} (hs : s.memWf) : (State.recount s).memWf := by
  unfold State.recount
  repeat' first
    | with_reducible assumption
    | with_reducible apply State.memWf_foldl
    | split
    | (intro _)
    | dsimp only
    | exact hs
    | (dsimp only [State.memWf]; with_reducible apply State.memWf_wf; first | with_reducible apply State.memWf_foldl | exact hs)

theorem State.memWf_abortRank {s : State} (h out p : Nat) (code : Int) (hs : s.memWf) : (State.abortRank s h out p code).memWf := by
  unfold State.abortRank
  repeat' first
    | with_reducible assumption
    | with_reducible apply State.memWf_count
    | with_reducible apply State.memWf_updGroup
    | with_reducible apply State.memWf_foldl
    | (refine State.memWf_of_free (by assumption) ?_)
    | with_reducible apply State.memWf_fst_free
    | split
    | (intro _)
    | dsimp only
    | exact hs
    | (dsimp only [State.memWf]; with_reducible apply State.memWf_wf; first | with_reducible apply State.memWf_count | with_reducible apply State.memWf_updGroup | with_reducible apply State.memWf_foldl | exact hs)

theorem State.memWf_endsDue {s : State} (h n : Nat) (hs : s.memWf) : (State.endsDue s h n).memWf := by
  unfold State.endsDue
  repeat' first
    | with_reducible assumption
    | with_reducible apply State.memWf_due
    | with_reducible apply State.memWf_foldl
    | split
    | (intro _)
    | dsimp only
    | exact hs

theorem State.memWf_abortSome {s : State} (h : Nat) (out : Nat → Nat) (hit : Nat → Bool) (hs : s.memWf) : (State.abortSome s h out hit).memWf := by
  unfold State.abortSome
  repeat' first
    | with_reducible assumption
    | with_reducible apply State.memWf_due
    | with_reducible apply State.memWf_abortRank
    | with_reducible apply State.memWf_foldl
    | split
    | (intro _)
    | dsimp only
    | exact hs

theorem State.memWf_abortAll {s : State} (h : Nat) (codes : List Int) (hs : s.memWf) : (State.abortAll s h codes).memWf := by
  unfold State.abortAll
  repeat' first
    | with_reducible assumption
    | with_reducible apply State.memWf_abortRank
    | with_reducible apply State.memWf_endsDue
    | with_reducible apply State.memWf_foldl
    | (refine State.memWf_of_free (by assumption) ?_)
    | with_reducible apply State.memWf_fst_free
    | split
    | (intro _)
    | dsimp only
    | exact hs

theorem State.memWf_writeKeys {s : State} (o : RepOp) (hs : s.memWf) : (State.writeKeys s o).memWf := by
  unfold State.writeKeys
  repeat' first
    | with_reducible assumption
    | with_reducible apply State.memWf_count
    | with_reducible apply State.memWf_foldl
    | (refine State.memWf_of_putAll (by assumption) ?_)
    | with_reducible apply State.memWf_fst_putAll
    | split
    | (intro _)
    | dsimp only
    | exact hs

theorem State.memWf_setHead {s : State} (h : Nat) (o : RepOp) (hs : s.memWf) : (State.setHead s h o).memWf := by
  unfold State.setHead
  repeat' first
    | with_reducible assumption
    | with_reducible apply State.memWf_updGroup
    | with_reducible apply State.memWf_foldl
    | split
    | (intro _)
    | dsimp only
    | exact hs
    | (dsimp only [State.memWf]; with_reducible apply State.memWf_wf; first | with_reducible apply State.memWf_updGroup | with_reducible apply State.memWf_foldl | exact hs)

theorem State.memWf_markStat {s : State} (h : Nat) (hs : s.memWf) : (State.markStat s h).memWf := by
  unfold State.markStat
  repeat' first
    | with_reducible assumption
    | with_reducible apply State.memWf_setHead
    | with_reducible apply State.memWf_foldl
    | split
    | (intro _)
    | dsimp only
    | exact hs
    | (dsimp only [State.memWf]; with_reducible apply State.memWf_wf; first | with_reducible apply State.memWf_setHead | with_reducible apply State.memWf_foldl | exact hs)

theorem State.memWf_awaitPages {s : State} (h : Nat) (os : List RepOp) (xs : List (Option (Nat × Nat))) (hs : s.memWf) : (State.awaitPages s h os xs).memWf := by
  unfold State.awaitPages
  repeat' first
    | with_reducible assumption
    | with_reducible apply State.memWf_due
    | with_reducible apply State.memWf_faultAt
    | with_reducible apply State.memWf_setHead
    | with_reducible apply State.memWf_foldl
    | split
    | (intro _)
    | dsimp only
    | exact hs
    | (dsimp only [State.memWf]; with_reducible apply State.memWf_wf; first | with_reducible apply State.memWf_due | with_reducible apply State.memWf_faultAt | with_reducible apply State.memWf_setHead | with_reducible apply State.memWf_foldl | exact hs)

theorem State.memWf_abortGather {s : State} (h : Nat) (os : List RepOp) (codes : List Int) (hs : s.memWf) : (State.abortGather s h os codes).memWf := by
  unfold State.abortGather
  repeat' first
    | with_reducible assumption
    | with_reducible apply State.memWf_abortAll
    | with_reducible apply State.memWf_markStat
    | with_reducible apply State.memWf_awaitPages
    | with_reducible apply State.memWf_foldl
    | split
    | (intro _)
    | dsimp only
    | exact hs

theorem State.memWf_strikeRanks {s : State} (h : Nat) (hit : List Nat) (hs : s.memWf) : (State.strikeRanks s h hit).memWf := by
  unfold State.strikeRanks
  repeat' first
    | with_reducible assumption
    | with_reducible apply State.memWf_updGroup
    | with_reducible apply State.memWf_abortSome
    | with_reducible apply State.memWf_markStat
    | with_reducible apply State.memWf_foldl
    | split
    | (intro _)
    | dsimp only
    | exact hs
    | (dsimp only [State.memWf]; with_reducible apply State.memWf_wf; first | with_reducible apply State.memWf_updGroup | with_reducible apply State.memWf_abortSome | with_reducible apply State.memWf_markStat | with_reducible apply State.memWf_foldl | exact hs)

theorem State.memWf_ranksGathered {s : State} (h : Nat) (hs : s.memWf) : (State.ranksGathered s h).memWf := by
  unfold State.ranksGathered
  repeat' first
    | with_reducible assumption
    | with_reducible apply State.memWf_due
    | with_reducible apply State.memWf_updGroup
    | with_reducible apply State.memWf_writeKeys
    | with_reducible apply State.memWf_awaitPages
    | with_reducible apply State.memWf_abortGather
    | with_reducible apply State.memWf_strikeRanks
    | with_reducible apply State.memWf_foldl
    | split
    | (intro _)
    | dsimp only
    | exact hs
    | (dsimp only [State.memWf]; with_reducible apply State.memWf_wf; first | with_reducible apply State.memWf_due | with_reducible apply State.memWf_updGroup | with_reducible apply State.memWf_writeKeys | with_reducible apply State.memWf_awaitPages | with_reducible apply State.memWf_abortGather | with_reducible apply State.memWf_strikeRanks | with_reducible apply State.memWf_foldl | exact hs)

theorem State.memWf_withPoison {s : State} (x : List Nat) (hs : s.memWf) : ({ s with poison := x } : State).memWf := hs

theorem State.memWf_moveRank {s : State} (h : Nat) (all : List GRec) (ps : List (GRec × Nat)) (acc : List (List GRec)) (imgs : List (List (List (Byte × Bool)))) (rank : Nat) (o : RepOp) (hs : s.memWf) : (State.moveRank s h os ps acc imgs rank o).memWf := by
  unfold State.moveRank
  extract_lets
  refine State.memWf_updGroup _ _ _ (State.memWf_withPoison _ ?_)
  exact State.memWf_fst_putAll _ _ _ hs

theorem State.memWf_movement {s : State} (h : Nat) (hs : s.memWf) : (State.movement s h).memWf := by
  unfold State.movement
  extract_lets os n rank all ps acc imgs
  split
  · exact State.memWf_abortAll _ _ hs
  · refine State.memWf_endsDue _ _ (State.memWf_foldl _ _ (fun s i hs => ?_) hs)
    split
    · exact State.memWf_moveRank h all ps acc imgs i _ hs
    · exact hs

theorem State.memWf_repEnd {s : State} (h r : Nat) (hs : s.memWf) : (State.repEnd s h r).memWf := by
  unfold State.repEnd
  repeat' first
    | with_reducible assumption
    | with_reducible apply State.memWf_updGroup
    | with_reducible apply State.memWf_markShadows
    | with_reducible apply State.memWf_landToken
    | with_reducible apply State.memWf_gather
    | with_reducible apply State.memWf_foldl
    | (refine State.memWf_of_putAll (by assumption) ?_)
    | with_reducible apply State.memWf_fst_putAll
    | split
    | (intro _)
    | dsimp only
    | exact hs
    | (dsimp only [State.memWf]; with_reducible apply State.memWf_wf; first | with_reducible apply State.memWf_updGroup | with_reducible apply State.memWf_markShadows | with_reducible apply State.memWf_landToken | with_reducible apply State.memWf_gather | with_reducible apply State.memWf_foldl | exact hs)

theorem State.memWf_condTake {s : State} (o : CondOp) (hs : s.memWf) : (State.condTake s o).memWf := by
  unfold State.condTake
  repeat' first
    | with_reducible assumption
    | with_reducible apply State.memWf_updCore
    | with_reducible apply State.memWf_due
    | with_reducible apply State.memWf_foldl
    | split
    | (intro _)
    | dsimp only
    | exact hs
    | (dsimp only [State.memWf]; with_reducible apply State.memWf_wf; first | with_reducible apply State.memWf_updCore | with_reducible apply State.memWf_due | with_reducible apply State.memWf_foldl | exact hs)

theorem State.memWf_condIssue {s : State} (u : Use) (ds : List Nat) (body : State → State) (hs : s.memWf) (hbody : ∀ (w0 : State), w0.memWf → (body w0).memWf) : (State.condIssue s u ds body).memWf := by
  unfold State.condIssue
  repeat' first
    | with_reducible assumption
    | with_reducible apply State.memWf_trap
    | with_reducible apply State.memWf_trapIll
    | with_reducible apply State.memWf_issue
    | with_reducible apply State.memWf_unitBusy
    | with_reducible apply State.memWf_foldl
    | apply hbody
    | split
    | (intro _)
    | dsimp only
    | exact hs
    | exact hbody
    | (dsimp only [State.memWf]; with_reducible apply State.memWf_wf; first | with_reducible apply State.memWf_trap | with_reducible apply State.memWf_trapIll | with_reducible apply State.memWf_issue | with_reducible apply State.memWf_unitBusy | with_reducible apply State.memWf_foldl | exact hs)

theorem State.memWf_distPair {s : State} (fn : Nat) (d a b : DIdx) (m : MIdx) (hs : s.memWf) : (State.distPair s fn d a b m).memWf := by
  unfold State.distPair
  repeat' first
    | with_reducible assumption
    | with_reducible apply State.memWf_finish
    | with_reducible apply State.memWf_condTake
    | with_reducible apply State.memWf_condIssue
    | with_reducible apply State.memWf_foldl
    | split
    | (intro _)
    | dsimp only
    | exact hs

theorem State.memWf_distTag {s : State} (d a : DIdx) (t : BitVec 8) (or_ : Bool) (hs : s.memWf) : (State.distTag s d a t or_).memWf := by
  unfold State.distTag
  repeat' first
    | with_reducible assumption
    | with_reducible apply State.memWf_finish
    | with_reducible apply State.memWf_condTake
    | with_reducible apply State.memWf_condIssue
    | with_reducible apply State.memWf_foldl
    | split
    | (intro _)
    | dsimp only
    | exact hs

theorem State.memWf_distOut {s : State} (a : DIdx) (m : MIdx) (v : VIdx) (vsrc : List Nat) (k : State → CondKind) (hs : s.memWf) : (State.distOut s a m v vsrc k).memWf := by
  unfold State.distOut
  repeat' first
    | with_reducible assumption
    | with_reducible apply State.memWf_markV
    | with_reducible apply State.memWf_finish
    | with_reducible apply State.memWf_condTake
    | with_reducible apply State.memWf_condIssue
    | with_reducible apply State.memWf_foldl
    | split
    | (intro _)
    | dsimp only
    | exact hs

theorem State.memWf_dstStart {s : State} (o : CondOp) (img : BitVec 6144) (hs : s.memWf) : (State.dstStart s o img).memWf := by
  unfold State.dstStart
  repeat' first
    | with_reducible assumption
    | with_reducible apply State.memWf_updCtx
    | with_reducible apply State.memWf_send
    | with_reducible apply State.memWf_post
    | with_reducible apply State.memWf_foldl
    | (refine State.memWf_of_stamped (by assumption) ?_)
    | with_reducible apply State.memWf_fst_stamped
    | split
    | (intro _)
    | dsimp only
    | exact hs
    | (dsimp only [State.memWf]; with_reducible apply State.memWf_wf; first | with_reducible apply State.memWf_updCtx | with_reducible apply State.memWf_send | with_reducible apply State.memWf_post | with_reducible apply State.memWf_foldl | exact hs)

theorem State.memWf_condStart {s : State} (core : Nat) (hs : s.memWf) : (State.condStart s core).memWf := by
  unfold State.condStart
  repeat' first
    | with_reducible assumption
    | with_reducible apply State.memWf_updCore
    | with_reducible apply State.memWf_due
    | with_reducible apply State.memWf_send
    | with_reducible apply State.memWf_dstStart
    | with_reducible apply State.memWf_foldl
    | split
    | (intro _)
    | dsimp only
    | exact hs
    | (dsimp only [State.memWf]; with_reducible apply State.memWf_wf; first | with_reducible apply State.memWf_updCore | with_reducible apply State.memWf_due | with_reducible apply State.memWf_send | with_reducible apply State.memWf_dstStart | with_reducible apply State.memWf_foldl | exact hs)

theorem State.memWf_putD {s : State} (c d : Nat) (img : BitVec 6144) (tag : Byte) (m : Half) (hs : s.memWf) : (State.putD s c d img tag m).memWf := by
  unfold State.putD
  repeat' first
    | with_reducible assumption
    | with_reducible apply State.memWf_setDReg
    | with_reducible apply State.memWf_foldl
    | split
    | (intro _)
    | dsimp only
    | exact hs

theorem State.memWf_condFlags {s : State} (o : CondOp) (fls : List Flags) (hs : s.memWf) : (State.condFlags s o fls).memWf := by
  unfold State.condFlags
  repeat' first
    | with_reducible assumption
    | with_reducible apply State.memWf_pendTrap
    | with_reducible apply State.memWf_raiseFor
    | with_reducible apply State.memWf_foldl
    | split
    | (intro _)
    | dsimp only
    | exact hs

theorem State.memWf_condVector {s : State} (o : CondOp) (v : Nat) (hs : s.memWf) : (State.condVector s o v).memWf := by
  unfold State.condVector
  repeat' first
    | with_reducible assumption
    | with_reducible apply State.memWf_landV
    | with_reducible apply State.memWf_condFlags
    | with_reducible apply State.memWf_foldl
    | split
    | (intro _)
    | dsimp only
    | exact hs
    | (dsimp only [State.memWf]; with_reducible apply State.memWf_wf; first | with_reducible apply State.memWf_landV | with_reducible apply State.memWf_condFlags | with_reducible apply State.memWf_foldl | exact hs)

theorem State.memWf_dldLands {s : State} (m : Msg) (d : Nat) (mask : Half) (tag : Byte) (hs : s.memWf) : (State.dldLands s m d mask tag).memWf := by
  unfold State.dldLands
  repeat' first
    | with_reducible assumption
    | with_reducible apply State.memWf_putD
    | with_reducible apply State.memWf_foldl
    | split
    | (intro _)
    | dsimp only
    | exact hs

theorem State.memWf_dldEnd {s : State} (o : CondOp) (hs : s.memWf) : (State.dldEnd s o).memWf := by
  unfold State.dldEnd
  repeat' first
    | with_reducible assumption
    | with_reducible apply State.memWf_landing
    | with_reducible apply State.memWf_refusal
    | with_reducible apply State.memWf_dldLands
    | with_reducible apply State.memWf_foldl
    | split
    | (intro _)
    | dsimp only
    | exact hs
    | (dsimp only [State.memWf]; with_reducible apply State.memWf_wf; first | with_reducible apply State.memWf_landing | with_reducible apply State.memWf_refusal | with_reducible apply State.memWf_dldLands | with_reducible apply State.memWf_foldl | exact hs)

theorem State.memWf_condEnd {s : State} (core : Nat) (hs : s.memWf) : (State.condEnd s core).memWf := by
  unfold State.condEnd
  repeat' first
    | with_reducible assumption
    | with_reducible apply State.memWf_updCore
    | with_reducible apply State.memWf_due
    | with_reducible apply State.memWf_count
    | with_reducible apply State.memWf_putD
    | with_reducible apply State.memWf_condFlags
    | with_reducible apply State.memWf_condVector
    | with_reducible apply State.memWf_dldEnd
    | with_reducible apply State.memWf_foldl
    | split
    | (intro _)
    | dsimp only
    | exact hs
    | (dsimp only [State.memWf]; with_reducible apply State.memWf_wf; first | with_reducible apply State.memWf_updCore | with_reducible apply State.memWf_due | with_reducible apply State.memWf_count | with_reducible apply State.memWf_putD | with_reducible apply State.memWf_condFlags | with_reducible apply State.memWf_condVector | with_reducible apply State.memWf_dldEnd | with_reducible apply State.memWf_foldl | exact hs)

theorem State.memWf_markLevels {s : State} (t : Nat) (hs : s.memWf) : (State.markLevels s t).memWf := by
  unfold State.markLevels
  repeat' first
    | with_reducible assumption
    | with_reducible apply State.memWf_setLevel
    | with_reducible apply State.memWf_foldl
    | split
    | (intro _)
    | dsimp only
    | exact hs
    | (dsimp only [State.memWf]; with_reducible apply State.memWf_wf; first | with_reducible apply State.memWf_setLevel | with_reducible apply State.memWf_foldl | exact hs)

theorem State.memWf_dropSlugs {s : State} (t q : Nat) (hs : s.memWf) : (State.dropSlugs s t q).memWf := by
  unfold State.dropSlugs
  repeat' first
    | with_reducible assumption
    | with_reducible apply State.memWf_setQueue
    | with_reducible apply State.memWf_discardEntry
    | with_reducible apply State.memWf_settleQueue
    | with_reducible apply State.memWf_discardPushes
    | with_reducible apply State.memWf_foldl
    | split
    | (intro _)
    | dsimp only
    | exact hs
    | (dsimp only [State.memWf]; with_reducible apply State.memWf_wf; first | with_reducible apply State.memWf_setQueue | with_reducible apply State.memWf_discardEntry | with_reducible apply State.memWf_settleQueue | with_reducible apply State.memWf_discardPushes | with_reducible apply State.memWf_foldl | exact hs)

theorem State.memWf_dropMigrations {s : State} (t : Nat) (hs : s.memWf) : (State.dropMigrations s t).memWf := by
  unfold State.dropMigrations
  repeat' first
    | with_reducible assumption
    | with_reducible apply State.memWf_updGal
    | with_reducible apply State.memWf_retireSlug
    | with_reducible apply State.memWf_foldl
    | split
    | (intro _)
    | dsimp only
    | exact hs
    | (dsimp only [State.memWf]; with_reducible apply State.memWf_wf; first | with_reducible apply State.memWf_updGal | with_reducible apply State.memWf_retireSlug | with_reducible apply State.memWf_foldl | exact hs)

theorem State.memWf_dropFaulted {s : State} (t : Nat) (hs : s.memWf) : (State.dropFaulted s t).memWf := by
  unfold State.dropFaulted
  repeat' first
    | with_reducible assumption
    | with_reducible apply State.memWf_updDie
    | with_reducible apply State.memWf_retireSlug
    | with_reducible apply State.memWf_foldl
    | split
    | (intro _)
    | dsimp only
    | exact hs
    | (dsimp only [State.memWf]; with_reducible apply State.memWf_wf; first | with_reducible apply State.memWf_updDie | with_reducible apply State.memWf_retireSlug | with_reducible apply State.memWf_foldl | exact hs)

theorem State.memWf_closeUnder {s : State} (t : Nat) (hs : s.memWf) : (State.closeUnder s t).memWf := by
  unfold State.closeUnder
  repeat' first
    | with_reducible assumption
    | with_reducible apply State.memWf_closeQueue
    | with_reducible apply State.memWf_foldl
    | split
    | (intro _)
    | dsimp only
    | exact hs

theorem State.memWf_strikeContexts {s : State} (t : Nat) (hs : s.memWf) : (State.strikeContexts s t).memWf := by
  unfold State.strikeContexts
  repeat' first
    | with_reducible assumption
    | with_reducible apply State.memWf_updCtx
    | with_reducible apply State.memWf_withdraw
    | with_reducible apply State.memWf_foldl
    | split
    | (intro _)
    | dsimp only
    | exact hs
    | (dsimp only [State.memWf]; with_reducible apply State.memWf_wf; first | with_reducible apply State.memWf_updCtx | with_reducible apply State.memWf_withdraw | with_reducible apply State.memWf_foldl | exact hs)

theorem State.memWf_wakeBinding {s : State} (g i : Nat) (hs : s.memWf) : (State.wakeBinding s g i).memWf := by
  unfold State.wakeBinding
  repeat' first
    | with_reducible assumption
    | with_reducible apply State.memWf_setQueue
    | with_reducible apply State.memWf_due
    | with_reducible apply State.memWf_dropMsg
    | with_reducible apply State.memWf_foldl
    | split
    | (intro _)
    | dsimp only
    | exact hs
    | (dsimp only [State.memWf]; with_reducible apply State.memWf_wf; first | with_reducible apply State.memWf_setQueue | with_reducible apply State.memWf_due | with_reducible apply State.memWf_dropMsg | with_reducible apply State.memWf_foldl | exact hs)

theorem State.memWf_strikeFeeders {s : State} (t : Nat) (hs : s.memWf) : (State.strikeFeeders s t).memWf := by
  unfold State.strikeFeeders
  repeat' first
    | with_reducible assumption
    | with_reducible apply State.memWf_updGal
    | with_reducible apply State.memWf_wakeBinding
    | with_reducible apply State.memWf_foldl
    | split
    | (intro _)
    | dsimp only
    | exact hs
    | (dsimp only [State.memWf]; with_reducible apply State.memWf_wf; first | with_reducible apply State.memWf_updGal | with_reducible apply State.memWf_wakeBinding | with_reducible apply State.memWf_foldl | exact hs)

theorem State.memWf_discardPlaten {s : State} (o : PlatenOp) (hs : s.memWf) : (State.discardPlaten s o).memWf := by
  unfold State.discardPlaten
  repeat' first
    | with_reducible assumption
    | with_reducible apply State.memWf_landToken
    | with_reducible apply State.memWf_foldl
    | split
    | (intro _)
    | dsimp only
    | exact hs

theorem State.memWf_strikePlatens {s : State} (t : Nat) (hs : s.memWf) : (State.strikePlatens s t).memWf := by
  unfold State.strikePlatens
  repeat' first
    | with_reducible assumption
    | with_reducible apply State.memWf_updCore
    | with_reducible apply State.memWf_discardPlaten
    | with_reducible apply State.memWf_foldl
    | split
    | (intro _)
    | dsimp only
    | exact hs
    | (dsimp only [State.memWf]; with_reducible apply State.memWf_wf; first | with_reducible apply State.memWf_updCore | with_reducible apply State.memWf_discardPlaten | with_reducible apply State.memWf_foldl | exact hs)

theorem State.memWf_discardCond {s : State} (o : CondOp) (hs : s.memWf) : (State.discardCond s o).memWf := by
  unfold State.discardCond
  repeat' first
    | with_reducible assumption
    | with_reducible apply State.memWf_markV
    | with_reducible apply State.memWf_foldl
    | split
    | (intro _)
    | dsimp only
    | exact hs
    | (dsimp only [State.memWf]; with_reducible apply State.memWf_wf; first | with_reducible apply State.memWf_markV | with_reducible apply State.memWf_foldl | exact hs)

theorem State.memWf_strikeCondensers {s : State} (t : Nat) (hs : s.memWf) : (State.strikeCondensers s t).memWf := by
  unfold State.strikeCondensers
  repeat' first
    | with_reducible assumption
    | with_reducible apply State.memWf_updCore
    | with_reducible apply State.memWf_discardCond
    | with_reducible apply State.memWf_foldl
    | split
    | (intro _)
    | dsimp only
    | exact hs
    | (dsimp only [State.memWf]; with_reducible apply State.memWf_wf; first | with_reducible apply State.memWf_updCore | with_reducible apply State.memWf_discardCond | with_reducible apply State.memWf_foldl | exact hs)

theorem State.memWf_strikeReparts {s : State} (t : Nat) (hs : s.memWf) : (State.strikeReparts s t).memWf := by
  unfold State.strikeReparts
  repeat' first
    | with_reducible assumption
    | with_reducible apply State.memWf_updPkg
    | with_reducible apply State.memWf_landToken
    | with_reducible apply State.memWf_gather
    | with_reducible apply State.memWf_repAdvance
    | with_reducible apply State.memWf_foldl
    | split
    | (intro _)
    | dsimp only
    | exact hs
    | (dsimp only [State.memWf]; with_reducible apply State.memWf_wf; first | with_reducible apply State.memWf_updPkg | with_reducible apply State.memWf_landToken | with_reducible apply State.memWf_gather | with_reducible apply State.memWf_repAdvance | with_reducible apply State.memWf_foldl | exact hs)

theorem State.memWf_strikeEditions {s : State} (t : Nat) (hs : s.memWf) : (State.strikeEditions s t).memWf := by
  unfold State.strikeEditions
  repeat' first
    | with_reducible assumption
    | with_reducible apply State.memWf_dueOnce
    | with_reducible apply State.memWf_foldl
    | split
    | (intro _)
    | dsimp only
    | exact hs

theorem State.memWf_settleUnder {s : State} (t : Nat) (hs : s.memWf) : (State.settleUnder s t).memWf := by
  unfold State.settleUnder
  repeat' first
    | with_reducible assumption
    | with_reducible apply State.memWf_settleLevel
    | with_reducible apply State.memWf_foldl
    | split
    | (intro _)
    | dsimp only
    | exact hs

theorem State.memWf_cancelLevel {s : State} (t : Nat) (hs : s.memWf) : (State.cancelLevel s t).memWf := by
  unfold State.cancelLevel
  repeat' first
    | with_reducible assumption
    | with_reducible apply State.memWf_markLevels
    | with_reducible apply State.memWf_dropSlugs
    | with_reducible apply State.memWf_dropMigrations
    | with_reducible apply State.memWf_dropFaulted
    | with_reducible apply State.memWf_closeUnder
    | with_reducible apply State.memWf_strikeContexts
    | with_reducible apply State.memWf_strikeFeeders
    | with_reducible apply State.memWf_strikePlatens
    | with_reducible apply State.memWf_strikeCondensers
    | with_reducible apply State.memWf_strikeReparts
    | with_reducible apply State.memWf_strikeEditions
    | with_reducible apply State.memWf_settleUnder
    | with_reducible apply State.memWf_foldl
    | split
    | (intro _)
    | dsimp only
    | exact hs

theorem State.memWf_clearFaults {s : State} (p space gran : Nat) (hs : s.memWf) : (State.clearFaults s p space gran).memWf := by
  unfold State.clearFaults
  repeat' first
    | with_reducible assumption
    | with_reducible apply State.memWf_updDie
    | with_reducible apply State.memWf_foldl
    | split
    | (intro _)
    | dsimp only
    | exact hs
    | (dsimp only [State.memWf]; with_reducible apply State.memWf_wf; first | with_reducible apply State.memWf_updDie | with_reducible apply State.memWf_foldl | exact hs)

theorem State.memWf_pushSaved {s : State} (x : Slug × Nat × Nat) (hs : s.memWf) : (State.pushSaved s x).memWf := by
  unfold State.pushSaved
  repeat' first
    | with_reducible assumption
    | with_reducible apply State.memWf_machinePush
    | with_reducible apply State.memWf_foldl
    | split
    | (intro _)
    | dsimp only
    | exact hs

theorem State.memWf_retryReparts {s : State} (p space gran : Nat) (f : RepOp → RepOp) (hs : s.memWf) :
    (State.retryReparts s p space gran f).memWf := by
  unfold State.retryReparts
  refine State.memWf_foldl _ _ (fun s q hs => ?_) hs
  exact State.memWf_repAdvance _ (State.memWf_updPkg _ _ (State.memWf_fst_repRetry _ _ _ hs))

theorem State.memWf_invalidate {s : State} (p space gran pages : Nat) (hs : s.memWf) : (State.invalidate s p space gran pages).memWf := by
  unfold State.invalidate
  repeat' first
    | with_reducible assumption
    | with_reducible apply State.memWf_dueOnce
    | with_reducible apply State.memWf_foldl
    | split
    | (intro _)
    | dsimp only
    | exact hs

theorem State.memWf_invalidateStale {s : State} (p : Nat) (hs : s.memWf) : (State.invalidateStale s p).memWf := by
  unfold State.invalidateStale
  repeat' first
    | with_reducible assumption
    | with_reducible apply State.memWf_dueOnce
    | with_reducible apply State.memWf_foldl
    | split
    | (intro _)
    | dsimp only
    | exact hs

theorem State.memWf_dropFill {s : State} (p space gran : Nat) (hs : s.memWf) : (State.dropFill s p space gran).memWf := by
  unfold State.dropFill
  repeat' first
    | with_reducible assumption
    | with_reducible apply State.memWf_updPkg
    | with_reducible apply State.memWf_foldl
    | split
    | (intro _)
    | dsimp only
    | exact hs
    | (dsimp only [State.memWf]; with_reducible apply State.memWf_wf; first | with_reducible apply State.memWf_updPkg | with_reducible apply State.memWf_foldl | exact hs)

theorem State.memWf_placeFill {s : State} (p space gran : Nat) (data : List Byte) (hs : s.memWf) : (State.placeFill s p space gran data).memWf := by
  unfold State.placeFill
  repeat' first
    | with_reducible assumption
    | with_reducible apply State.memWf_setBytes
    | with_reducible apply State.memWf_foldl
    | split
    | (intro _)
    | dsimp only
    | exact hs
    | (dsimp only [State.memWf]; with_reducible apply State.memWf_wf; first | with_reducible apply State.memWf_setBytes | with_reducible apply State.memWf_foldl | exact hs)

theorem State.memWf_svcResume {s : State} (p space gran : Nat) (refused : Bool) (hs : s.memWf) : (State.svcResume s p space gran refused).memWf := by
  unfold State.svcResume
  repeat' first
    | with_reducible assumption
    | with_reducible apply State.memWf_foldl
    | split
    | (intro _)
    | dsimp only
    | exact hs
    | (dsimp only [State.memWf]; with_reducible apply State.memWf_wf; first | with_reducible apply State.memWf_foldl | exact hs)

theorem State.memWf_readOnlyCache {s : State} (p : Nat) (hs : s.memWf) : (State.readOnlyCache s p).memWf := by
  unfold State.readOnlyCache
  repeat' first
    | with_reducible assumption
    | with_reducible apply State.memWf_setBytes
    | with_reducible apply State.memWf_foldl
    | split
    | (intro _)
    | dsimp only
    | exact hs
    | (dsimp only [State.memWf]; with_reducible apply State.memWf_wf; first | with_reducible apply State.memWf_setBytes | with_reducible apply State.memWf_foldl | exact hs)

theorem State.memWf_writeEntries {s : State} (space gran : Nat) (p : Nat) (writes : List (Nat × Word)) (hs : s.memWf) : (State.writeEntries s space gran p writes).memWf := by
  unfold State.writeEntries
  repeat' first
    | with_reducible assumption
    | with_reducible apply State.memWf_updCtx
    | with_reducible apply State.memWf_setBytes
    | with_reducible apply State.memWf_foldl
    | split
    | (intro _)
    | dsimp only
    | exact hs
    | (dsimp only [State.memWf]; with_reducible apply State.memWf_wf; first | with_reducible apply State.memWf_updCtx | with_reducible apply State.memWf_setBytes | with_reducible apply State.memWf_foldl | exact hs)

theorem State.memWf_pagerMaps {s : State} (p space gran : Nat) (writes : List (Nat × Word)) (hs : s.memWf) : (State.pagerMaps s p space gran writes).memWf := by
  unfold State.pagerMaps
  repeat' first
    | with_reducible assumption
    | with_reducible apply State.memWf_updCtx
    | with_reducible apply State.memWf_startWalk
    | with_reducible apply State.memWf_recount
    | with_reducible apply State.memWf_clearFaults
    | with_reducible apply State.memWf_pushSaved
    | with_reducible apply State.memWf_retryReparts
    | with_reducible apply State.memWf_invalidate
    | with_reducible apply State.memWf_invalidateStale
    | with_reducible apply State.memWf_dropFill
    | with_reducible apply State.memWf_placeFill
    | with_reducible apply State.memWf_svcResume
    | with_reducible apply State.memWf_readOnlyCache
    | with_reducible apply State.memWf_writeEntries
    | with_reducible apply State.memWf_foldl
    | split
    | (intro _)
    | dsimp only
    | exact hs
    | (dsimp only [State.memWf]; with_reducible apply State.memWf_wf; first | with_reducible apply State.memWf_updCtx | with_reducible apply State.memWf_startWalk | with_reducible apply State.memWf_recount | with_reducible apply State.memWf_clearFaults | with_reducible apply State.memWf_pushSaved | with_reducible apply State.memWf_retryReparts | with_reducible apply State.memWf_invalidate | with_reducible apply State.memWf_invalidateStale | with_reducible apply State.memWf_dropFill | with_reducible apply State.memWf_placeFill | with_reducible apply State.memWf_svcResume | with_reducible apply State.memWf_readOnlyCache | with_reducible apply State.memWf_writeEntries | with_reducible apply State.memWf_foldl | exact hs)

theorem State.memWf_refuseSaved {s : State} (space gran : Nat) (err : Bool) (x : Slug × Nat × Nat) (hs : s.memWf) : (State.refuseSaved s space gran err x).memWf := by
  unfold State.refuseSaved
  repeat' first
    | with_reducible assumption
    | with_reducible apply State.memWf_updCore
    | with_reducible apply State.memWf_pushSaved
    | with_reducible apply State.memWf_foldl
    | split
    | (intro _)
    | dsimp only
    | exact hs
    | (dsimp only [State.memWf]; with_reducible apply State.memWf_wf; first | with_reducible apply State.memWf_updCore | with_reducible apply State.memWf_pushSaved | with_reducible apply State.memWf_foldl | exact hs)

theorem State.memWf_refuseAccess {s : State} (space gran : Nat) (err : Bool) (m : Msg) (hs : s.memWf) : (State.refuseAccess s space gran err m).memWf := by
  unfold State.refuseAccess
  repeat' first
    | with_reducible assumption
    | with_reducible apply State.memWf_refusePart
    | with_reducible apply State.memWf_bankRefuse
    | with_reducible apply State.memWf_foldl
    | split
    | (intro _)
    | dsimp only
    | exact hs
    | (dsimp only [State.memWf]; with_reducible apply State.memWf_wf; first | with_reducible apply State.memWf_refusePart | with_reducible apply State.memWf_bankRefuse | with_reducible apply State.memWf_foldl | exact hs)

theorem State.memWf_refuseFeeders {s : State} (p space gran : Nat) (hs : s.memWf) : (State.refuseFeeders s p space gran).memWf := by
  unfold State.refuseFeeders
  repeat' first
    | with_reducible assumption
    | with_reducible apply State.memWf_foldl
    | split
    | (intro _)
    | dsimp only
    | exact hs
    | (dsimp only [State.memWf]; with_reducible apply State.memWf_wf; first | with_reducible apply State.memWf_foldl | exact hs)

theorem State.memWf_refuseGroups {s : State} (p space gran : Nat) (hs : s.memWf) : (State.refuseGroups s p space gran).memWf := by
  unfold State.refuseGroups
  repeat' first
    | with_reducible assumption
    | with_reducible apply State.memWf_foldl
    | split
    | (intro _)
    | dsimp only
    | exact hs
    | (dsimp only [State.memWf]; with_reducible apply State.memWf_wf; first | with_reducible apply State.memWf_foldl | exact hs)

theorem State.memWf_withAgenda {s : State} (x : List Instr) (hs : s.memWf) : ({ s with agenda := x } : State).memWf := hs

theorem State.memWf_pagerRefuses {s : State} (p space gran : Nat) (hs : s.memWf) : (State.pagerRefuses s p space gran).memWf := by
  unfold State.pagerRefuses
  extract_lets fs err s1 s2 s3 s4 s5 s6
  have h1 : s1.memWf := State.memWf_svcResume _ _ _ _ (State.memWf_dropFill _ _ _ (State.memWf_clearFaults _ _ _ hs))
  have h2 : s2.memWf := State.memWf_withAgenda _ h1
  have h3 : s3.memWf := State.memWf_foldl _ _ (fun s c hs => by split <;> first | exact State.memWf_updCtx _ _ hs | exact hs) h2
  have h4 : s4.memWf := State.memWf_foldl _ _ (fun s x hs => State.memWf_refuseSaved _ _ _ _ hs) h3
  have h5 : s5.memWf := by
    show State.memWf (if _ then _ else _)
    split
    · exact h4
    · exact State.memWf_foldl _ _ (fun s m hs => State.memWf_refuseAccess _ _ _ _ hs) h4
  have h6 : s6.memWf := by
    show State.memWf (if _ then _ else _)
    split
    · exact h5
    · exact State.memWf_refuseGroups _ _ _ (State.memWf_refuseFeeders _ _ _ h5)
  exact State.memWf_retryReparts _ _ _ _ h6

theorem State.memWf_mapGranule {s : State} (p job va : Nat) (e : Word) (hs : s.memWf) : (State.mapGranule s p job va e).memWf := by
  unfold State.mapGranule
  repeat' first
    | with_reducible assumption
    | with_reducible apply State.memWf_setBytes
    | with_reducible apply State.memWf_foldl
    | split
    | (intro _)
    | dsimp only
    | exact hs
    | (dsimp only [State.memWf]; with_reducible apply State.memWf_wf; first | with_reducible apply State.memWf_setBytes | with_reducible apply State.memWf_foldl | exact hs)

theorem State.memWf_mapSegment {s : State} (p job va pa : Nat) (bs : List Byte) (wr : Bool) (hs : s.memWf) : (State.mapSegment s p job va pa bs wr).memWf := by
  unfold State.mapSegment
  repeat' first
    | with_reducible assumption
    | with_reducible apply State.memWf_setBytes
    | with_reducible apply State.memWf_mapGranule
    | with_reducible apply State.memWf_foldl
    | split
    | (intro _)
    | dsimp only
    | exact hs

theorem State.memWf_takePages {s : State} (p job va : Nat) (z0 : Nat) (hs : s.memWf) : (State.takePages s p job va z0).memWf := by
  induction z0 generalizing s p job va with
  | zero =>
    unfold State.takePages
    repeat' first
      | with_reducible assumption
      | with_reducible apply State.memWf_setBytes
      | with_reducible apply State.memWf_dropPage
      | with_reducible apply State.memWf_foldl
      | split
      | (intro _)
      | dsimp only
      | exact hs
      | (dsimp only [State.memWf]; with_reducible apply State.memWf_wf; first | with_reducible apply State.memWf_setBytes | with_reducible apply State.memWf_dropPage | with_reducible apply State.memWf_foldl | exact hs)
  | succ n ih =>
    unfold State.takePages
    repeat' first
      | (with_reducible apply ih)
      | with_reducible assumption
      | with_reducible apply State.memWf_setBytes
      | with_reducible apply State.memWf_dropPage
      | with_reducible apply State.memWf_foldl
      | split
      | (intro _)
      | dsimp only
      | exact hs
      | (dsimp only [State.memWf]; with_reducible apply State.memWf_wf; first | with_reducible apply State.memWf_setBytes | with_reducible apply State.memWf_dropPage | with_reducible apply State.memWf_foldl | exact hs)

theorem State.memWf_writeQueue {s : State} (key : Nat) (q : QueueImage) (home : Nat × Nat × Nat) (owner ring : Nat) (hs : s.memWf) : (State.writeQueue s key q home owner ring).memWf := by
  unfold State.writeQueue
  repeat' first
    | with_reducible assumption
    | with_reducible apply State.memWf_updDie
    | with_reducible apply State.memWf_setQueue
    | with_reducible apply State.memWf_foldl
    | split
    | (intro _)
    | dsimp only
    | exact hs
    | (dsimp only [State.memWf]; with_reducible apply State.memWf_wf; first | with_reducible apply State.memWf_updDie | with_reducible apply State.memWf_setQueue | with_reducible apply State.memWf_foldl | exact hs)

theorem State.memWf_writeQueues {s : State} (img : FormeImage) (pl : FormePlan) (homes : List (Nat × Nat × Nat)) (hs : s.memWf) : (State.writeQueues s img pl homes).memWf := by
  unfold State.writeQueues
  repeat' first
    | with_reducible assumption
    | with_reducible apply State.memWf_writeQueue
    | with_reducible apply State.memWf_foldl
    | split
    | (intro _)
    | dsimp only
    | exact hs

theorem State.memWf_newLevel {s : State} (l parent live home : Nat) (hs : s.memWf) : (State.newLevel s l parent live home).memWf := by
  unfold State.newLevel
  repeat' first
    | with_reducible assumption
    | with_reducible apply State.memWf_setLevel
    | with_reducible apply State.memWf_foldl
    | split
    | (intro _)
    | dsimp only
    | exact hs

theorem State.memWf_lowerHome {s : State} (l home : Nat) (hs : s.memWf) : (State.lowerHome s l home).memWf := by
  unfold State.lowerHome
  repeat' first
    | with_reducible assumption
    | with_reducible apply State.memWf_setLevel
    | with_reducible apply State.memWf_foldl
    | split
    | (intro _)
    | dsimp only
    | exact hs
    | (dsimp only [State.memWf]; with_reducible apply State.memWf_wf; first | with_reducible apply State.memWf_setLevel | with_reducible apply State.memWf_foldl | exact hs)

theorem State.memWf_addChild {s : State} (l parent home : Nat) (hs : s.memWf) : (State.addChild s l parent home).memWf := by
  unfold State.addChild
  repeat' first
    | with_reducible assumption
    | with_reducible apply State.memWf_setLevel
    | with_reducible apply State.memWf_newLevel
    | with_reducible apply State.memWf_lowerHome
    | with_reducible apply State.memWf_foldl
    | split
    | (intro _)
    | dsimp only
    | exact hs
    | (dsimp only [State.memWf]; with_reducible apply State.memWf_wf; first | with_reducible apply State.memWf_setLevel | with_reducible apply State.memWf_newLevel | with_reducible apply State.memWf_lowerHome | with_reducible apply State.memWf_foldl | exact hs)

theorem State.memWf_writeLevels {s : State} (img : FormeImage) (pl : FormePlan) (hs : s.memWf) : (State.writeLevels s img pl).memWf := by
  unfold State.writeLevels
  repeat' first
    | with_reducible assumption
    | with_reducible apply State.memWf_newLevel
    | with_reducible apply State.memWf_lowerHome
    | with_reducible apply State.memWf_addChild
    | with_reducible apply State.memWf_foldl
    | split
    | (intro _)
    | dsimp only
    | exact hs

theorem State.memWf_writePrograms {s : State} (img : FormeImage) (pl : FormePlan) (hs : s.memWf) : (State.writePrograms s img pl).memWf := by
  unfold State.writePrograms
  repeat' first
    | with_reducible assumption
    | with_reducible apply State.memWf_updProgram
    | with_reducible apply State.memWf_foldl
    | split
    | (intro _)
    | dsimp only
    | exact hs

theorem State.memWf_writeSegments {s : State} (p : Nat) (img : FormeImage) (pl : FormePlan) (hs : s.memWf) : (State.writeSegments s p img pl).memWf := by
  unfold State.writeSegments
  repeat' first
    | with_reducible assumption
    | with_reducible apply State.memWf_setBytes
    | with_reducible apply State.memWf_mapSegment
    | with_reducible apply State.memWf_foldl
    | split
    | (intro _)
    | dsimp only
    | exact hs
    | (dsimp only [State.memWf]; with_reducible apply State.memWf_wf; first | with_reducible apply State.memWf_setBytes | with_reducible apply State.memWf_mapSegment | with_reducible apply State.memWf_foldl | exact hs)

theorem State.memWf_takeRings {s : State} (p : Nat) (img : FormeImage) (pl : FormePlan) (hs : s.memWf) : (State.takeRings s p img pl).memWf := by
  unfold State.takeRings
  repeat' first
    | with_reducible assumption
    | with_reducible apply State.memWf_takePages
    | with_reducible apply State.memWf_foldl
    | split
    | (intro _)
    | dsimp only
    | exact hs

theorem State.memWf_clearQuiesce {s : State} (p : Nat) (pl : FormePlan) (hs : s.memWf) : (State.clearQuiesce s p pl).memWf := by
  unfold State.clearQuiesce
  repeat' first
    | with_reducible assumption
    | with_reducible apply State.memWf_setBytes
    | with_reducible apply State.memWf_foldl
    | split
    | (intro _)
    | dsimp only
    | exact hs
    | (dsimp only [State.memWf]; with_reducible apply State.memWf_wf; first | with_reducible apply State.memWf_setBytes | with_reducible apply State.memWf_foldl | exact hs)

theorem State.memWf_giveServices {s : State} (pl : FormePlan) (hs : s.memWf) : (State.giveServices s pl).memWf := by
  unfold State.giveServices
  repeat' first
    | with_reducible assumption
    | with_reducible apply State.memWf_updPkg
    | with_reducible apply State.memWf_foldl
    | split
    | (intro _)
    | dsimp only
    | exact hs
    | (dsimp only [State.memWf]; with_reducible apply State.memWf_wf; first | with_reducible apply State.memWf_updPkg | with_reducible apply State.memWf_foldl | exact hs)

theorem State.memWf_startSlugs {s : State} (p job : Nat) (ls : List Slug) (hs : s.memWf) : (State.startSlugs s p job ls).memWf := by
  unfold State.startSlugs
  repeat' first
    | with_reducible assumption
    | with_reducible apply State.memWf_machinePush
    | with_reducible apply State.memWf_foldl
    | split
    | (intro _)
    | dsimp only
    | exact hs

theorem State.memWf_formeRecords {s : State} (img : FormeImage) (pl : FormePlan) (n : Nat) (hs : s.memWf) : (State.formeRecords s img pl n).memWf := by
  unfold State.formeRecords
  repeat' first
    | with_reducible assumption
    | with_reducible apply State.memWf_updForme
    | with_reducible apply State.memWf_writeQueues
    | with_reducible apply State.memWf_writeLevels
    | with_reducible apply State.memWf_writePrograms
    | with_reducible apply State.memWf_giveServices
    | with_reducible apply State.memWf_foldl
    | split
    | (intro _)
    | dsimp only
    | exact hs

theorem State.memWf_startShare {s : State} (p : Nat) (pl : FormePlan) (hs : s.memWf) : (State.startShare s p pl).memWf := by
  unfold State.startShare
  repeat' first
    | with_reducible assumption
    | with_reducible apply State.memWf_updForme
    | with_reducible apply State.memWf_due
    | with_reducible apply State.memWf_dueOnce
    | with_reducible apply State.memWf_startSlugs
    | with_reducible apply State.memWf_foldl
    | split
    | (intro _)
    | dsimp only
    | exact hs
    | (dsimp only [State.memWf]; with_reducible apply State.memWf_wf; first | with_reducible apply State.memWf_updForme | with_reducible apply State.memWf_due | with_reducible apply State.memWf_dueOnce | with_reducible apply State.memWf_startSlugs | with_reducible apply State.memWf_foldl | exact hs)

theorem State.memWf_reject {s : State} (p : Nat) (pl : FormePlan) (r : Nat × BitVec 32 × Nat × Nat) (hs : s.memWf) : (State.reject s p pl r).memWf := by
  unfold State.reject
  repeat' first
    | with_reducible assumption
    | with_reducible apply State.memWf_updForme
    | with_reducible apply State.memWf_pushStatus
    | with_reducible apply State.memWf_writeQueues
    | with_reducible apply State.memWf_foldl
    | split
    | (intro _)
    | dsimp only
    | exact hs
    | (dsimp only [State.memWf]; with_reducible apply State.memWf_wf; first | with_reducible apply State.memWf_updForme | with_reducible apply State.memWf_pushStatus | with_reducible apply State.memWf_writeQueues | with_reducible apply State.memWf_foldl | exact hs)

theorem State.memWf_loadShare {s : State} (p : Nat) (key : BitVec 384) (b : List Byte) (img : FormeImage) (pl : FormePlan) (hs : s.memWf) : (State.loadShare s p key b img pl).memWf := by
  unfold State.loadShare
  repeat' first
    | with_reducible assumption
    | with_reducible apply State.memWf_updPkg
    | with_reducible apply State.memWf_emit
    | with_reducible apply State.memWf_writeSegments
    | with_reducible apply State.memWf_takeRings
    | with_reducible apply State.memWf_clearQuiesce
    | with_reducible apply State.memWf_formeRecords
    | with_reducible apply State.memWf_startShare
    | with_reducible apply State.memWf_foldl
    | split
    | (intro _)
    | dsimp only
    | exact hs
    | (dsimp only [State.memWf]; with_reducible apply State.memWf_wf; first | with_reducible apply State.memWf_updPkg | with_reducible apply State.memWf_emit | with_reducible apply State.memWf_writeSegments | with_reducible apply State.memWf_takeRings | with_reducible apply State.memWf_clearQuiesce | with_reducible apply State.memWf_formeRecords | with_reducible apply State.memWf_startShare | with_reducible apply State.memWf_foldl | exact hs)

theorem State.memWf_formeLoad {s : State} (p : Nat) (b : List Byte) (pl : FormePlan) (hs : s.memWf) : (State.formeLoad s p b pl).memWf := by
  unfold State.formeLoad
  repeat' first
    | with_reducible assumption
    | with_reducible apply State.memWf_emit
    | with_reducible apply State.memWf_reject
    | with_reducible apply State.memWf_loadShare
    | with_reducible apply State.memWf_foldl
    | split
    | (intro _)
    | dsimp only
    | exact hs
    | (dsimp only [State.memWf]; with_reducible apply State.memWf_wf; first | with_reducible apply State.memWf_emit | with_reducible apply State.memWf_reject | with_reducible apply State.memWf_loadShare | with_reducible apply State.memWf_foldl | exact hs)

theorem State.memWf_newGang {s : State} (f h : Nat) (hs : s.memWf) : (State.newGang s f h).memWf := by
  unfold State.newGang
  repeat' first
    | with_reducible assumption
    | with_reducible apply State.memWf_updForme
    | with_reducible apply State.memWf_dueOnce
    | with_reducible apply State.memWf_foldl
    | split
    | (intro _)
    | dsimp only
    | exact hs
    | (dsimp only [State.memWf]; with_reducible apply State.memWf_wf; first | with_reducible apply State.memWf_updForme | with_reducible apply State.memWf_dueOnce | with_reducible apply State.memWf_foldl | exact hs)

theorem State.memWf_withdrawGang {s : State} (f p : Nat) (hs : s.memWf) : (State.withdrawGang s f p).memWf := by
  unfold State.withdrawGang
  repeat' first
    | with_reducible assumption
    | with_reducible apply State.memWf_pushStatus
    | with_reducible apply State.memWf_newGang
    | with_reducible apply State.memWf_foldl
    | split
    | (intro _)
    | dsimp only
    | exact hs

theorem State.memWf_gangDeadline {s : State} (f : Nat) (hs : s.memWf) : (State.gangDeadline s f).memWf := by
  unfold State.gangDeadline
  repeat' first
    | with_reducible assumption
    | with_reducible apply State.memWf_due
    | with_reducible apply State.memWf_withdrawGang
    | with_reducible apply State.memWf_foldl
    | split
    | (intro _)
    | dsimp only
    | exact hs
    | (dsimp only [State.memWf]; with_reducible apply State.memWf_wf; first | with_reducible apply State.memWf_due | with_reducible apply State.memWf_withdrawGang | with_reducible apply State.memWf_foldl | exact hs)

theorem State.memWf_refreshQueues {s : State} (prog : BitVec 32) (g : ProgImage) (codeAt : Word) (hs : s.memWf) : (State.refreshQueues s prog g codeAt).memWf := by
  unfold State.refreshQueues
  repeat' first
    | with_reducible assumption
    | with_reducible apply State.memWf_foldl
    | split
    | (intro _)
    | dsimp only
    | exact hs
    | (dsimp only [State.memWf]; with_reducible apply State.memWf_wf; first | with_reducible apply State.memWf_foldl | exact hs)

theorem State.memWf_refreshPinned {s : State} (p : Nat) (job : Half) (g : ProgImage) (codeAt : Word) (l : Loc) (hs : s.memWf) : (State.refreshPinned s p job g codeAt l).memWf := by
  unfold State.refreshPinned
  repeat' first
    | with_reducible assumption
    | with_reducible apply State.memWf_setBytes
    | with_reducible apply State.memWf_foldl
    | split
    | (intro _)
    | dsimp only
    | exact hs
    | (dsimp only [State.memWf]; with_reducible apply State.memWf_wf; first | with_reducible apply State.memWf_setBytes | with_reducible apply State.memWf_foldl | exact hs)

theorem State.memWf_writeCode {s : State} (p job va : Nat) (bs : List Byte) (hs : s.memWf) : (State.writeCode s p job va bs).memWf := by
  unfold State.writeCode
  repeat' first
    | with_reducible assumption
    | with_reducible apply State.memWf_setBytes
    | with_reducible apply State.memWf_foldl
    | split
    | (intro _)
    | dsimp only
    | exact hs
    | (dsimp only [State.memWf]; with_reducible apply State.memWf_wf; first | with_reducible apply State.memWf_setBytes | with_reducible apply State.memWf_foldl | exact hs)

theorem State.memWf_installProgram {s : State} (prog k : BitVec 32) (new : NewProgram) (codeAt : Word) (hs : s.memWf) : (State.installProgram s prog k new codeAt).memWf := by
  unfold State.installProgram
  repeat' first
    | with_reducible assumption
    | with_reducible apply State.memWf_updProgram
    | with_reducible apply State.memWf_pushStatus
    | with_reducible apply State.memWf_refreshQueues
    | with_reducible apply State.memWf_refreshPinned
    | with_reducible apply State.memWf_writeCode
    | with_reducible apply State.memWf_foldl
    | split
    | (intro _)
    | dsimp only
    | exact hs
    | (dsimp only [State.memWf]; with_reducible apply State.memWf_wf; first | with_reducible apply State.memWf_updProgram | with_reducible apply State.memWf_pushStatus | with_reducible apply State.memWf_refreshQueues | with_reducible apply State.memWf_refreshPinned | with_reducible apply State.memWf_writeCode | with_reducible apply State.memWf_foldl | exact hs)

theorem State.memWf_unload {s : State} (f : Nat) (hs : s.memWf) : (State.unload s f).memWf := by
  unfold State.unload
  repeat' first
    | with_reducible assumption
    | with_reducible apply State.memWf_updForme
    | with_reducible apply State.memWf_closeQueue
    | with_reducible apply State.memWf_foldl
    | split
    | (intro _)
    | dsimp only
    | exact hs
    | (dsimp only [State.memWf]; with_reducible apply State.memWf_wf; first | with_reducible apply State.memWf_updForme | with_reducible apply State.memWf_closeQueue | with_reducible apply State.memWf_foldl | exact hs)

theorem State.memWf_hostSet {s : State} (p bit : Nat) (hs : s.memWf) : (State.hostSet s p bit).memWf := by
  unfold State.hostSet
  repeat' first
    | with_reducible assumption
    | with_reducible apply State.memWf_updPkg
    | with_reducible apply State.memWf_foldl
    | split
    | (intro _)
    | dsimp only
    | exact hs
    | (dsimp only [State.memWf]; with_reducible apply State.memWf_wf; first | with_reducible apply State.memWf_updPkg | with_reducible apply State.memWf_foldl | exact hs)

theorem State.memWf_hostBad {s : State} (p : Nat) (hs : s.memWf) : (State.hostBad s p).memWf := by
  unfold State.hostBad
  repeat' first
    | with_reducible assumption
    | with_reducible apply State.memWf_hostSet
    | with_reducible apply State.memWf_foldl
    | split
    | (intro _)
    | dsimp only
    | exact hs

theorem State.memWf_hostWrite {s : State} (p a : Nat) (ks : List (Nat × Nat)) (bs : List Byte) (hs : s.memWf) : (State.hostWrite s p a ks bs).memWf := by
  unfold State.hostWrite
  repeat' first
    | with_reducible assumption
    | with_reducible apply State.memWf_updDie
    | with_reducible apply State.memWf_setBytes
    | with_reducible apply State.memWf_setStamp
    | with_reducible apply State.memWf_applied
    | with_reducible apply State.memWf_foldl
    | split
    | (intro _)
    | dsimp only
    | exact hs
    | (dsimp only [State.memWf]; with_reducible apply State.memWf_wf; first | with_reducible apply State.memWf_updDie | with_reducible apply State.memWf_setBytes | with_reducible apply State.memWf_setStamp | with_reducible apply State.memWf_applied | with_reducible apply State.memWf_foldl | exact hs)

theorem State.memWf_hostReadBad {s : State} (p n : Nat) (hs : s.memWf) : (State.hostReadBad s p n).memWf := by
  unfold State.hostReadBad
  repeat' first
    | with_reducible assumption
    | with_reducible apply State.memWf_emit
    | with_reducible apply State.memWf_hostBad
    | with_reducible apply State.memWf_foldl
    | split
    | (intro _)
    | dsimp only
    | exact hs

theorem State.memWf_hostTake {s : State} (p q : Nat) (e : QEntry) {taken : State} (hs : s.memWf) (htaken : taken.memWf) : (State.hostTake s p q e taken).memWf := by
  unfold State.hostTake
  repeat' first
    | with_reducible assumption
    | with_reducible apply State.memWf_emit
    | with_reducible apply State.memWf_tookEntry
    | with_reducible apply State.memWf_settleQueue
    | with_reducible apply State.memWf_hostReadBad
    | with_reducible apply State.memWf_foldl
    | apply htaken
    | split
    | (intro _)
    | dsimp only
    | exact hs
    | exact htaken

theorem State.memWf_hostPop {s : State} (p : Nat) (handle : Half) (hs : s.memWf) : (State.hostPop s p handle).memWf := by
  unfold State.hostPop
  repeat' first
    | with_reducible assumption
    | with_reducible apply State.memWf_setQueue
    | with_reducible apply State.memWf_emit
    | with_reducible apply State.memWf_takeWaiting
    | with_reducible apply State.memWf_hostReadBad
    | with_reducible apply State.memWf_hostTake
    | with_reducible apply State.memWf_foldl
    | split
    | (intro _)
    | dsimp only
    | exact hs
    | (dsimp only [State.memWf]; with_reducible apply State.memWf_wf; first | with_reducible apply State.memWf_setQueue | with_reducible apply State.memWf_emit | with_reducible apply State.memWf_takeWaiting | with_reducible apply State.memWf_hostReadBad | with_reducible apply State.memWf_hostTake | with_reducible apply State.memWf_foldl | exact hs)

theorem State.memWf_hostWaits {s : State} (p : Nat) (addr val deadline : Nat) (at_ : Word) (hs : s.memWf) : (State.hostWaits s p addr val deadline at_).memWf := by
  unfold State.hostWaits
  repeat' first
    | with_reducible assumption
    | with_reducible apply State.memWf_updPkg
    | with_reducible apply State.memWf_due
    | with_reducible apply State.memWf_hostComplete
    | with_reducible apply State.memWf_hostBad
    | with_reducible apply State.memWf_foldl
    | split
    | (intro _)
    | dsimp only
    | exact hs
    | (dsimp only [State.memWf]; with_reducible apply State.memWf_wf; first | with_reducible apply State.memWf_updPkg | with_reducible apply State.memWf_due | with_reducible apply State.memWf_hostComplete | with_reducible apply State.memWf_hostBad | with_reducible apply State.memWf_foldl | exact hs)

theorem State.memWf_beginStep {s : State} (p n : Nat) (hs : s.memWf) : (State.beginStep s p n).memWf := by
  unfold State.beginStep
  repeat' first
    | with_reducible assumption
    | with_reducible apply State.memWf_updPkg
    | with_reducible apply State.memWf_foldl
    | with_reducible apply State.memWf_fst_outcome
    | split
    | (intro _)
    | dsimp only
    | exact hs
    | (dsimp only [State.memWf]; with_reducible apply State.memWf_wf; first | with_reducible apply State.memWf_updPkg | with_reducible apply State.memWf_foldl | exact hs)

theorem State.memWf_bootDone {s : State} (p : Nat) (hs : s.memWf) : (State.bootDone s p).memWf := by
  unfold State.bootDone
  repeat' first
    | with_reducible assumption
    | with_reducible apply State.memWf_updPkg
    | with_reducible apply State.memWf_foldl
    | split
    | (intro _)
    | dsimp only
    | exact hs
    | (dsimp only [State.memWf]; with_reducible apply State.memWf_wf; first | with_reducible apply State.memWf_updPkg | with_reducible apply State.memWf_foldl | exact hs)

theorem State.memWf_bootFrom {s : State} (p : Nat) (z0 : Nat) (z1 : Nat) (hs : s.memWf) : (State.bootFrom s p z0 z1).memWf := by
  induction z0 generalizing s p z1 with
  | zero =>
    unfold State.bootFrom
    repeat' first
      | with_reducible assumption
      | with_reducible apply State.memWf_updPkg
      | with_reducible apply State.memWf_beginStep
      | with_reducible apply State.memWf_bootDone
      | with_reducible apply State.memWf_foldl
      | with_reducible apply State.memWf_fst_outcome
      | split
      | (intro _)
      | dsimp only
      | exact hs
      | (dsimp only [State.memWf]; with_reducible apply State.memWf_wf; first | with_reducible apply State.memWf_updPkg | with_reducible apply State.memWf_beginStep | with_reducible apply State.memWf_bootDone | with_reducible apply State.memWf_foldl | exact hs)
  | succ n ih =>
    unfold State.bootFrom
    repeat' first
      | (with_reducible apply ih)
      | with_reducible assumption
      | with_reducible apply State.memWf_updPkg
      | with_reducible apply State.memWf_beginStep
      | with_reducible apply State.memWf_bootDone
      | with_reducible apply State.memWf_foldl
      | with_reducible apply State.memWf_fst_outcome
      | split
      | (intro _)
      | dsimp only
      | exact hs
      | (dsimp only [State.memWf]; with_reducible apply State.memWf_wf; first | with_reducible apply State.memWf_updPkg | with_reducible apply State.memWf_beginStep | with_reducible apply State.memWf_bootDone | with_reducible apply State.memWf_foldl | exact hs)

theorem State.memWf_bootStops {s : State} (p n : Nat) (hs : s.memWf) : (State.bootStops s p n).memWf := by
  unfold State.bootStops
  repeat' first
    | with_reducible assumption
    | with_reducible apply State.memWf_updPkg
    | with_reducible apply State.memWf_foldl
    | split
    | (intro _)
    | dsimp only
    | exact hs
    | (dsimp only [State.memWf]; with_reducible apply State.memWf_wf; first | with_reducible apply State.memWf_updPkg | with_reducible apply State.memWf_foldl | exact hs)

theorem State.memWf_bootStepEnds {s : State} (p : Nat) (ok : Bool) (path : BitVec 32) (digest : BitVec 384) (found : List (Nat × Nat)) (hs : s.memWf) : (State.bootStepEnds s p ok path digest found).memWf := by
  unfold State.bootStepEnds
  repeat' first
    | with_reducible assumption
    | with_reducible apply State.memWf_updPkg
    | with_reducible apply State.memWf_beginStep
    | with_reducible apply State.memWf_bootFrom
    | with_reducible apply State.memWf_bootStops
    | with_reducible apply State.memWf_foldl
    | with_reducible apply State.memWf_fst_outcome
    | split
    | (intro _)
    | dsimp only
    | exact hs
    | (dsimp only [State.memWf]; with_reducible apply State.memWf_wf; first | with_reducible apply State.memWf_updPkg | with_reducible apply State.memWf_beginStep | with_reducible apply State.memWf_bootFrom | with_reducible apply State.memWf_bootStops | with_reducible apply State.memWf_foldl | exact hs)

theorem State.memWf_updLead {s : State} (p : Nat) (f : Leadership → Leadership) (hs : s.memWf) : (State.updLead s p f).memWf := by
  unfold State.updLead
  repeat' first
    | with_reducible assumption
    | with_reducible apply State.memWf_updPkg
    | with_reducible apply State.memWf_foldl
    | split
    | (intro _)
    | dsimp only
    | exact hs
    | (dsimp only [State.memWf]; with_reducible apply State.memWf_wf; first | with_reducible apply State.memWf_updPkg | with_reducible apply State.memWf_foldl | exact hs)

theorem State.memWf_announce {s : State} (p : Nat) (hs : s.memWf) : (State.announce s p).memWf := by
  unfold State.announce
  repeat' first
    | with_reducible assumption
    | with_reducible apply State.memWf_updPkg
    | with_reducible apply State.memWf_emit
    | with_reducible apply State.memWf_updLead
    | with_reducible apply State.memWf_foldl
    | split
    | (intro _)
    | dsimp only
    | exact hs
    | (dsimp only [State.memWf]; with_reducible apply State.memWf_wf; first | with_reducible apply State.memWf_updPkg | with_reducible apply State.memWf_emit | with_reducible apply State.memWf_updLead | with_reducible apply State.memWf_foldl | exact hs)

theorem State.memWf_sendLead {s : State} (p : Nat) (hs : s.memWf) : (State.sendLead s p).memWf := by
  unfold State.sendLead
  repeat' first
    | with_reducible assumption
    | with_reducible apply State.memWf_emit
    | with_reducible apply State.memWf_foldl
    | split
    | (intro _)
    | dsimp only
    | exact hs

theorem State.memWf_newTick {s : State} (p f : Nat) (hs : s.memWf) : (State.newTick s p f).memWf := by
  unfold State.newTick
  repeat' first
    | with_reducible assumption
    | with_reducible apply State.memWf_newGang
    | with_reducible apply State.memWf_foldl
    | split
    | (intro _)
    | dsimp only
    | exact hs

theorem State.memWf_reissue {s : State} (p : Nat) (o : BitVec 384 × List Byte × FormePlan) (hs : s.memWf) : (State.reissue s p o).memWf := by
  unfold State.reissue
  repeat' first
    | with_reducible assumption
    | with_reducible apply State.memWf_dueOnce
    | with_reducible apply State.memWf_newTick
    | with_reducible apply State.memWf_foldl
    | split
    | (intro _)
    | dsimp only
    | exact hs

theorem State.memWf_reissueCommand {s : State} (p q : Nat) (c : BitVec 384 × PodCommand) (hs : s.memWf) : (State.reissueCommand s p q c).memWf := by
  unfold State.reissueCommand
  repeat' first
    | with_reducible assumption
    | with_reducible apply State.memWf_dueOnce
    | with_reducible apply State.memWf_foldl
    | split
    | (intro _)
    | dsimp only
    | exact hs

theorem State.memWf_takeOver {s : State} (p : Nat) (hs : s.memWf) : (State.takeOver s p).memWf := by
  unfold State.takeOver
  repeat' first
    | with_reducible assumption
    | with_reducible apply State.memWf_updLead
    | with_reducible apply State.memWf_reissue
    | with_reducible apply State.memWf_reissueCommand
    | with_reducible apply State.memWf_foldl
    | split
    | (intro _)
    | dsimp only
    | exact hs
    | (dsimp only [State.memWf]; with_reducible apply State.memWf_wf; first | with_reducible apply State.memWf_updLead | with_reducible apply State.memWf_reissue | with_reducible apply State.memWf_reissueCommand | with_reducible apply State.memWf_foldl | exact hs)

theorem State.memWf_acceptLead {s : State} (p : Nat) (m : LeadMsg) (hs : s.memWf) : (State.acceptLead s p m).memWf := by
  unfold State.acceptLead
  repeat' first
    | with_reducible assumption
    | with_reducible apply State.memWf_updPkg
    | with_reducible apply State.memWf_foldl
    | split
    | (intro _)
    | dsimp only
    | exact hs
    | (dsimp only [State.memWf]; with_reducible apply State.memWf_wf; first | with_reducible apply State.memWf_updPkg | with_reducible apply State.memWf_foldl | exact hs)

theorem State.memWf_yieldTo {s : State} (p : Nat) (c : Word × Word) (hs : s.memWf) : (State.yieldTo s p c).memWf := by
  unfold State.yieldTo
  repeat' first
    | with_reducible assumption
    | with_reducible apply State.memWf_emit
    | with_reducible apply State.memWf_foldl
    | split
    | (intro _)
    | dsimp only
    | exact hs

theorem State.memWf_askLead {s : State} (p : Nat) (round serial : Word) (hs : s.memWf) : (State.askLead s p round serial).memWf := by
  unfold State.askLead
  repeat' first
    | with_reducible assumption
    | with_reducible apply State.memWf_due
    | with_reducible apply State.memWf_emit
    | with_reducible apply State.memWf_sendLead
    | with_reducible apply State.memWf_foldl
    | split
    | (intro _)
    | dsimp only
    | exact hs
    | (dsimp only [State.memWf]; with_reducible apply State.memWf_wf; first | with_reducible apply State.memWf_due | with_reducible apply State.memWf_emit | with_reducible apply State.memWf_sendLead | with_reducible apply State.memWf_foldl | exact hs)

theorem State.memWf_registerKey {s : State} (p : Nat) (digest : BitVec 384) (r : KeyRequest) (hs : s.memWf) : (State.registerKey s p digest r).memWf := by
  unfold State.registerKey
  generalize (s.pkg p).lead.done.find? (fun e => e.1 == digest) = q
  cases q with
  | some e => exact State.memWf_emit _ hs
  | none =>
    generalize (r.len + keySpan - 1) / keySpan = n
    show State.memWf (if _ then _ else _)
    split
    · exact State.memWf_emit _ hs
    · cases freeKeys (s.pkg p).keys (s.revoking p) n with
      | none => exact State.memWf_emit _ hs
      | some b => exact State.memWf_emit _ (State.memWf_updPkg _ _ hs)

theorem State.memWf_discardCommand {s : State} (p : Nat) (hs : s.memWf) : (State.discardCommand s p).memWf := by
  unfold State.discardCommand
  repeat' first
    | with_reducible assumption
    | with_reducible apply State.memWf_updPkg
    | with_reducible apply State.memWf_foldl
    | split
    | (intro _)
    | dsimp only
    | exact hs
    | (dsimp only [State.memWf]; with_reducible apply State.memWf_wf; first | with_reducible apply State.memWf_updPkg | with_reducible apply State.memWf_foldl | exact hs)

theorem State.memWf_setRouter {s : State} (p pos : Nat) (r : Router) (hs : s.memWf) : (State.setRouter s p pos r).memWf := by
  unfold State.setRouter
  repeat' first
    | with_reducible assumption
    | with_reducible apply State.memWf_updPkg
    | with_reducible apply State.memWf_foldl
    | split
    | (intro _)
    | dsimp only
    | exact hs
    | (dsimp only [State.memWf]; with_reducible apply State.memWf_wf; first | with_reducible apply State.memWf_updPkg | with_reducible apply State.memWf_foldl | exact hs)

theorem State.memWf_hop {s : State} (p pos : Nat) (e : Nat × Flit) (hs : s.memWf) : (State.hop s p pos e).memWf := by
  unfold State.hop
  repeat' first
    | with_reducible assumption
    | with_reducible apply State.memWf_dueOnce
    | with_reducible apply State.memWf_setRouter
    | with_reducible apply State.memWf_foldl
    | split
    | (intro _)
    | dsimp only
    | exact hs
    | (dsimp only [State.memWf]; with_reducible apply State.memWf_wf; first | with_reducible apply State.memWf_dueOnce | with_reducible apply State.memWf_setRouter | with_reducible apply State.memWf_foldl | exact hs)

theorem State.memWf_sendPacket {s : State} (p l : Nat) (k : Packet) (hs : s.memWf) : (State.sendPacket s p l k).memWf := by
  unfold State.sendPacket
  repeat' first
    | with_reducible assumption
    | with_reducible apply State.memWf_updPkg
    | with_reducible apply State.memWf_emit
    | with_reducible apply State.memWf_foldl
    | split
    | (intro _)
    | dsimp only
    | exact hs
    | (dsimp only [State.memWf]; with_reducible apply State.memWf_wf; first | with_reducible apply State.memWf_updPkg | with_reducible apply State.memWf_emit | with_reducible apply State.memWf_foldl | exact hs)

theorem State.memWf_acknowledge {s : State} (p link : Nat) (k : Packet) (hs : s.memWf) : (State.acknowledge s p link k).memWf := by
  unfold State.acknowledge
  repeat' first
    | with_reducible assumption
    | with_reducible apply State.memWf_updPkg
    | with_reducible apply State.memWf_foldl
    | split
    | (intro _)
    | dsimp only
    | exact hs
    | (dsimp only [State.memWf]; with_reducible apply State.memWf_wf; first | with_reducible apply State.memWf_updPkg | with_reducible apply State.memWf_foldl | exact hs)

theorem State.memWf_failedTry {s : State} (p link : Nat) (hs : s.memWf) : (State.failedTry s p link).memWf := by
  unfold State.failedTry
  repeat' first
    | with_reducible assumption
    | with_reducible apply State.memWf_updPkg
    | with_reducible apply State.memWf_dueOnce
    | with_reducible apply State.memWf_foldl
    | split
    | (intro _)
    | dsimp only
    | exact hs
    | (dsimp only [State.memWf]; with_reducible apply State.memWf_wf; first | with_reducible apply State.memWf_updPkg | with_reducible apply State.memWf_dueOnce | with_reducible apply State.memWf_foldl | exact hs)

theorem State.memWf_resend {s : State} (p other : Nat) (k : Packet) (hs : s.memWf) : (State.resend s p other k).memWf := by
  unfold State.resend
  repeat' first
    | with_reducible assumption
    | with_reducible apply State.memWf_sendPacket
    | with_reducible apply State.memWf_foldl
    | split
    | (intro _)
    | dsimp only
    | exact hs
    | (dsimp only [State.memWf]; with_reducible apply State.memWf_wf; first | with_reducible apply State.memWf_sendPacket | with_reducible apply State.memWf_foldl | exact hs)

theorem State.memWf_withCtxs {s : State} (x : Map Ctx) (hs : s.memWf) : ({ s with ctxs := x } : State).memWf := hs

theorem State.memWf_readClasses {s : State} (p n : Nat) (hs : s.memWf) : (State.readClasses s p n).memWf := by
  unfold State.readClasses
  extract_lets
  refine State.memWf_withCtxs _ (State.memWf_foldl _ _ (fun s k hs => State.memWf_updCore _ _ hs) ?_)
  exact State.memWf_foldl _ _ (fun s k hs => State.memWf_emit _ hs) hs

theorem State.memWf_callAll {s : State} (p : Nat) (hs : s.memWf) : (State.callAll s p).memWf := by
  unfold State.callAll
  repeat' first
    | with_reducible assumption
    | with_reducible apply State.memWf_callDispatcher
    | with_reducible apply State.memWf_foldl
    | split
    | (intro _)
    | dsimp only
    | exact hs

theorem State.memWf_newInterval {s : State} (p f : Nat) (hs : s.memWf) : (State.newInterval s p f).memWf := by
  unfold State.newInterval
  repeat' first
    | with_reducible assumption
    | with_reducible apply State.memWf_updPkg
    | with_reducible apply State.memWf_callAll
    | with_reducible apply State.memWf_foldl
    | split
    | (intro _)
    | dsimp only
    | exact hs
    | (dsimp only [State.memWf]; with_reducible apply State.memWf_wf; first | with_reducible apply State.memWf_updPkg | with_reducible apply State.memWf_callAll | with_reducible apply State.memWf_foldl | exact hs)

theorem State.memWf_allotTick {s : State} (p f charge : Nat) (a : Allot) (hs : s.memWf) : (State.allotTick s p f charge a).memWf := by
  unfold State.allotTick
  repeat' first
    | with_reducible assumption
    | with_reducible apply State.memWf_updPkg
    | with_reducible apply State.memWf_count
    | with_reducible apply State.memWf_charge
    | with_reducible apply State.memWf_pushStatus
    | with_reducible apply State.memWf_callAll
    | with_reducible apply State.memWf_newInterval
    | with_reducible apply State.memWf_foldl
    | split
    | (intro _)
    | dsimp only
    | exact hs
    | (dsimp only [State.memWf]; with_reducible apply State.memWf_wf; first | with_reducible apply State.memWf_updPkg | with_reducible apply State.memWf_count | with_reducible apply State.memWf_charge | with_reducible apply State.memWf_pushStatus | with_reducible apply State.memWf_callAll | with_reducible apply State.memWf_newInterval | with_reducible apply State.memWf_foldl | exact hs)

theorem State.memWf_spoil {s : State} (e : Protected) (hs : s.memWf) : (State.spoil s e).memWf := by
  unfold State.spoil
  repeat' first
    | with_reducible assumption
    | with_reducible apply State.memWf_updCore
    | with_reducible apply State.memWf_setQueue
    | with_reducible apply State.memWf_setGReg
    | with_reducible apply State.memWf_setVReg
    | with_reducible apply State.memWf_setDReg
    | with_reducible apply State.memWf_foldl
    | split
    | (intro _)
    | dsimp only
    | exact hs
    | (dsimp only [State.memWf]; with_reducible apply State.memWf_wf; first | with_reducible apply State.memWf_updCore | with_reducible apply State.memWf_setQueue | with_reducible apply State.memWf_setGReg | with_reducible apply State.memWf_setVReg | with_reducible apply State.memWf_setDReg | with_reducible apply State.memWf_foldl | exact hs)

theorem State.memWf_strike {s : State} (e : StorageError) (hs : s.memWf) : (State.strike s e).memWf := by
  unfold State.strike
  repeat' first
    | with_reducible assumption
    | with_reducible apply State.memWf_updDie
    | with_reducible apply State.memWf_place
    | with_reducible apply State.memWf_spoil
    | with_reducible apply State.memWf_foldl
    | split
    | (intro _)
    | dsimp only
    | exact hs
    | (dsimp only [State.memWf]; with_reducible apply State.memWf_wf; first | with_reducible apply State.memWf_updDie | with_reducible apply State.memWf_place | with_reducible apply State.memWf_spoil | with_reducible apply State.memWf_foldl | exact hs)

theorem State.memWf_traceAnswer {s : State} (d : Nat) (rcd res : List Byte) (hs : s.memWf) : (State.traceAnswer s d rcd res).memWf := by
  unfold State.traceAnswer
  repeat' first
    | with_reducible assumption
    | with_reducible apply State.memWf_emit
    | with_reducible apply State.memWf_machinePush
    | with_reducible apply State.memWf_foldl
    | split
    | (intro _)
    | dsimp only
    | exact hs

theorem State.memWf_armTrace {s : State} (d : Nat) (hs : s.memWf) : (State.armTrace s d).memWf := by
  unfold State.armTrace
  repeat' first
    | with_reducible assumption
    | with_reducible apply State.memWf_due
    | with_reducible apply State.memWf_foldl
    | split
    | (intro _)
    | dsimp only
    | exact hs

theorem State.memWf_fst_shadowEntry {s : State} (b : Shadow) (hs : s.memWf) : (State.shadowEntry s b).2.memWf := hs

theorem State.memWf_shadowEntries {s : State} (l : List Shadow) (a : List (List Byte)) (hs : s.memWf) :
    (l.foldl (fun (x : List (List Byte) × State) y => let z := x.2.shadowEntry y; (x.1 ++ [z.1], z.2)) (a, s)).2.memWf := by
  induction l generalizing a s with
  | nil => exact hs
  | cons b r ih => exact ih _ (State.memWf_fst_shadowEntry b hs)

theorem State.memWf_fst_dumpBytes {s : State} (p : Nat) (t : Word) (hs : s.memWf) : (State.dumpBytes s p t).2.memWf :=
  State.memWf_shadowEntries _ _ hs

theorem State.memWf_holdAll {s : State} (p : Nat) (hs : s.memWf) : (State.holdAll s p).memWf := by
  unfold State.holdAll
  repeat' first
    | with_reducible assumption
    | with_reducible apply State.memWf_chold
    | with_reducible apply State.memWf_foldl
    | split
    | (intro _)
    | dsimp only
    | exact hs

theorem State.memWf_svcMiss {s : State} (p : Nat) (x : Nat × Nat × Nat) (hs : s.memWf) : (State.svcMiss s p x).memWf := by
  unfold State.svcMiss
  repeat' first
    | with_reducible assumption
    | with_reducible apply State.memWf_updPkg
    | with_reducible apply State.memWf_faultAt
    | with_reducible apply State.memWf_foldl
    | split
    | (intro _)
    | dsimp only
    | exact hs
    | (dsimp only [State.memWf]; with_reducible apply State.memWf_wf; first | with_reducible apply State.memWf_updPkg | with_reducible apply State.memWf_faultAt | with_reducible apply State.memWf_foldl | exact hs)

theorem State.memWf_svcForget {s : State} (p job a n : Nat) (hs : s.memWf) : (State.svcForget s p job a n).memWf := by
  unfold State.svcForget
  repeat' first
    | with_reducible assumption
    | with_reducible apply State.memWf_updPkg
    | with_reducible apply State.memWf_foldl
    | split
    | (intro _)
    | dsimp only
    | exact hs
    | (dsimp only [State.memWf]; with_reducible apply State.memWf_wf; first | with_reducible apply State.memWf_updPkg | with_reducible apply State.memWf_foldl | exact hs)

theorem State.memWf_of_svcTake {s : State} {p job kind : Nat} {r : List Byte} {t : State} (e : State.svcTake s p job kind r = some t)
    (hs : s.memWf) : t.memWf := by
  have some_wf {u : State} (h : u.memWf) : (some u = some t) → t.memWf := fun e => Option.some.inj e ▸ h
  have none_wf : ((none : Option State) = some t) → t.memWf := fun e => nomatch e
  revert e
  unfold State.svcTake
  dsimp only
  split
  · exact some_wf (State.memWf_updPkg _ _ hs)
  · split
    · exact some_wf hs
    · split
      · split
        · exact some_wf (State.memWf_settleQueue _ (State.memWf_touch _ (State.memWf_setQueue _ _ hs)))
        · exact none_wf
      · split
        · exact some_wf (State.memWf_settleQueue _ (State.memWf_touch _ (State.memWf_takeWaiting _ _ _ _ hs)))
        · exact none_wf
      · exact none_wf

theorem State.memWf_svcKeep {s : State} (p job : Nat) (r : List Byte) (hs : s.memWf) : (State.svcKeep s p job r).memWf := by
  unfold State.svcKeep
  repeat' first
    | with_reducible assumption
    | with_reducible apply State.memWf_updPkg
    | with_reducible apply State.memWf_foldl
    | split
    | (intro _)
    | dsimp only
    | exact hs
    | (dsimp only [State.memWf]; with_reducible apply State.memWf_wf; first | with_reducible apply State.memWf_updPkg | with_reducible apply State.memWf_foldl | exact hs)

theorem State.memWf_svcPush {s : State} (p job h : Nat) (v : BitVec 512) (c : Clock) (hs : s.memWf) : (State.svcPush s p job h v c).memWf := by
  unfold State.svcPush
  repeat' first
    | with_reducible assumption
    | with_reducible apply State.memWf_bringIn
    | with_reducible apply State.memWf_machinePush
    | with_reducible apply State.memWf_foldl
    | split
    | (intro _)
    | dsimp only
    | exact hs

theorem State.memWf_storageEnds {s : State} (p job : Nat) (r : List Byte) (status : Int) (nvme : Nat) (c : Clock) (hs : s.memWf) : (State.storageEnds s p job r status nvme c).memWf := by
  unfold State.storageEnds
  repeat' first
    | with_reducible assumption
    | with_reducible apply State.memWf_svcForget
    | with_reducible apply State.memWf_svcPush
    | with_reducible apply State.memWf_foldl
    | split
    | (intro _)
    | dsimp only
    | exact hs

theorem State.memWf_sendCommands {s : State} (p job i : Nat) (r data : List Byte) (hs : s.memWf) : (State.sendCommands s p job i r data).memWf := by
  unfold State.sendCommands
  repeat' first
    | with_reducible assumption
    | with_reducible apply State.memWf_emit
    | with_reducible apply State.memWf_foldl
    | split
    | (intro _)
    | dsimp only
    | exact hs

theorem State.memWf_startRequest {s : State} (p job : Nat) (r data : List Byte) (hs : s.memWf) : (State.startRequest s p job r data).memWf := by
  unfold State.startRequest
  repeat' first
    | with_reducible assumption
    | with_reducible apply State.memWf_updPkg
    | with_reducible apply State.memWf_emit
    | with_reducible apply State.memWf_sendCommands
    | with_reducible apply State.memWf_foldl
    | split
    | (intro _)
    | dsimp only
    | exact hs
    | (dsimp only [State.memWf]; with_reducible apply State.memWf_wf; first | with_reducible apply State.memWf_updPkg | with_reducible apply State.memWf_emit | with_reducible apply State.memWf_sendCommands | with_reducible apply State.memWf_foldl | exact hs)

theorem State.memWf_onRequest {s : State} (p job kind : Nat) (r : List Byte) (k : State → State) (hs : s.memWf) (hk : ∀ t, t.memWf → (k t).memWf) :
    (State.onRequest s p job kind r k).memWf := by
  unfold State.onRequest
  split
  · rename_i h; exact hk _ (State.memWf_of_svcTake h hs)
  · exact State.memWf_serviceDue _ hs

theorem State.memWf_dropRequest {s : State} (p i : Nat) (hs : s.memWf) : (State.dropRequest s p i).memWf := by
  unfold State.dropRequest
  repeat' first
    | with_reducible assumption
    | with_reducible apply State.memWf_updPkg
    | with_reducible apply State.memWf_foldl
    | split
    | (intro _)
    | dsimp only
    | exact hs
    | (dsimp only [State.memWf]; with_reducible apply State.memWf_wf; first | with_reducible apply State.memWf_updPkg | with_reducible apply State.memWf_foldl | exact hs)

theorem State.memWf_fillEnds {s : State} (p i : Nat) (q : StorageReq) (sp gr : Nat) (status : Half) (data : List Byte) (hs : s.memWf) : (State.fillEnds s p i q sp gr status data).memWf := by
  unfold State.fillEnds
  repeat' first
    | with_reducible assumption
    | with_reducible apply State.memWf_updPkg
    | with_reducible apply State.memWf_due
    | with_reducible apply State.memWf_foldl
    | split
    | (intro _)
    | dsimp only
    | exact hs
    | (dsimp only [State.memWf]; with_reducible apply State.memWf_wf; first | with_reducible apply State.memWf_updPkg | with_reducible apply State.memWf_due | with_reducible apply State.memWf_foldl | exact hs)

theorem State.memWf_requestEnds {s : State} (p i : Nat) (q : StorageReq) (status : Half) (data : List Byte) (hs : s.memWf) : (State.requestEnds s p i q status data).memWf := by
  unfold State.requestEnds
  repeat' first
    | with_reducible assumption
    | with_reducible apply State.memWf_due
    | with_reducible apply State.memWf_svcMiss
    | with_reducible apply State.memWf_storageEnds
    | with_reducible apply State.memWf_dropRequest
    | with_reducible apply State.memWf_foldl
    | (refine State.memWf_of_putAll (by assumption) ?_)
    | with_reducible apply State.memWf_fst_putAll
    | split
    | (intro _)
    | dsimp only
    | exact hs
    | (dsimp only [State.memWf]; with_reducible apply State.memWf_wf; first | with_reducible apply State.memWf_due | with_reducible apply State.memWf_svcMiss | with_reducible apply State.memWf_storageEnds | with_reducible apply State.memWf_dropRequest | with_reducible apply State.memWf_foldl | exact hs)

theorem State.memWf_fillFaulted {s : State} (p job : Nat) (gs : List Nat) (hs : s.memWf) : (State.fillFaulted s p job gs).memWf := by
  unfold State.fillFaulted
  repeat' first
    | with_reducible assumption
    | with_reducible apply State.memWf_startFill
    | with_reducible apply State.memWf_foldl
    | split
    | (intro _)
    | dsimp only
    | exact hs

theorem State.memWf_unmapGranule {s : State} (p job gr : Nat) (hs : s.memWf) : (State.unmapGranule s p job gr).memWf := by
  unfold State.unmapGranule
  repeat' first
    | with_reducible assumption
    | with_reducible apply State.memWf_setBytes
    | with_reducible apply State.memWf_invalidate
    | with_reducible apply State.memWf_foldl
    | split
    | (intro _)
    | dsimp only
    | exact hs
    | (dsimp only [State.memWf]; with_reducible apply State.memWf_wf; first | with_reducible apply State.memWf_setBytes | with_reducible apply State.memWf_invalidate | with_reducible apply State.memWf_foldl | exact hs)

theorem State.memWf_setLoad {s : State} (p desc : Nat) (y : EditionLoad) (hs : s.memWf) : (State.setLoad s p desc y).memWf := by
  unfold State.setLoad
  repeat' first
    | with_reducible assumption
    | with_reducible apply State.memWf_updPkg
    | with_reducible apply State.memWf_foldl
    | split
    | (intro _)
    | dsimp only
    | exact hs
    | (dsimp only [State.memWf]; with_reducible apply State.memWf_wf; first | with_reducible apply State.memWf_updPkg | with_reducible apply State.memWf_foldl | exact hs)

theorem State.memWf_returnBuffer {s : State} (p : Nat) (job : Half) (base len : Nat) (hs : s.memWf) : (State.returnBuffer s p job base len).memWf := by
  unfold State.returnBuffer
  repeat' first
    | with_reducible assumption
    | with_reducible apply State.memWf_withdrawShadow
    | with_reducible apply State.memWf_unmapGranule
    | with_reducible apply State.memWf_foldl
    | split
    | (intro _)
    | dsimp only
    | exact hs
    | (dsimp only [State.memWf]; with_reducible apply State.memWf_wf; first | with_reducible apply State.memWf_withdrawShadow | with_reducible apply State.memWf_unmapGranule | with_reducible apply State.memWf_foldl | exact hs)

theorem State.memWf_loadEnds {s : State} (p desc : Nat) (x : EditionLoad) (status : Int) (shard attempts : Nat) (c : Clock) (hs : s.memWf) : (State.loadEnds s p desc x status shard attempts c).memWf := by
  unfold State.loadEnds
  repeat' first
    | with_reducible assumption
    | with_reducible apply State.memWf_updPkg
    | with_reducible apply State.memWf_dueOnce
    | with_reducible apply State.memWf_svcPush
    | with_reducible apply State.memWf_foldl
    | split
    | (intro _)
    | dsimp only
    | exact hs
    | (dsimp only [State.memWf]; with_reducible apply State.memWf_wf; first | with_reducible apply State.memWf_updPkg | with_reducible apply State.memWf_dueOnce | with_reducible apply State.memWf_svcPush | with_reducible apply State.memWf_foldl | exact hs)

theorem State.memWf_loadFails {s : State} (p desc : Nat) (x : EditionLoad) (status : Int) (shard attempts : Nat) (hs : s.memWf) : (State.loadFails s p desc x status shard attempts).memWf := by
  unfold State.loadFails
  repeat' first
    | with_reducible assumption
    | with_reducible apply State.memWf_returnBuffer
    | with_reducible apply State.memWf_loadEnds
    | with_reducible apply State.memWf_foldl
    | split
    | (intro _)
    | dsimp only
    | exact hs

theorem State.memWf_fetchCommand {s : State} (p : Nat) (x : EditionLoad) (h : Shard) (hs : s.memWf) : (State.fetchCommand s p x h).memWf := by
  unfold State.fetchCommand
  repeat' first
    | with_reducible assumption
    | with_reducible apply State.memWf_emit
    | with_reducible apply State.memWf_foldl
    | split
    | (intro _)
    | dsimp only
    | exact hs
    | (dsimp only [State.memWf]; with_reducible apply State.memWf_wf; first | with_reducible apply State.memWf_emit | with_reducible apply State.memWf_foldl | exact hs)

theorem State.memWf_launch {s : State} (p desc : Nat) (z0 : Nat) (z1 : EditionLoad) (hs : s.memWf) : (State.launch s p desc z0 z1).memWf := by
  induction z0 generalizing s p desc z1 with
  | zero =>
    unfold State.launch
    repeat' first
      | with_reducible assumption
      | with_reducible apply State.memWf_setLoad
      | with_reducible apply State.memWf_fetchCommand
      | with_reducible apply State.memWf_foldl
      | split
      | (intro _)
      | dsimp only
      | exact hs
      | (dsimp only [State.memWf]; with_reducible apply State.memWf_wf; first | with_reducible apply State.memWf_setLoad | with_reducible apply State.memWf_fetchCommand | with_reducible apply State.memWf_foldl | exact hs)
  | succ n ih =>
    unfold State.launch
    repeat' first
      | (with_reducible apply ih)
      | with_reducible assumption
      | with_reducible apply State.memWf_setLoad
      | with_reducible apply State.memWf_fetchCommand
      | with_reducible apply State.memWf_foldl
      | split
      | (intro _)
      | dsimp only
      | exact hs
      | (dsimp only [State.memWf]; with_reducible apply State.memWf_wf; first | with_reducible apply State.memWf_setLoad | with_reducible apply State.memWf_fetchCommand | with_reducible apply State.memWf_foldl | exact hs)

theorem State.memWf_loadBegins {s : State} (p desc : Nat) (x : EditionLoad) (man : List Byte) (t : Nat) (hs : s.memWf) : (State.loadBegins s p desc x man t).memWf := by
  unfold State.loadBegins
  repeat' first
    | with_reducible assumption
    | with_reducible apply State.memWf_updPkg
    | with_reducible apply State.memWf_declared
    | with_reducible apply State.memWf_returnBuffer
    | with_reducible apply State.memWf_loadFails
    | with_reducible apply State.memWf_launch
    | with_reducible apply State.memWf_foldl
    | (refine State.memWf_of_declare (by assumption) ?_)
    | with_reducible apply State.memWf_fst_declare
    | split
    | (intro _)
    | dsimp only
    | exact hs
    | (dsimp only [State.memWf]; with_reducible apply State.memWf_wf; first | with_reducible apply State.memWf_updPkg | with_reducible apply State.memWf_declared | with_reducible apply State.memWf_returnBuffer | with_reducible apply State.memWf_loadFails | with_reducible apply State.memWf_launch | with_reducible apply State.memWf_foldl | exact hs)

theorem State.memWf_loadSteps {s : State} (p desc : Nat) (hs : s.memWf) : (State.loadSteps s p desc).memWf := by
  unfold State.loadSteps
  repeat' first
    | with_reducible assumption
    | with_reducible apply State.memWf_dueOnce
    | with_reducible apply State.memWf_svcMiss
    | with_reducible apply State.memWf_loadFails
    | with_reducible apply State.memWf_loadBegins
    | with_reducible apply State.memWf_foldl
    | split
    | (intro _)
    | dsimp only
    | exact hs
    | (dsimp only [State.memWf]; with_reducible apply State.memWf_wf; first | with_reducible apply State.memWf_dueOnce | with_reducible apply State.memWf_svcMiss | with_reducible apply State.memWf_loadFails | with_reducible apply State.memWf_loadBegins | with_reducible apply State.memWf_foldl | exact hs)

theorem State.memWf_shardHashed {s : State} (p desc : Nat) (x : EditionLoad) (h : Shard) (good : Bool) (hs : s.memWf) : (State.shardHashed s p desc x h good).memWf := by
  unfold State.shardHashed
  repeat' first
    | with_reducible assumption
    | with_reducible apply State.memWf_due
    | with_reducible apply State.memWf_setLoad
    | with_reducible apply State.memWf_loadFails
    | with_reducible apply State.memWf_fetchCommand
    | with_reducible apply State.memWf_foldl
    | split
    | (intro _)
    | dsimp only
    | exact hs
    | (dsimp only [State.memWf]; with_reducible apply State.memWf_wf; first | with_reducible apply State.memWf_due | with_reducible apply State.memWf_setLoad | with_reducible apply State.memWf_loadFails | with_reducible apply State.memWf_fetchCommand | with_reducible apply State.memWf_foldl | exact hs)

theorem State.memWf_shardFetched {s : State} (p desc : Nat) (x : EditionLoad) (h : Shard) (ok : Bool) (data : List Byte) (hs : s.memWf) : (State.shardFetched s p desc x h ok data).memWf := by
  unfold State.shardFetched
  repeat' first
    | with_reducible assumption
    | with_reducible apply State.memWf_due
    | with_reducible apply State.memWf_svcMiss
    | with_reducible apply State.memWf_loadFails
    | with_reducible apply State.memWf_shardHashed
    | with_reducible apply State.memWf_foldl
    | (refine State.memWf_of_putAll (by assumption) ?_)
    | with_reducible apply State.memWf_fst_putAll
    | split
    | (intro _)
    | dsimp only
    | exact hs
    | (dsimp only [State.memWf]; with_reducible apply State.memWf_wf; first | with_reducible apply State.memWf_due | with_reducible apply State.memWf_svcMiss | with_reducible apply State.memWf_loadFails | with_reducible apply State.memWf_shardHashed | with_reducible apply State.memWf_foldl | exact hs)

theorem State.memWf_of_publishLoad {s : State} {p : Nat} {x : EditionLoad} {t : State} {u : Word} (e : State.publishLoad s p x = (t, u)) (hs : s.memWf) : t.memWf := by
  revert e
  unfold State.publishLoad
  repeat' first
    | (intro e; refine State.memWf_of_publishBuffer e ?_)
    | (intro e; cases e; done)
    | (intro e; cases e)
    | dsimp only
    | split
    | with_reducible assumption
    | with_reducible apply State.memWf_foldl
    | (refine State.memWf_of_publishBuffer (by assumption) ?_)
    | with_reducible apply State.memWf_fst_publishBuffer
    | split
    | dsimp only
    | exact hs
    | (dsimp only [State.memWf]; with_reducible apply State.memWf_wf; first | with_reducible apply State.memWf_foldl | exact hs)

theorem State.memWf_fst_publishLoad {s : State} (p : Nat) (x : EditionLoad) (hs : s.memWf) : (State.publishLoad s p x).1.memWf := State.memWf_of_publishLoad rfl hs

theorem State.memWf_shardOver {s : State} (p desc : Nat) (x : EditionLoad) (h : Shard) (hs : s.memWf) : (State.shardOver s p desc x h).memWf := by
  unfold State.shardOver
  repeat' first
    | with_reducible assumption
    | with_reducible apply State.memWf_due
    | with_reducible apply State.memWf_setLoad
    | with_reducible apply State.memWf_launch
    | with_reducible apply State.memWf_foldl
    | (refine State.memWf_of_publishLoad (by assumption) ?_)
    | with_reducible apply State.memWf_fst_publishLoad
    | split
    | (intro _)
    | dsimp only
    | exact hs
    | (dsimp only [State.memWf]; with_reducible apply State.memWf_wf; first | with_reducible apply State.memWf_due | with_reducible apply State.memWf_setLoad | with_reducible apply State.memWf_launch | with_reducible apply State.memWf_foldl | exact hs)

theorem State.memWf_shardTransforms {s : State} (p desc : Nat) (x : EditionLoad) (h : Shard) (status : Word) (hs : s.memWf) : (State.shardTransforms s p desc x h status).memWf := by
  unfold State.shardTransforms
  repeat' first
    | with_reducible assumption
    | with_reducible apply State.memWf_due
    | with_reducible apply State.memWf_svcMiss
    | with_reducible apply State.memWf_loadFails
    | with_reducible apply State.memWf_shardOver
    | with_reducible apply State.memWf_foldl
    | (refine State.memWf_of_putAll (by assumption) ?_)
    | with_reducible apply State.memWf_fst_putAll
    | split
    | (intro _)
    | dsimp only
    | exact hs
    | (dsimp only [State.memWf]; with_reducible apply State.memWf_wf; first | with_reducible apply State.memWf_due | with_reducible apply State.memWf_svcMiss | with_reducible apply State.memWf_loadFails | with_reducible apply State.memWf_shardOver | with_reducible apply State.memWf_foldl | exact hs)

theorem State.memWf_flips {s : State} (p desc : Nat) (x : EditionLoad) (token : Word) (hs : s.memWf) : (State.flips s p desc x token).memWf := by
  unfold State.flips
  repeat' first
    | with_reducible assumption
    | with_reducible apply State.memWf_updPkg
    | with_reducible apply State.memWf_due
    | with_reducible apply State.memWf_svcMiss
    | with_reducible apply State.memWf_loadEnds
    | with_reducible apply State.memWf_loadFails
    | with_reducible apply State.memWf_foldl
    | (refine State.memWf_of_putAll (by assumption) ?_)
    | with_reducible apply State.memWf_fst_putAll
    | split
    | (intro _)
    | dsimp only
    | exact hs
    | (dsimp only [State.memWf]; with_reducible apply State.memWf_wf; first | with_reducible apply State.memWf_updPkg | with_reducible apply State.memWf_due | with_reducible apply State.memWf_svcMiss | with_reducible apply State.memWf_loadEnds | with_reducible apply State.memWf_loadFails | with_reducible apply State.memWf_foldl | exact hs)

theorem State.memWf_returnSlot {s : State} (p : Nat) (o : OldSlot) (hs : s.memWf) : (State.returnSlot s p o).memWf := by
  unfold State.returnSlot
  repeat' first
    | with_reducible assumption
    | with_reducible apply State.memWf_returnBuffer
    | with_reducible apply State.memWf_foldl
    | (refine State.memWf_of_putAll (by assumption) ?_)
    | with_reducible apply State.memWf_fst_putAll
    | split
    | (intro _)
    | dsimp only
    | exact hs

theorem State.memWf_of_choice {s : State} {n : Nat} {t : State} {u : Nat} (e : State.choice s n = (u, t)) (hs : s.memWf) : t.memWf := by
  revert e
  unfold State.choice
  repeat' first
    | (intro e; cases e; done)
    | (intro e; cases e)
    | dsimp only
    | split
    | with_reducible assumption
    | with_reducible apply State.memWf_foldl
    | split
    | dsimp only
    | exact hs
    | (dsimp only [State.memWf]; with_reducible apply State.memWf_wf; first | with_reducible apply State.memWf_foldl | exact hs)

theorem State.memWf_fst_choice {s : State} (n : Nat) (hs : s.memWf) : (State.choice s n).2.memWf := State.memWf_of_choice rfl hs

theorem State.memWf_idle {s : State} (hs : s.memWf) : (State.idle s).memWf := by
  unfold State.idle
  repeat' first
    | with_reducible assumption
    | with_reducible apply State.memWf_advance
    | with_reducible apply State.memWf_foldl
    | split
    | (intro _)
    | dsimp only
    | exact hs

theorem State.memWf_withFetchWord {s : State} (nbits w : Nat) (hs : s.memWf) : (State.withFetchWord s nbits w).memWf := by
  unfold State.withFetchWord
  repeat' first
    | with_reducible assumption
    | with_reducible apply State.memWf_loadWord
    | with_reducible apply State.memWf_foldl
    | split
    | (intro _)
    | dsimp only
    | exact hs

end Sys2Proof.Machine
end

