-- ==== Sys2Proof/Laws/Send.lean ====
section
/-! SUPPORT. What a request, a posted message and a group of stores do: what leaves, what is pending, what stays
(spec/01_machine.md R20, R21; spec/05_ordering.md R107, R110). -/

set_option Elab.async false

namespace Sys2Proof.Machine

theorem DiesButClock.of_same {s t : State} (h : SameDies s t) : DiesButClock s t := by
  intro d
  have := h d
  rw [← this]

theorem DiesButClock.trans {s t u : State} (h : DiesButClock s t) (h' : DiesButClock t u) : DiesButClock s u := by
  intro d
  have h1 := h d
  have h2 := h' d
  rw [← h1, ← h2]

/-- The stamp of a write: the issuer's die has counted it, the message carries it, and nothing else changes (R110). -/
theorem State.stamped_spec (s : State) (m : Msg) :
    Before s (s.stamped m).1 ∧ Quiet s (s.stamped m).1 ∧ SameG s (s.stamped m).1 ∧ SameV s (s.stamped m).1 ∧
      DiesButClock s (s.stamped m).1 ∧ ∃ c n, (s.stamped m).2 = { m with stamp := c, num := n } := by
  unfold State.stamped State.stampedFor
  split
  · exact ⟨Before.refl s, ⟨rfl, rfl, rfl⟩, fun _ _ => rfl, fun _ _ => rfl, fun _ => rfl, m.stamp, m.num, rfl⟩
  · refine ⟨⟨?_, by simp [State.me], by simp [State.cycleNow]⟩, by simp [Quiet], fun c i => by simp [State.gReg], fun c i => by simp [State.vReg], ?_, _, _, rfl⟩
    · apply Kept.of_fields <;> try simp
      intro k; exact Core.kept_refl _
    · intro d
      simp only [State.die_updDie_at]
      split
      · rename_i e; subst e; rfl
      · rfl

/-- The general registers gs, the mapped ones excepted, and the vector registers vs made pending. -/
theorem State.pendLists_spec (gs vs : List Nat) (s : State) :
    let t := vs.foldl (fun s i => s.markV s.cur i .pending)
      (gs.foldl (fun s i => s.awaitG i) s)
    Before s t ∧ Quiet s t ∧ t.dies = s.dies ∧
    (∀ c i, t.gReg c i = if gs.any (fun d => (s.me.mapped d).isNone && s.namesG d c i) then { s.gReg c i with st := .pending } else s.gReg c i) ∧
    (∀ c i, t.vReg c i = if vs.any (fun d => s.namesV d c i) then { s.vReg c i with st := .pending } else s.vReg c i) := by
  have e : vs.foldl (fun s i => s.markV s.cur i .pending)
      (gs.foldl (fun s i => s.awaitG i) s) =
      s.pendAll (gs.map (fun d => (RC.g, d, 0)) ++ vs.map (fun d => (RC.v, d, 0))) := by
    simp only [State.pendAll, State.awaitG, List.foldl_append, List.foldl_map]
  intro t
  simp only [t, e]
  obtain ⟨a, b, c, f, g⟩ := State.pendAll_spec (gs.map (fun d => (RC.g, d, 0)) ++ vs.map (fun d => (RC.v, d, 0))) s
  refine ⟨a, b, c, fun c i => ?_, fun c i => ?_⟩
  · rw [f c i]
    simp [List.any_append, List.any_map, Function.comp_def]
  · rw [g c i]
    simp [List.any_append, List.any_map, Function.comp_def]

/-- A request that holds its context: what leaves, what is pending, and the wait (R20, R21). -/
theorem State.sendWaiting_spec (s : State) (u : Use) (m : Msg) (w : Wait) (gs vs : List Nat) (ev : Nat → Instr)
    (hm : m.src = s.cur) :
    Asks s (s.sendWaiting u m w gs vs ev) w gs vs (fun x => x = { m with waits := true, len := u.len, id := s.nextId }) ev
      (s.pcNext u.len) u.gsrc := by
  obtain ⟨a, b, e, f, g⟩ := State.pendLists_spec gs vs s
  unfold State.sendWaiting
  dsimp only at a b e f g ⊢
  generalize vs.foldl (fun s i => s.markV s.cur i .pending)
      (gs.foldl (fun s i => s.awaitG i) s) = t at a b e f g ⊢
  have a2 := a.trans (Before.send t { m with waits := true, len := u.len } ev)
  obtain ⟨i1, g2, v2, d2, n2⟩ := a2.finishAt u (s.pcNext u.len)
  have hf : (t.send { m with waits := true, len := u.len } ev).finish u = (t.send { m with waits := true, len := u.len } ev).finishAt u (s.pcNext u.len) := by
    simp only [State.finish, State.pcNext, a2.me]
  rw [hf]
  generalize (t.send { m with waits := true, len := u.len } ev).finishAt u (s.pcNext u.len) = r at i1 g2 v2 d2 n2 ⊢
  have b3 := BeforeAs.updCtx r (fun x => { x with wait := w })
  have hc : r.cur = s.cur := i1.kept.cur
  have ht : t.cur = s.cur := a.kept.cur
  have eq : t.send { m with waits := true, len := u.len } ev = { t with net := t.net ++ [{ { m with waits := true, len := u.len } with id := t.nextId }], nextId := t.nextId + 1, agenda := t.agenda ++ [ev t.nextId] } := rfl
  have hcur : (t.send { m with waits := true, len := u.len } ev).cur = s.cur := a2.kept.cur
  rw [hcur]
  rw [← hc]
  refine ⟨i1.kept.trans b3.kept, ?_, fun c i => ?_, fun c i => ?_, ?_, ?_⟩
  · rw [b3.me, i1.me]
  · refine (State.gReg_updCtx _ _ _ (by intro x; rfl) c i).trans ?_
    rw [g2 c i]; exact f c i
  · refine (State.vReg_updCtx _ _ _ (by intro x; rfl) c i).trans ?_
    rw [v2 c i]; exact g c i
  · refine DiesButClock.trans (DiesButClock.of_same (SameDies.trans (SameDies.of_eq (by simp [e])) d2)) (DiesButClock.of_same (SameDies.of_eq ?_))
    simp
  · refine ⟨_, rfl, rfl, ?_, ?_, ?_, ?_⟩
    · exact hm
    · simp only [State.net_updCtx, n2.1]; simp [b.1, b.2.2]
    · simp only [State.agenda_updCtx, n2.2.1]; simp [b.2.1, b.2.2]
    · simp only [State.nextId_updCtx, n2.2.2]; simp [b.2.2]


/-- A message posted: what leaves, and the count it raises (R107, R110). -/
theorem State.posting_spec (s : State) (u : Use) (m : Msg) (n : Nat) (ev : Nat → Instr) (hm : m.src = s.cur) (hp : m.posted = n) :
    Posts s ((((s.stamped m).1.send (s.stamped m).2 ev).post n).finish u) n
      (fun x => ∃ c k, x = { m with stamp := c, num := k, id := s.nextId }) ev (s.pcNext u.len) u.gsrc := by
  obtain ⟨a, q, ga, va, da, c, k, hc⟩ := s.stamped_spec m
  rw [hc]
  generalize (s.stamped m).1 = t at a q ga va da ⊢
  have a2 := a.trans (Before.send t { m with stamp := c, num := k } ev)
  have hcur : (t.send { m with stamp := c, num := k } ev).cur = s.cur := a2.kept.cur
  have eq : (t.send { m with stamp := c, num := k } ev).post n =
     (t.send { m with stamp := c, num := k } ev).updCtx (t.send { m with stamp := c, num := k } ev).cur (fun x => { x with posted := x.posted + n }) := rfl
  have a3 := a2.kept.trans (BeforeAs.updCtx (t.send { m with stamp := c, num := k } ev) (fun x => { x with posted := x.posted + n })).kept
  have a4 : BeforeAs s ((t.send { m with stamp := c, num := k } ev).post n) { s.me with posted := s.me.posted + n } := by
    refine ⟨a3, ?_, ?_⟩
    · rw [eq, (BeforeAs.updCtx _ _).me, a2.me]
    · rw [eq, (BeforeAs.updCtx _ _).cycle, a2.cycle]
  obtain ⟨i1, g2, v2, d2, n2⟩ := a4.finishAt u (s.pcNext u.len)
  have hf : ((t.send { m with stamp := c, num := k } ev).post n).finish u = ((t.send { m with stamp := c, num := k } ev).post n).finishAt u (s.pcNext u.len) := by
    simp only [State.finish, State.pcNext, a4.me]
  rw [hf]
  refine ⟨i1.kept, ?_, fun c i => ?_, fun c i => ?_, ?_, ?_⟩
  · rw [i1.me]; simp [Ctx.after]
  · rw [g2 c i, eq]; exact (State.gReg_updCtx _ _ _ (by intro x; rfl) c i).trans (ga c i)
  · rw [v2 c i, eq]; exact (State.vReg_updCtx _ _ _ (by intro x; rfl) c i).trans (va c i)
  · refine da.trans (DiesButClock.trans (DiesButClock.of_same (SameDies.of_eq ?_)) (DiesButClock.of_same d2))
    simp [eq]
  · refine ⟨{ m with stamp := c, num := k, id := s.nextId }, ⟨hp, c, k, rfl⟩, rfl, hm, ?_, ?_, ?_⟩
    · rw [n2.1, eq]; simp [q.1, q.2.2]
    · rw [n2.2.1, eq]; simp [q.2.1, q.2.2]
    · rw [n2.2.2, eq]; simp [q.2.2]

/-- Stores within the room of posted stores are posted in one message. -/
theorem State.sendStores_spec (s : State) (u : Use) (ps : List Part) (h0 : ps ≠ []) (hr : s.me.posted + ps.length ≤ 64) :
    Posts s (s.sendStores u ps) ps.length (fun m => m.kind = .store ∧ m.parts = ps) .memoryRequestAtHome (s.pcNext u.len) u.gsrc := by
  have e : s.sendStores u ps = (((s.stamped { s.msg .store with parts := ps, posted := ps.length, len := u.len }).1.send
      (s.stamped { s.msg .store with parts := ps, posted := ps.length, len := u.len }).2 .memoryRequestAtHome).post ps.length).finish u := by
    simp [State.sendStores, h0, State.roomFor, hr]
  rw [e]
  have p := s.posting_spec u { s.msg .store with parts := ps, posted := ps.length, len := u.len } ps.length .memoryRequestAtHome rfl rfl
  obtain ⟨a, b, c, d, f, m, ⟨m1, x, y, m2⟩, m3, m4, m5, m6, m7⟩ := p
  exact ⟨a, b, c, d, f, m, ⟨m1, by rw [m2]; rfl, by rw [m2]⟩, m3, m4, m5, m6, m7⟩

/-- The access of an instruction whose elements resolve to parts, with no watch and no failure before: the parts are handed on. -/
theorem State.access_parts {s : State} {acc : Acc} {am : AMode} {es : List El} {ps : List Part} {k : List Part → State}
    (hw : s.watchBefore (seenOf s.cur acc am es) = none) (hr : s.resolveAll acc am es = .ok ps) : s.access acc am es k = k ps := by
  simp only [State.access, State.accessSeen, hw, hr]
  split
  · rename_i h; split at h <;> simp at h
  · rfl

end Sys2Proof.Machine
end

