-- ==== Sys2Proof/Tests/Slice0.lean ====
section
/-! SUPPORT. Small tests: words of the spec's encodings, the checks of WellFormed, single steps with the spec's worked values, and for each
statement a state and operands that meet its hypotheses. Expected words and values are the spec's. -/

open Sys2Proof Sys2Proof.Machine

set_option Elab.async false

/-! ## Decoding -/

/-- Every table word of the list, laid out in memory and decoded, is the instruction beside it, and it encodes to that word. -/
noncomputable def reads (l : List (Nat × Nat × Instr)) : Bool :=
  l.all (fun e => decodeTableWord e.1 e.2.1 == some e.2.2 && (encode e.2.2).word.toNat == e.2.1)

/-- One word of each row of the opcode table, its fields filled. -/
theorem test_words_ialu : reads [
    (32, 0x801030A0, .add 4 6 10),
    (32, 0x801030A1, .sub 4 6 10),
    (32, 0x801030A2, .and 4 6 10),
    (32, 0x801030A3, .or 4 6 10),
    (32, 0x801030A4, .xor 4 6 10),
    (32, 0x801030A5, .andn 4 6 10),
    (32, 0x801030A6, .shl 4 6 10),
    (32, 0x801030A7, .shr 4 6 10),
    (32, 0x801030A8, .sha 4 6 10),
    (32, 0x801030A9, .rot 4 6 10),
    (32, 0x801030AA, .min 4 6 10),
    (32, 0x801030AB, .max 4 6 10),
    (32, 0x801030AC, .minn 4 6 10),
    (32, 0x801030AD, .maxn 4 6 10),
    (32, 0x801030AE, .slt 4 6 10),
    (32, 0x801030AF, .sltn 4 6 10)] = true := by decide +kernel

/-- One word of each row of the opcode table, its fields filled. -/
theorem test_words_imul : reads [
    (32, 0x821030A0, .mul 4 6 10),
    (32, 0x821030A1, .mulh 4 6 10),
    (32, 0x821030A2, .mulhn 4 6 10),
    (32, 0x821030A3, .div 4 6 10),
    (32, 0x821030A4, .divn 4 6 10),
    (32, 0x821030A5, .rem 4 6 10),
    (32, 0x821030A6, .remn 4 6 10),
    (32, 0x821030A7, .seq 4 6 10),
    (32, 0x82103028, .clz 4 6 2),
    (32, 0x82103029, .ffs 4 6 2),
    (32, 0x8210302A, .popc 4 6 2),
    (32, 0x8210302B, .sext 4 6 2),
    (32, 0x8210302C, .zext 4 6 2),
    (32, 0x8210300D, .brev 4 6),
    (32, 0x8210300E, .bswap 4 6)] = true := by decide +kernel

/-- One word of each row of the opcode table, its fields filled. -/
theorem test_words_immediates : reads [
    (32, 0x8410300A, .addi 4 6 10),
    (32, 0x8610300A, .andi 4 6 10),
    (32, 0x8810300A, .ori 4 6 10),
    (32, 0x8A10300A, .xori 4 6 10),
    (32, 0x8C10300A, .slti 4 6 10)] = true := by decide +kernel

/-- One word of each row of the opcode table, its fields filled. -/
theorem test_words_fields : reads [
    (32, 0x8E10300A, .shli 4 6 10),
    (32, 0x8E10304A, .shri 4 6 10),
    (32, 0x8E10308A, .shai 4 6 10),
    (32, 0x8E1030CA, .roti 4 6 10),
    (32, 0x90103084, .bfx 4 6 2 4),
    (32, 0x92103084, .bfi 4 6 2 4)] = true := by decide +kernel

/-- One word of each row of the opcode table, its fields filled. -/
theorem test_words_constants : reads [
    (32, 0x9412000A, .limz 4 2 10),
    (32, 0x9612000A, .limh 4 2 10),
    (32, 0x98100006, .adpc 4 6)] = true := by decide +kernel

/-- One word of each row of the opcode table, its fields filled. -/
theorem test_words_float_single : reads [
    (32, 0x9A1030A0, .faddS 4 6 10),
    (32, 0x9A1030A1, .fsubS 4 6 10),
    (32, 0x9A1030A2, .fmulS 4 6 10),
    (32, 0x9A1030A3, .fdivS 4 6 10),
    (32, 0x9A1030A4, .fminS 4 6 10),
    (32, 0x9A1030A5, .fmaxS 4 6 10),
    (32, 0x9A103006, .fsqrtS 4 6),
    (32, 0x9A103007, .fclassS 4 6),
    (32, 0x9A1030A8, .feqS 4 6 10),
    (32, 0x9A1030A9, .fltS 4 6 10),
    (32, 0x9A1030AA, .fleS 4 6 10),
    (32, 0x9A1030AB, .funS 4 6 10),
    (32, 0x9A1030AC, .fsgnjS 4 6 10),
    (32, 0x9A1030AD, .fsgnjnS 4 6 10)] = true := by decide +kernel

/-- One word of each row of the opcode table, its fields filled. -/
theorem test_words_float_double : reads [
    (32, 0x9C1030A0, .faddD 4 6 10),
    (32, 0x9C1030A1, .fsubD 4 6 10),
    (32, 0x9C1030A2, .fmulD 4 6 10),
    (32, 0x9C1030A3, .fdivD 4 6 10),
    (32, 0x9C1030A4, .fminD 4 6 10),
    (32, 0x9C1030A5, .fmaxD 4 6 10),
    (32, 0x9C103006, .fsqrtD 4 6),
    (32, 0x9C103007, .fclassD 4 6),
    (32, 0x9C1030A8, .feqD 4 6 10),
    (32, 0x9C1030A9, .fltD 4 6 10),
    (32, 0x9C1030AA, .fleD 4 6 10),
    (32, 0x9C1030AB, .funD 4 6 10),
    (32, 0x9C1030AC, .fsgnjD 4 6 10),
    (32, 0x9C1030AD, .fsgnjnD 4 6 10)] = true := by decide +kernel

/-- One word of each row of the opcode table, its fields filled. -/
theorem test_words_float_rest : reads [
    (32, 0x9E1030A0, .ffmaS 4 6 10),
    (32, 0x9E1030A1, .ffmsS 4 6 10),
    (32, 0x9E1030A2, .fnmaS 4 6 10),
    (32, 0x9E1030A3, .ffmaD 4 6 10),
    (32, 0x9E1030A4, .ffmsD 4 6 10),
    (32, 0x9E1030A5, .fnmaD 4 6 10),
    (32, 0xA0103000, .fcvtS2d 4 6),
    (32, 0xA0103001, .fcvtD2s 4 6),
    (32, 0xA0103002, .fcvtS2b 4 6),
    (32, 0xA0103003, .fcvtB2s 4 6),
    (32, 0xA0103004, .fcvtI2s 4 6),
    (32, 0xA0103005, .fcvtN2s 4 6),
    (32, 0xA0103006, .fcvtI2d 4 6),
    (32, 0xA0103007, .fcvtN2d 4 6),
    (32, 0xA0103008, .fcvtS2i 4 6),
    (32, 0xA0103009, .fcvtS2n 4 6),
    (32, 0xA010300A, .fcvtD2i 4 6),
    (32, 0xA010300B, .fcvtD2n 4 6)] = true := by decide +kernel

/-- One word of each row of the opcode table, its fields filled. -/
theorem test_words_jumps : reads [
    (32, 0xA2010006, .beqz 4 6),
    (32, 0xA2210006, .bnez 4 6),
    (32, 0xA2410006, .bltz 4 6),
    (32, 0xA2610006, .bgez 4 6),
    (32, 0xA2810006, .bgtz 4 6),
    (32, 0xA2A10006, .blez 4 6),
    (32, 0xA4010006, .bpres 4 6),
    (32, 0xA4210006, .babs 4 6),
    (32, 0xA4410006, .bmany 4 6),
    (32, 0xA4610006, .ball 4 6),
    (32, 0xA4810006, .bnone 4 6),
    (32, 0xA6000004, .jmp 4),
    (32, 0xA8000004, .jal 4),
    (32, 0xAA10300A, .jalr 4 6 10)] = true := by decide +kernel

/-- One word of each row of the opcode table, its fields filled. -/
theorem test_words_loads : reads [
    (32, 0xAC10340E, .lds 4 6 .w .generic 14),
    (32, 0xAE10340E, .ldn 4 6 .w .generic 14),
    (32, 0xB010340E, .st 4 6 .w .generic 14)] = true := by decide +kernel

/-- One word of each row of the opcode table, its fields filled. -/
theorem test_words_memx : reads [
    (32, 0xB21030A0, .ldxsB 4 6 10),
    (32, 0xB21030A1, .ldxsH 4 6 10),
    (32, 0xB21030A2, .ldxsW 4 6 10),
    (32, 0xB21030A3, .ldxsD 4 6 10),
    (32, 0xB21030A4, .ldxnB 4 6 10),
    (32, 0xB21030A5, .ldxnH 4 6 10),
    (32, 0xB21030A6, .ldxnW 4 6 10),
    (32, 0xB21030A7, .stxB 4 6 10),
    (32, 0xB21030A8, .stxH 4 6 10),
    (32, 0xB21030A9, .stxW 4 6 10),
    (32, 0xB21030AA, .stxD 4 6 10),
    (32, 0xB200206B, .pref 4 6)] = true := by decide +kernel

/-- One word of each row of the opcode table, its fields filled. -/
theorem test_words_atomics : reads [
    (32, 0xB41032A0, .amoadd 4 6 10 .pkg),
    (32, 0xB41032A1, .amoand 4 6 10 .pkg),
    (32, 0xB41032A2, .amoor 4 6 10 .pkg),
    (32, 0xB41032A3, .amoxor 4 6 10 .pkg),
    (32, 0xB41032A4, .amomin 4 6 10 .pkg),
    (32, 0xB41032A5, .amomax 4 6 10 .pkg),
    (32, 0xB41032A6, .amominn 4 6 10 .pkg),
    (32, 0xB41032A7, .amomaxn 4 6 10 .pkg),
    (32, 0xB61032A0, .amofaddS 4 6 10 .pkg),
    (32, 0xB61032A1, .amofminS 4 6 10 .pkg),
    (32, 0xB61032A2, .amofmaxS 4 6 10 .pkg),
    (32, 0xB61032A3, .amofaddD 4 6 10 .pkg),
    (32, 0xB61032A4, .amofminD 4 6 10 .pkg),
    (32, 0xB61032A5, .amofmaxD 4 6 10 .pkg),
    (32, 0xB61032A6, .amoswap 4 6 10 .pkg),
    (32, 0xB61032A7, .amocas 4 6 10 .pkg),
    (32, 0xB8103010, .lrw 4 6 .gal),
    (32, 0xB8002191, .sch 4 6 .gal),
    (32, 0xB801001A, .rsvrel 32 .die)] = true := by decide +kernel

/-- One word of each row of the opcode table, its fields filled. -/
theorem test_words_sync : reads [
    (32, 0xBA000020, .fence .pkg),
    (32, 0xBA103011, .lda 4 6 .gal),
    (32, 0xBA002192, .stl 4 6 .gal),
    (32, 0xBA103023, .publish 4 6 .pkg),
    (32, 0xBA103284, .shadow 4 6 10),
    (32, 0xBC1032A0, .binit 4 6 10 .pkg),
    (32, 0xBC103011, .barrive 4 6 .gal),
    (32, 0xBC1032A2, .bwait 4 6 10 .pkg),
    (32, 0xBC103283, .bstat 4 6 10)] = true := by decide +kernel

/-- One word of each row of the opcode table, its fields filled. -/
theorem test_words_xctx : reads [
    (32, 0xBE0030A0, .nput 0 6 10),
    (32, 0xBE100001, .parm 4),
    (32, 0xBE1030A2, .waitv 4 6 10),
    (32, 0xBE1030A3, .wakev 4 6 10),
    (32, 0xBE002004, .migrate 4),
    (32, 0xBE002065, .redAdd 4 6),
    (32, 0xBE042065, .redAnd 4 6),
    (32, 0xBE082065, .redOr 4 6),
    (32, 0xBE0C2065, .redXor 4 6),
    (32, 0xBE102065, .redMin 4 6),
    (32, 0xBE142065, .redMax 4 6),
    (32, 0xBE182065, .redFaddS 4 6),
    (32, 0xBE1C2065, .redFaddD 4 6)] = true := by decide +kernel

/-- One word of each row of the opcode table, its fields filled. -/
theorem test_words_via : reads [
    (32, 0xC0432A40, .vadd 4 6 10 4 .h),
    (32, 0xC0432A41, .vsub 4 6 10 4 .h),
    (32, 0xC0432A42, .vmul 4 6 10 4 .h),
    (32, 0xC0432A43, .vmulh 4 6 10 4 .h),
    (32, 0xC0432A44, .vmin 4 6 10 4 .h),
    (32, 0xC0432A45, .vmax 4 6 10 4 .h),
    (32, 0xC0432A46, .vminn 4 6 10 4 .h),
    (32, 0xC0432A47, .vmaxn 4 6 10 4 .h),
    (32, 0xC0432A48, .vand 4 6 10 4 .h),
    (32, 0xC0432A49, .vor 4 6 10 4 .h),
    (32, 0xC0432A4A, .vxor 4 6 10 4 .h),
    (32, 0xC0432A4B, .vandn 4 6 10 4 .h),
    (32, 0xC0432A4C, .vshl 4 6 10 4 .h),
    (32, 0xC0432A4D, .vshr 4 6 10 4 .h),
    (32, 0xC0432A4E, .vsha 4 6 10 4 .h),
    (32, 0xC043010F, .vabs 4 6 2 .w),
    (32, 0xC0430110, .vneg 4 6 2 .w)] = true := by decide +kernel

/-- One word of each row of the opcode table, its fields filled. -/
theorem test_words_vib : reads [
    (32, 0xC2430100, .vclz 4 6 2 .w),
    (32, 0xC2430101, .vffs 4 6 2 .w),
    (32, 0xC2430102, .vpopc 4 6 2 .w)] = true := by decide +kernel

/-- One word of each row of the opcode table, its fields filled. -/
theorem test_words_vector_float : reads [
    (32, 0xC52A5F00, .vfadd 18 20 23 6 .w),
    (32, 0xC58E1801, .vfsub 24 28 6 0 .w),
    (32, 0xC5D69C02, .vfmul 29 13 7 0 .w),
    (32, 0xC56C0B03, .vfdiv 22 24 2 6 .w),
    (32, 0xC58A1804, .vfmin 24 20 6 0 .w),
    (32, 0xC5616805, .vfmax 22 2 26 0 .w),
    (32, 0xC4430106, .vfabs 4 6 2 .w),
    (32, 0xC4430107, .vfneg 4 6 2 .w),
    (32, 0xC4430108, .vfsqrt 4 6 2 .w),
    (32, 0xC6F38800, .vfma 15 7 2 0 .w),
    (32, 0xC6873681, .vfms 8 14 13 5 .w),
    (32, 0xC7012102, .vfnma 16 2 8 2 .w),
    (32, 0xC8687100, .veq 6 16 28 2 .w),
    (32, 0xC80C4B01, .vne 0 24 18 6 .w),
    (32, 0xC803C102, .vlt 0 7 16 2 .w),
    (32, 0xC8214903, .vle 2 2 18 2 .w),
    (32, 0xC8229604, .vltn 2 5 5 4 .w),
    (32, 0xC8230305, .vlen 2 6 0 6 .w),
    (32, 0xC82F5A06, .vfeq 2 30 22 4 .w),
    (32, 0xC87B8307, .vflt 7 23 0 6 .w),
    (32, 0xC8502BA8, .vfle 5 0 10 7 .d),
    (32, 0xC82F5289, .vfun 2 30 20 5 .w)] = true := by decide +kernel

/-- One word of each row of the opcode table, its fields filled. -/
theorem test_words_vector_special : reads [
    (32, 0xCA430100, .vrcp 4 6 2),
    (32, 0xCA430101, .vrsq 4 6 2),
    (32, 0xCA430102, .vexp2 4 6 2),
    (32, 0xCA430103, .vlog2 4 6 2),
    (32, 0xCA430104, .vsin 4 6 2),
    (32, 0xCA430105, .vcos 4 6 2),
    (32, 0xCA430106, .vtanh 4 6 2),
    (32, 0xCC430100, .vcvtS2d 4 6 2),
    (32, 0xCC430101, .vcvtD2s 4 6 2),
    (32, 0xCC430102, .vcvtS2b 4 6 2),
    (32, 0xCC430103, .vcvtB2s 4 6 2),
    (32, 0xCC430104, .vcvtI2s 4 6 2),
    (32, 0xCC430105, .vcvtN2s 4 6 2),
    (32, 0xCC430106, .vcvtS2i 4 6 2),
    (32, 0xCC430107, .vcvtS2n 4 6 2),
    (32, 0xCC430A08, .vcvtM8d 4 6 2 4),
    (32, 0xCC430A09, .vcvtM8e 4 6 2 4)] = true := by decide +kernel

/-- One word of each row of the opcode table, its fields filled. -/
theorem test_words_vlane : reads [
    (32, 0xCFEB5B00, .vsel 30 22 22 6 .w),
    (32, 0xCE432A01, .vperm 4 6 10 4),
    (32, 0xCE432A02, .vrotl 4 6 10 4),
    (32, 0xCE430103, .vredadd 4 6 2 .w),
    (32, 0xCE430104, .vredmin 4 6 2 .w),
    (32, 0xCE430105, .vredmax 4 6 2 .w),
    (32, 0xCE430106, .vscanadd 4 6 2 .w),
    (32, 0xCE430107, .vcompress 4 6 2 .w)] = true := by decide +kernel

/-- One word of each row of the opcode table, its fields filled. -/
theorem test_words_wide : reads [
    (32, 0xD09C8300, .vwadd 9 25 0 6 .w),
    (32, 0xD0420101, .vwsub 4 4 0 2 .w),
    (32, 0xD0432802, .vwmul 4 6 10),
    (32, 0xD0432803, .vwshl 4 6 10 .w),
    (32, 0xD0432804, .vwshr 4 6 10 .w),
    (32, 0xD0021905, .vwcmp 4 6 2 .w),
    (32, 0xD2400000, .vxclr 4),
    (32, 0xD2430101, .vxadd 4 6 2),
    (32, 0xD2432A02, .vxfma 4 6 10 4),
    (32, 0xD2430003, .vxrndS 4 6),
    (32, 0xD2430004, .vxrndD 4 6),
    (32, 0xD2430005, .vxstat 4 6)] = true := by decide +kernel

/-- One word of each row of the opcode table, its fields filled. -/
theorem test_words_vector_memory : reads [
    (32, 0xD440C81C, .vld 4 6 2 .generic 14),
    (32, 0xD440C81D, .vst 4 6 2 .generic 14),
    (32, 0xD6430100, .vgather 4 6 2 .w),
    (32, 0xD6021901, .vscatter 4 6 2 .w)] = true := by decide +kernel

/-- One word of each row of the opcode table, its fields filled. -/
theorem test_words_vector_moves : reads [
    (32, 0xD8430800, .mand 4 6 2),
    (32, 0xD8430801, .mor 4 6 2),
    (32, 0xD8430802, .mxor 4 6 2),
    (32, 0xD8430003, .mnot 4 6),
    (32, 0xD8430004, .mpopc 4 6),
    (32, 0xD8430005, .mffs 4 6),
    (32, 0xD8430006, .mset 4 6),
    (32, 0xD8430007, .mget 4 6),
    (32, 0xD8430108, .vfromg 4 6 2 .w),
    (32, 0xD8432809, .vtog 4 6 10 .w),
    (32, 0xD843280A, .vlanew 4 6 10 .w),
    (32, 0xDA430100, .vmorton 4 6 2),
    (32, 0xDA430101, .vhilbert 4 6 2),
    (32, 0xDC103000, .oxset 4 6),
    (32, 0xDC103001, .oxget 4 6),
    (32, 0xDC103022, .oxld 4 6 2),
    (32, 0xDC103023, .oxst 4 6 2)] = true := by decide +kernel

/-- One word of each row of the opcode table, its fields filled. -/
theorem test_words_que : reads [
    (32, 0xE00030A0, .qpush 0 6 10),
    (32, 0xE01030A1, .qpop 4 6 10),
    (32, 0xE01030A2, .qtry 4 6 10),
    (32, 0xE04850C3, .qpushv 4 2 10 12),
    (32, 0xE01030A4, .qpopv 4 6 10),
    (32, 0xE0003005, .qmap 0 6),
    (32, 0xE0000006, .qunmap 0),
    (32, 0xE00030A7, .qmark 0 6 10),
    (32, 0xE0002008, .qend 4),
    (32, 0xE01030A9, .qstat 4 6 10)] = true := by decide +kernel

/-- One word of each row of the opcode table, its fields filled. -/
theorem test_words_engines : reads [
    (32, 0xE21030A0, .feed 4 6 10),
    (32, 0xE21030A1, .feedx 4 6 10),
    (32, 0xE21030A2, .feedqz 4 6 10),
    (32, 0xE21030A3, .feedt 4 6 10),
    (32, 0xE21030A4, .feedq 4 6 10),
    (32, 0xE4000000, .mma),
    (32, 0xE4000001, .mclr 0),
    (32, 0xE4103022, .mdrain 4 6 0 0 2),
    (32, 0xE41030A3, .plld 4 6 10),
    (32, 0xE4100004, .msort 4),
    (32, 0xE6103000, .repart 4 6),
    (32, 0xE6103001, .rpstat 4 6)] = true := by decide +kernel

/-- One word of each row of the opcode table, its fields filled. -/
theorem test_words_distributions : reads [
    (32, 0xE9328000, .dadd 4 6 2 4),
    (32, 0xE9328010, .dsub 4 6 2 4),
    (32, 0xE9328020, .dmul 4 6 2 4),
    (32, 0xE9328030, .ddiv 4 6 2 4),
    (32, 0xE9328040, .dmin 4 6 2 4),
    (32, 0xE9328050, .dmax 4 6 2 4),
    (32, 0xEB304C00, .daff 4 6 2 12),
    (32, 0xEBA00010, .dmap 6 4 0 0),
    (32, 0xEB328E20, .dmix 4 6 2 4 14),
    (32, 0xEB300A3C, .dtag 4 6 10 12),
    (32, 0xEB310A3C, .dtagOr 4 6 10 12),
    (32, 0xED00C00A, .dld 4 6 10),
    (32, 0xEC20C010, .dst 4 6),
    (32, 0xED00CA2C, .dfromv 4 6 10 12),
    (32, 0xED00CA3C, .ddirac 4 6 10 12),
    (32, 0xEC089743, .dmom 1 4 23 3),
    (32, 0xEC20CA50, .dqnt 4 6 10),
    (32, 0xEC20CA60, .dcdf 4 6 10)] = true := by decide +kernel

/-- One word of each row of the opcode table, its fields filled. -/
theorem test_words_system : reads [
    (32, 0xF0002000, .spawn 4),
    (32, 0xF0002001, .suspend 4),
    (32, 0xF0000002, .done),
    (32, 0xF0002063, .cancel 4 6),
    (32, 0xF0103024, .lvlwait 4 6 2),
    (32, 0xF0000005, .yield),
    (32, 0xF2103050, .cstart 4 6 10),
    (32, 0xF2000021, .creap 4),
    (32, 0xF2100032, .cstat 4 6),
    (32, 0xF2000023, .chold 4),
    (32, 0xF2000024, .crelease 4),
    (32, 0xF4100006, .ctrd 4 6),
    (32, 0xF4002406, .ctwr 4 6),
    (32, 0xF61030B0, .xrd 4 6 .m 12),
    (32, 0xF61030B1, .xwr 4 6 .m 12),
    (32, 0xF723004A, .xpres 72 96 .v 2),
    (32, 0xF8000010, .trap 4),
    (32, 0xF8000001, .tret),
    (32, 0xF8000012, .brk 4),
    (32, 0xF8000003, .nop)] = true := by decide +kernel

/-- One word of each row of the opcode table, its fields filled. -/
theorem test_words_compact : reads [
    (16, 0x486, .mvC 4 6),
    (16, 0x886, .liC 4 6),
    (16, 0xC86, .addiC 4 6),
    (16, 0x1086, .addC 4 6),
    (16, 0x1486, .subC 4 6),
    (16, 0x1886, .andC 4 6),
    (16, 0x1C86, .orC 4 6),
    (16, 0x2086, .xorC 4 6),
    (16, 0x2486, .shliC 4 6),
    (16, 0x2886, .shriC 4 6),
    (16, 0x2C86, .shaiC 4 6),
    (16, 0x3086, .ldwLs 4 6),
    (16, 0x3486, .stwLs 4 6),
    (16, 0x3886, .lddLs 4 6),
    (16, 0x3C86, .stdLs 4 6),
    (16, 0x4086, .beqzC 4 6),
    (16, 0x4486, .bnezC 4 6),
    (16, 0x4801, .ret),
    (16, 0x4C00, .nopC),
    (16, 0x5082, .qpopC 4 2),
    (16, 0x5482, .qpushC 4 2)] = true := by decide +kernel

/-- The worked encodings of spec/07_encoding.md. -/
theorem test_worked_encoding : reads [
    (32, 0xAE241C84, .ldn 9 3 .w .ls 4),
    (32, 0xA2233FFD, .bnez 12 16381),
    (32, 0x80143070, .add 5 6 7),
    (32, 0xC6308800, .vfma 3 1 2 0 .w),
    (32, 0xF4240010, .ctrd 9 16),
    (16, 0x10A7, .addC 5 7)] = true := by decide +kernel

/-- The worked encodings of spec/08_isa_scalar.md. -/
theorem test_worked_scalar : reads [
    (32, 0x942BDEAD, .limz 10 3 57005),
    (32, 0x962ABEEF, .limh 10 2 48879),
    (32, 0x8E385068, .shri 14 10 40),
    (32, 0x903C51EC, .bfx 15 10 7 44),
    (32, 0x82345008, .clz 13 10 0),
    (32, 0x8240501A, .popc 16 10 1),
    (32, 0x822C5003, .div 11 10 0),
    (32, 0xAA000800, .jalr 0 1 0),
    (32, 0xA402FFFC, .bpres 11 16380),
    (32, 0xA422FFFC, .babs 11 16380),
    (32, 0xA480FFFC, .bnone 3 16380),
    (32, 0xA8000080, .jal 128),
    (16, 0x089D, .liC 4 0x1D),
    (16, 0x10A7, .addC 5 7),
    (16, 0x453D, .bnezC 9 0x1D),
    (16, 0x4801, .ret),
    (16, 0x4C00, .nopC),
    (16, 0x5101, .qpopC 8 1)] = true := by decide +kernel

/-- The worked encodings of spec/09_isa_vector.md. -/
theorem test_worked_vector : reads [
    (32, 0xC6432020, .vfma 4 6 8 0 .d),
    (32, 0xCA830000, .vrcp 8 6 0),
    (32, 0xD2800000, .vxclr 8),
    (32, 0xD2810001, .vxadd 8 2 0),
    (32, 0xD2A40003, .vxrndS 10 8),
    (32, 0xD2C40005, .vxstat 12 8),
    (32, 0xCEB10003, .vredadd 11 2 0 .w),
    (32, 0xD4406104, .vld 4 3 0 .ls 2),
    (32, 0xD4406105, .vst 4 3 0 .ls 2),
    (32, 0xDC044800, .oxset 1 9)] = true := by decide +kernel

/-- The worked encodings of spec/10_isa_memory.md. -/
theorem test_worked_memory : reads [
    (32, 0xBE003075, .redAdd 6 7),
    (32, 0xAC241A7E, .lds 9 3 .h .generic 126),
    (32, 0xB01C3582, .st 7 6 .w .gb 2),
    (32, 0xB2282052, .ldxsW 10 4 5),
    (32, 0xB41431D8, .amoadd 5 6 7 .die),
    (32, 0xB6203257, .amocas 8 6 9 .gal),
    (32, 0xB8143018, .lrw 5 6 .die),
    (32, 0xB80031D9, .sch 6 7 .die),
    (32, 0xBA143019, .lda 5 6 .die),
    (32, 0xBA0031DA, .stl 6 7 .die),
    (32, 0xBA000028, .fence .sys),
    (32, 0xBC003011, .barrive 0 6 .gal),
    (32, 0xBE082050, .nput 2 4 5),
    (32, 0xBE2C0001, .parm 11),
    (32, 0xBE003004, .migrate 6)] = true := by decide +kernel

/-- The worked encodings of spec/11_isa_system.md. -/
theorem test_worked_system : reads [
    (32, 0xE024A152, .qtry 9 20 21),
    (32, 0xE024A151, .qpop 9 20 21),
    (32, 0xE000A080, .qpush 0 20 8),
    (32, 0xE008A090, .qpush 2 20 9),
    (32, 0xE000A008, .qend 20),
    (32, 0xF0002800, .spawn 5),
    (32, 0xF0000001, .suspend 0),
    (32, 0xF0000002, .done),
    (32, 0xF0003023, .cancel 6 2),
    (32, 0xF0143014, .lvlwait 5 6 1),
    (32, 0xF0000005, .yield),
    (32, 0xF2204818, .cstart 8 9 3),
    (32, 0xF2000019, .creap 3),
    (32, 0xF220001A, .cstat 8 3),
    (32, 0xF200001B, .chold 3),
    (32, 0xF200001C, .crelease 3),
    (32, 0xF4004C10, .ctwr 9 16),
    (32, 0xF620484C, .xrd 8 9 .v 3),
    (32, 0xF620488D, .xwr 8 9 .m 3),
    (32, 0xF620480E, .xpres 8 9 .g 3),
    (32, 0xF8000014, .trap 5),
    (32, 0xF8000001, .tret),
    (32, 0xF800001E, .brk 7)] = true := by decide +kernel

/-- The worked encodings of spec/12_isa_engines.md. -/
theorem test_worked_engines : reads [
    (32, 0xE2502050, .feed 20 4 5),
    (32, 0xE2502051, .feedx 20 4 5),
    (32, 0xE2502052, .feedqz 20 4 5),
    (32, 0xE2502053, .feedt 20 4 5),
    (32, 0xE2543074, .feedq 21 6 7),
    (32, 0xE4000021, .mclr 2),
    (32, 0xE4303002, .mdrain 12 6 0 0 0),
    (32, 0xE4303152, .mdrain 12 6 1 1 1),
    (32, 0xE4343073, .plld 13 6 7),
    (32, 0xE4380004, .msort 14),
    (32, 0xE6504000, .repart 20 8),
    (32, 0xE6245001, .rpstat 9 10)] = true := by decide +kernel

/-- The worked encodings of spec/13_isa_distributions.md. -/
theorem test_worked_distributions : reads [
    (32, 0xEC000028, .dfromv 0 0 0 8),
    (32, 0xEC400829, .dfromv 1 0 8 9),
    (32, 0xE8810000, .dadd 2 0 1 0),
    (32, 0xEAC90031, .dtagOr 3 1 0 1),
    (32, 0xE9030000, .dadd 4 0 3 0),
    (32, 0xEC101041, .dmom 2 0 16 1),
    (32, 0xEC201141, .dmom 4 0 17 1),
    (32, 0xEC101250, .dqnt 2 0 18),
    (32, 0xEC201350, .dqnt 4 0 19)] = true := by decide +kernel

/-- The worked encodings of spec/15_programs_core.md. -/
theorem test_worked_programs_core : reads [
    (32, 0xE2505890, .feed 20 11 9),
    (32, 0xD4118100, .vld 1 12 0 .ls 0),
    (32, 0xD4214100, .vld 2 10 0 .ls 0),
    (32, 0xC6200400, .vfma 2 0 1 0 .w),
    (32, 0xD4214101, .vst 2 10 0 .ls 0),
    (32, 0xA262BFF3, .bgez 10 16371),
    (32, 0xF8000004, .trap 1),
    (32, 0xA2254013, .bnez 21 19),
    (32, 0xA262BFF4, .bgez 10 16372),
    (32, 0xA2254012, .bnez 21 18),
    (32, 0xE00C70D0, .qpush 3 14 13),
    (32, 0xE008F154, .qpopv 2 30 21),
    (32, 0xE000F823, .qpushv 0 0 31 2),
    (32, 0xE250F804, .feedq 20 31 0),
    (32, 0xE468D982, .mdrain 26 27 1 2 0)] = true := by decide +kernel

/-- The worked encodings of spec/16_programs_pod.md. -/
theorem test_worked_programs_pod : reads [
    (32, 0x94290400, .limz 10 1 1024),
    (32, 0x962B0081, .limh 10 3 129),
    (32, 0xD4214003, .vst 2 10 0 .generic 1),
    (32, 0xBA005B2A, .stl 11 12 .sys),
    (32, 0xBA145829, .lda 5 11 .sys),
    (32, 0xA2017FFE, .beqz 5 16382),
    (32, 0xD4114000, .vld 1 10 0 .generic 0),
    (32, 0xB0305E00, .st 12 11 .d .generic 0),
    (32, 0xBA005B22, .stl 11 12 .pkg),
    (32, 0xEC400828, .dfromv 1 0 8 8),
    (32, 0xE8810020, .dmul 2 0 1 0),
    (32, 0xE8C90020, .dmul 3 1 1 0),
    (32, 0xE8930000, .dadd 2 2 3 0),
    (32, 0xEB480034, .dtag 5 1 0 4),
    (32, 0xEB880038, .dtag 6 1 0 8),
    (32, 0xE9210020, .dmul 4 4 1 0),
    (32, 0xE9EE0020, .dmul 7 5 6 0),
    (32, 0xE8E70000, .dadd 3 4 7 0),
    (32, 0xEC101040, .dmom 2 0 16 0),
    (32, 0xEC181541, .dmom 3 0 21 1),
    (32, 0xEC181650, .dqnt 3 0 22),
    (32, 0xD9480009, .vtog 20 16 0 .w)] = true := by decide +kernel

/-- The worked encodings of spec/17_programs_repart.md. -/
theorem test_worked_programs_repart : reads [
    (32, 0xF4240000, .ctrd 9 0),
    (32, 0x90244950, .bfx 9 9 5 16),
    (32, 0xA2024004, .beqz 9 4),
    (32, 0x84204080, .addi 8 8 128),
    (32, 0xE6284000, .repart 10 8),
    (32, 0xA2228004, .bnez 10 4),
    (32, 0xF8000010, .trap 4)] = true := by decide +kernel

/-- The bytes of the first, second and third worked encodings of spec/07_encoding.md, at ascending addresses. -/
theorem test_bytes_of_stream :
    (match decodeBytes [0x24#8, 0xAE#8, 0x84#8, 0x1C#8] with | some (.ok i) => i == .ldn 9 3 .w .ls 4 | _ => false) = true ∧
    (match decodeBytes [0xA7#8, 0x10#8] with | some (.ok i) => i == .addC 5 7 | _ => false) = true ∧
    (match decodeBytes [0x23#8, 0xA2#8, 0xFD#8, 0x3F#8] with | some (.ok i) => i == .bnez 12 0x3FFD | _ => false) = true := by
  decide +kernel

/-- A word that is no instruction, for the reason given. -/
noncomputable def refuses (l : List (BitVec 32 × IllReason)) : Bool :=
  l.all (fun e => match decode32 e.1 with | .error r => r == e.2 | .ok _ => false)

/-- The neighbouring patterns of spec/07 and spec/10 (R161, R163, R165), a reserved major, an odd pair, BFX past bit 63. -/
theorem test_not_instructions : refuses [
    (0xAE241E84#32, .scopeTySz), (0xA2C33FFD#32, .unassigned), (0xBA000030#32, .scopeTySz), (0xBE003006#32, .unassigned),
    (0xDE000000#32, .reservedMajor), (0xFFFFFFFF#32, .reservedMajor), (0xC6532021#32, .oddPair), (0x903C57FF#32, .immediate),
    (0xF0000800#32 ||| 0x2#32, .mustBeZero)] = true := by decide +kernel

/-- The compact patterns that trap with reason 6 (R188, spec/07). -/
theorem test_compact_not_instructions :
    [0x5C00#16, 0x4802#16, 0x4C20#16, 0x5105#16, 0x0000#16].all (fun h => match decode16 h with | .error r => r == .compactForm | .ok _ => false) =
      true := by decide +kernel

/-- Each check of WellFormed refuses a term that breaks it. -/
theorem test_ill_formed : ([.bfx 1 2 31 33, .bfi 1 2 31 33, .ldn 1 2 .d .ls 0, .vadd 1 2 4 0 .d, .vadd 2 1 4 0 .d, .vadd 2 4 1 0 .d, .vabs 1 2 0 .d,
    .vfadd 2 4 5 0 .d, .vfabs 2 5 0 .d, .vfma 3 4 6 0 .d, .veq 1 3 4 0 .d, .vcvtS2d 1 2 0, .vcvtD2s 2 1 0, .vcvtS2b 2 1 0, .vcvtB2s 1 2 0,
    .vsel 1 2 4 0 .d, .vredadd 2 1 0 .d, .vscanadd 1 2 0 .d, .vcompress 1 2 0 .d, .vwadd 2 4 5 0 .d, .vwmul 1 2 4, .vwshl 1 2 4 .d, .vwshr 2 4 5 .d, .vwcmp 1 2 0 .d, .vxclr 1,
    .vxadd 1 2 0, .vxfma 1 2 3 0, .vxrndS 1 3, .vxrndD 1 3, .vxstat 1 3, .vgather 1 2 0 .d, .vscatter 1 3 0 .d, .vfromg 1 2 0 .d, .vtog 1 3 0 .d,
    .vlanew 1 2 0 .d, .vmorton 1 2 0, .vhilbert 1 2 0, .oxld 7 1 1, .oxst 4 1 4, .mdrain 1 2 0 3 0, .daff 0 0 0 1, .dmap 0 0 0 11, .dld 0 0 1,
    .dfromv 0 0 0 1, .ddirac 0 0 0 1, .dmom 0 0 0 4, .xpres 1 2 .m 3] : List Instr).all (fun i => !i.wf) = true := by decide +kernel

/-- The same terms at the limits that hold are well formed. -/
theorem test_well_formed : ([.bfx 1 2 31 32, .ldn 1 2 .w .ls 0, .vadd 2 4 6 0 .d, .vadd 1 3 5 0 .w, .vwshl 2 4 6 .d, .oxld 7 1 0, .mdrain 1 2 0 2 0, .daff 0 0 0 2,
    .dmap 0 0 0 10, .dld 0 0 8, .dld 0 0 0, .dmom 0 0 0 3, .xpres 1 2 .v 3] : List Instr).all (fun i => i.wf) = true := by decide +kernel

/-! ## Single steps: the spec's worked values -/

/-- Context 1 of core 0 as a strand with whole windows at 0x4000_1A40, its general registers as listed (all others 0), its FPCTL. -/
def ctxOne (ctl : Word) : Ctx :=
  { Ctx.initial 1 with
    cond := .pinned
    win := { gb := 128, gn := 128, vb := 32, vn := 32, db := 0, dn := 8 }
    sg := 128
    sv := 32
    sd := 8
    pc := 0x40001A40#64
    ctl := { fpctl := ctl } }

/-- The state in which that context issues. -/
def oneG (ctl : Word) (gs : List (Nat × Word)) : State :=
  { State.reset with cur := 1, ctxs := [(1, ctxOne ctl)], cores := [(0, { g := gs.map (fun e => (128 + e.1, { val := e.2 })) })] }

/-- Register d after an instruction. -/
def gAfter (i : Instr) (s : State) (d : Nat) : Word := match exec i s with | .next t => t.g d | _ => 0xBAD#64
/-- The PC after an instruction. -/
def pcAfter (i : Instr) (s : State) : Word := match exec i s with | .next t => t.me.pc | _ => 0xBAD#64
/-- FPFLAGS after an instruction. -/
def flagsAfter (i : Instr) (s : State) : Word := match exec i s with | .next t => t.me.ctl.fpflags | _ => 0xBAD#64
/-- The value in the message that an instruction of a long unit sends. -/
def sentBy (i : Instr) (s : State) : Nat :=
  match exec i s with
  | .next t => (match t.net with | m :: _ => (match m.dest with | .vals ((_, _, v) :: _) => v | _ => 0) | [] => 0)
  | _ => 0
/-- TRAPCAUSE, TRAPPC, TRAPADDR and TRAPINFO after an instruction. -/
def trapOf (i : Instr) (s : State) : Word × Word × Word × Word :=
  match exec i s with | .next t => (t.me.tr.cause, t.me.tr.pc, t.me.tr.addr, t.me.tr.info) | _ => (0xBAD#64, 0, 0, 0)

/-- g10 of the sequence in spec/08. -/
def g10 : Word := 0xDEADBEEF00000000#64

/-- R176, R174, R175, R171: the sequence of spec/08. -/
theorem test_constant_sequence :
    gAfter (.limz 10 3 0xDEAD) (oneG 0 []) 10 = 0xDEAD000000000000#64 ∧
    gAfter (.limh 10 2 0xBEEF) (oneG 0 [(10, 0xDEAD000000000000#64)]) 10 = g10 ∧
    gAfter (.shri 14 10 40) (oneG 0 [(10, g10)]) 14 = 0xDEADBE#64 ∧
    gAfter (.bfx 15 10 7 44) (oneG 0 [(10, g10)]) 15 = 0xDB#64 ∧
    gAfter (.clz 13 10 0) (oneG 0 [(10, g10)]) 13 = 0x08080808#64 ∧
    gAfter (.popc 16 10 1) (oneG 0 [(10, g10)]) 16 = 0x000B000D00000000#64 := by decide +kernel

/-- R170: the quotients and remainders of spec/08, in the message that lands later; the destination is pending meanwhile. -/
theorem test_divide_borders :
    sentBy (.div 11 10 0) (oneG 0 [(10, g10)]) = 2 ^ 64 - 1 ∧
    sentBy (.div 1 2 3) (oneG 0 [(2, -7#64), (3, 2#64)]) = 2 ^ 64 - 3 ∧
    sentBy (.rem 1 2 3) (oneG 0 [(2, -7#64), (3, 2#64)]) = 2 ^ 64 - 1 ∧
    sentBy (.divn 1 2 3) (oneG 0 [(2, -7#64), (3, 2#64)]) = 0x7FFFFFFFFFFFFFFC ∧
    sentBy (.div 1 2 3) (oneG 0 [(2, 1#64 <<< 63), (3, -1#64)]) = 2 ^ 63 ∧ sentBy (.rem 1 2 3) (oneG 0 [(2, 1#64 <<< 63), (3, -1#64)]) = 0 ∧
    sentBy (.rem 1 2 3) (oneG 0 [(2, 5#64)]) = 5 := by decide +kernel

/-- R170: a zero divisor with FPCTL[5] set traps DIVZ at issue. -/
theorem test_divide_traps : trapOf (.div 11 10 0) (oneG 0x20 [(10, g10)]) = (causeDIVZ.setWidth 64, 0x40001A40#64, 0, 0) := by decide +kernel

/-- R168, R169: the borders of spec/08. -/
theorem test_integer_borders :
    gAfter (.mulh 1 2 3) (oneG 0 [(2, 1#64 <<< 63), (3, 2#64)]) 1 = -1#64 ∧
    gAfter (.mulhn 1 2 3) (oneG 0 [(2, 1#64 <<< 63), (3, 2#64)]) 1 = 1#64 ∧
    gAfter (.sha 1 2 3) (oneG 0 [(2, 1#64 <<< 63), (3, 68#64)]) 1 = 0xF800000000000000#64 ∧
    gAfter (.add 0 2 3) (oneG 0 [(2, 1#64), (3, 2#64)]) 0 = 0#64 ∧ pcAfter (.add 0 2 3) (oneG 0 []) = 0x40001A44#64 := by decide +kernel

/-- R179, R183: the scalar rows of spec/08, value and flags (nv 1, dz 2, of 4, uf 8, nx 16). -/
theorem test_float_rows :
    (gAfter (.faddS 1 2 3) (oneG 0 [(2, 0x3F800000#64), (3, 0x33800000#64)]) 1, flagsAfter (.faddS 1 2 3) (oneG 0 [(2, 0x3F800000#64), (3, 0x33800000#64)])) =
      (0x3F800000#64, 16#64) ∧
    gAfter (.fminS 1 2 3) (oneG 0 [(2, 0x80000000#64)]) 1 = 0x80000000#64 ∧
    (gAfter (.fminS 1 2 3) (oneG 0 [(2, 0x7FC00001#64), (3, 0x40400000#64)]) 1, flagsAfter (.fminS 1 2 3) (oneG 0 [(2, 0x7FC00001#64), (3, 0x40400000#64)])) =
      (0x40400000#64, 0#64) ∧
    flagsAfter (.fminS 1 2 3) (oneG 0 [(2, 0x7F800001#64), (3, 0x40400000#64)]) = 1#64 ∧
    gAfter (.ffmaS 1 2 3) (oneG 0 [(2, 0x3F800001#64), (3, 0x3F800001#64), (1, 0xBF800002#64)]) 1 = 0x28800000#64 := by decide +kernel

/-- R180, R181, R182: compares, classes and signs. -/
theorem test_float_compares :
    (gAfter (.feqS 1 2 3) (oneG 0 [(2, 0x7FC00000#64), (3, 0x3F800000#64)]) 1, flagsAfter (.feqS 1 2 3) (oneG 0 [(2, 0x7FC00000#64), (3, 0x3F800000#64)])) = (0#64, 0#64) ∧
    (gAfter (.fltS 1 2 3) (oneG 0 [(2, 0x7FC00000#64), (3, 0x3F800000#64)]) 1, flagsAfter (.fltS 1 2 3) (oneG 0 [(2, 0x7FC00000#64), (3, 0x3F800000#64)])) = (0#64, 1#64) ∧
    gAfter (.fclassS 1 2) (oneG 0 [(2, 1#64)]) 1 = 0x20#64 ∧ gAfter (.fsgnjnS 1 2 2) (oneG 0 [(2, 0x7F800001#64)]) 1 = 0xFF800001#64 := by decide +kernel

/-- R184: conversions to integers. -/
theorem test_float_to_integer :
    (gAfter (.fcvtS2i 1 2) (oneG 0 [(2, 0x40200000#64)]) 1, flagsAfter (.fcvtS2i 1 2) (oneG 0 [(2, 0x40200000#64)])) = (2#64, 16#64) ∧
    (gAfter (.fcvtS2i 1 2) (oneG 0 [(2, 0x60AD78EC#64)]) 1, flagsAfter (.fcvtS2i 1 2) (oneG 0 [(2, 0x60AD78EC#64)])) = (0x7FFFFFFFFFFFFFFF#64, 1#64) ∧
    (gAfter (.fcvtS2n 1 2) (oneG 0 [(2, 0xBECCCCCD#64)]) 1, flagsAfter (.fcvtS2n 1 2) (oneG 0 [(2, 0xBECCCCCD#64)])) = (0#64, 16#64) ∧
    (gAfter (.fcvtS2n 1 2) (oneG 0 [(2, 0xBF800000#64)]) 1, flagsAfter (.fcvtS2n 1 2) (oneG 0 [(2, 0xBF800000#64)])) = (0#64, 1#64) := by decide +kernel

/-- R179: the long unit's rows. -/
theorem test_float_long : sentBy (.fdivS 1 2 3) (oneG 0 [(2, 0x3F800000#64)]) = 0x7F800000 ∧ sentBy (.fdivS 1 2 3) (oneG 0 [(3, 0x80000000#64)]) = 0x7FC00000 ∧
    sentBy (.fsqrtS 1 2) (oneG 0 [(2, 0x80000000#64)]) = 0x80000000 := by decide +kernel

/-- R185, R186, R187: transfers. -/
theorem test_transfers :
    pcAfter (.bnez 12 0x3FFD) (oneG 0 [(12, 1#64)]) = 0x40001A3A#64 ∧ pcAfter (.bnez 12 0x3FFD) (oneG 0 []) = 0x40001A44#64 ∧
    pcAfter (.ball 0 4) (oneG 0 []) = 0x40001A48#64 ∧ pcAfter (.bnone 0 4) (oneG 0 []) = 0x40001A44#64 ∧
    pcAfter (.jal 0x80) (oneG 0 []) = 0x40001B40#64 ∧ gAfter (.jal 0x80) (oneG 0 []) 1 = 0x40001A44#64 ∧
    pcAfter .ret (oneG 0 [(1, 0x1000#64)]) = 0x1000#64 ∧
    trapOf .ret (oneG 0 [(1, 0x1001#64)]) = (causeALIGN.setWidth 64, 0x40001A40#64, 0x1001#64, 1#64) := by decide +kernel

/-- R265, R267: a handler is entered, and TRET returns after the trap. -/
theorem test_trap_and_return :
    trapOf (.trap 5) { oneG 0 [] with ctxs := [(1, { ctxOne 0 with tr := { vec := 0x2000#64 } })] } = (causeTRAPI.setWidth 64, 0x40001A40#64, 0, 5#64) ∧
    pcAfter (.trap 5) { oneG 0 [] with ctxs := [(1, { ctxOne 0 with tr := { vec := 0x2000#64 } })] } = 0x2000#64 ∧
    pcAfter .tret { oneG 0 [] with ctxs := [(1, { ctxOne 0 with tr := { vec := 0x2000#64, save := 0x1000040001A44#64 } })] } = 0x40001A44#64 ∧
    (match exec (.trap 5) (oneG 0 []) with | .next t => decide (t.me.hold = .unhandled) && t.me.pc == 0x40001A40#64 | _ => false) = true := by decide +kernel

/-- R214, R91: a local-store load after a store of the same core reads what was stored. -/
theorem test_local_store :
    gAfter (.lds 9 3 .h .ls 0x7E) { oneG 0 [(3, 8#64)] with mem := [(lsKey 0 4, 0x34#8), (lsKey 0 5, 0x92#8)] } 9 = 0xFFFFFFFFFFFF9234#64 ∧
    gAfter (.ldn 9 3 .h .ls 0x7E) { oneG 0 [(3, 8#64)] with mem := [(lsKey 0 4, 0x34#8), (lsKey 0 5, 0x92#8)] } 9 = 0x9234#64 := by decide +kernel

/-- R262, R407: TIME, CTXID and a number outside the map. -/
theorem test_control_registers :
    gAfter (.ctrd 9 0x000) (oneG 0 []) 9 = 1#64 ∧ gAfter (.ctrd 9 0x010) (oneG 0x1F3 []) 9 = 0x1F3#64 ∧
    (trapOf (.ctrd 9 0x3FF) { oneG 0 [] with fetched := 0xF42403FF#32 }).2.2.2 = 0x7F42403FF#64 := by decide +kernel

/-- R264, R38: only the keeper reads another context's registers. -/
theorem test_keeper_only : (trapOf (.creap 3) (oneG 0 [])).1 = causePRIV.setWidth 64 := by decide +kernel

/-- R193, R195: lanes add by themselves, under a mask. -/
theorem test_vector_add :
    (match exec (.vadd 3 1 2 1 .w) { oneG 0 [] with
        ctxs := [(1, { ctxOne 0 with masks := [(1, 0x0001#16)] })]
        cores := [(0, { v := [(33, { val := BitVec.ofNat 512 (5 + 7 * 2 ^ 32) }), (34, { val := BitVec.ofNat 512 (2 ^ 32 - 3 + 2 ^ 32) })] })] } with
      | .next t => (t.vReg 1 3).val | _ => 0) = BitVec.ofNat 512 2 := by decide +kernel

/-! ## The first step after reset -/

/-- The word placed by withFetchWord is what the next step runs: `limz g10, 0xDEAD, 3` by the keeper of core 0. -/
theorem test_first_step : (match step (State.reset.withFetchWord 32 0x942BDEAD) with | .next t => t.g 10 | _ => 0) = 0xDEAD000000000000#64 := by
  decide +kernel

/-- A compact form too: `li.c g4, -3`. -/
theorem test_first_step_compact : (match step (State.reset.withFetchWord 16 0x089D) with | .next t => (t.g 4, t.me.pc) | _ => (0, 0)) =
    (-3#64, 2#64) := by decide +kernel

/-- Nothing placed, nothing runs: a cycle passes. -/
theorem test_idle_step : (match step State.reset with | .next t => (t.pkg 0).cycle | _ => 0) = 1 := by decide +kernel


/-! ## Witnesses: states and operands that meet the hypotheses of each statement

Clauses under a check the spec leaves to opaque functions (a signature, a digest, a fused version) are witnessed with that check as a
premise. -/

/-- The keeper of core 0 at its slot, its general registers as listed. -/
def keeperG (gs : List (Nat × Word)) : State :=
  { State.reset with cores := [(0, { g := gs.map (fun e => (e.1, { val := e.2 })) })] }
/-- A state with another current context. -/
def onMe (s : State) (f : Ctx → Ctx) : State := { s with ctxs := [(1, f (ctxOne 0))] }
/-- A TLB that maps the first gibibyte of space 0 to physical address a, readable and writable. -/
def tlbTo (a : Word) : Galley := { tlb := [{ space := 0, base := 0, size := 2 ^ 30, leaf := 0xF000000000000000#64 ||| a }] }
/-- A state whose galley translates generic addresses. -/
def mapped (s : State) : State := { s with galleys := [(0, tlbTo 0)] }
/-- The same onto bank memory. -/
def banked (s : State) : State := { s with galleys := [(0, tlbTo 0x8000000000#64)] }
/-- A state with queue 1 of job 0, of an entry type, produced and consumed by program 0. -/
def queued (s : State) (t : BitVec 2) : State :=
  { s with queues := [(1, { valid := true, etype := t, cap := 1, producers := [0], consumers := [0] })] }
/-- A state in which table 0x10000 of job 0 maps its first gibibyte to physical address 0. -/
def tabled (s : State) : State :=
  { s with jobs := [(0, 0x10000)], mem := [(0x10002, 0x02#8), (0x10007, 0x80#8), (0x20007, 0xF0#8)] }
/-- A state in which tables of job 0 map the granule at 0x4000_0000 to physical address 0x50000, readable and writable. -/
def paged (s : State) : State :=
  { s with
    jobs := [(0, 0x10000)]
    mem := [(0x10002, 0x02#8), (0x10007, 0x80#8), (0x2000A, 0x03#8), (0x2000F, 0x80#8), (0x30002, 0x04#8), (0x30007, 0x80#8), (0x40002, 0x05#8),
            (0x40007, 0xF0#8)] }
/-- A state with one message. -/
def inNet (s : State) (m : Msg) : State := { s with net := [m] }
/-- A result that is there. -/
def isOk {α β : Type} (e : Except α β) : Bool := match e with | .ok _ => true | .error _ => false

/-- O1: registers at both ends of the file. -/
theorem witness_IntegerArithmetic : (oneG 0 []).canIssue [127, 0] [127] = true ∧ (oneG 0 []).canIssue [0] [0] = true := by decide +kernel
/-- Constants. -/
theorem witness_Constants : (oneG 0 []).canIssue [] [127] = true ∧ (oneG 0 []).canIssue [127] [127] = true := by decide +kernel
/-- FieldsAndCounts: the longest field that fits, at both ends. -/
theorem witness_FieldsAndCounts : (63#6).toNat + (0#5).toNat + 1 ≤ 64 ∧ (32#6).toNat + (31#5).toNat + 1 ≤ 64 ∧
    (oneG 0 []).canIssue [127, 0] [127] = true := by decide +kernel
/-- Divide: with and without the trap. -/
theorem witness_Divide : (oneG 0x20 []).canIssue [127, 0] [127] = true ∧ (oneG 0x20 []).me.ctl.fpctl.getLsbD 5 = true ∧
    (oneG 0 []).me.ctl.fpctl.getLsbD 5 = false := by decide +kernel
/-- CompactForms: slots unmapped, mapped with a held value, mapped with room. -/
theorem witness_CompactForms :
    (oneG 0 []).me.mapped 127 = none ∧ (oneG 0 []).canIssue [31] [31] = true ∧
    (let s := queued (onMe (oneG 0 []) (fun x => { x with ctl := { qmap := 1#64 }, held := [0] })) 0#2
     s.me.sg = 128 ∧ s.me.mapped 124 = some 1 ∧ s.canIssue [124] [31] = true ∧ s.canIssue [0] [124] = true) := by decide +kernel
/-- CompactForms: an unmapped slot's register with QPUSH.C's source present. -/
theorem witness_CompactForms_unmapped : (oneG 0 []).me.mapped 124 = none ∧ (oneG 0 []).canIssue [31] [124] = true ∧
    (oneG 0 []).canIssue [] [31] = true := by decide +kernel
/-- Branches: a present, an absent and a mapped register, the latter ready, not ready, and with a bad handle. -/
theorem witness_Branches :
    (oneG 0 []).canIssue [127] [] = true ∧ 127 < (oneG 0 []).me.sg ∧ (oneG 0 []).me.mapped 127 = none ∧
    (let s := onMe (oneG 0 []) (fun x => { x with ctl := { qmap := 1#64 } })
     s.me.mapped 124 = some 1 ∧ s.badHandle 1 (s.me.qkey 1) = true ∧
     (queued s 0#2).badHandle 1 (s.me.qkey 1) = false ∧ ((queued s 0#2).queue (s.me.qkey 1)).etype = 0#2 ∧
     ((queued s 0#2).queue (s.me.qkey 1)).resident = true ∧ 124 - 124 ∉ s.me.held) ∧
    0 ∈ (onMe (oneG 0 []) (fun x => { x with held := [0] })).me.held := by decide +kernel
/-- Jumps: an even and an odd target. -/
theorem witness_Jumps : (oneG 0 [(1, 2#64)]).canIssue [1] [] = true ∧ ((oneG 0 [(1, 2#64)]).g 1).getLsbD 0 = false ∧
    ((oneG 0 [(1, 3#64)]).g 1).getLsbD 0 = true ∧ (oneG 0 []).canIssue [127] [127] = true ∧ (oneG 0 []).canIssue [] [1] = true := by
  decide +kernel
/-- FloatArithmetic: with all exceptions disabled, and with one enabled that is raised. -/
theorem witness_FloatArithmetic : (oneG 0 []).canIssue [127, 0, 127] [127] = true ∧ enabledFlags 0#64 0x1F#5 = 0#5 ∧
    enabledFlags 0x1FF#64 0x10#5 ≠ 0#5 := by decide +kernel
/-- FloatConversionsAndLong. -/
theorem witness_FloatConversionsAndLong : (oneG 0 []).canIssue [127] [0] = true ∧ (oneG 0x1FF []).canIssue [127, 127] [127] = true := by
  decide +kernel

/-- The last doubleword of the local store. -/
def lastLs : State := oneG 0 [(3, 0x3FFF8#64)]
/-- Loads: the last doubleword of the local store, clean and poisoned; memory, aligned and not. -/
theorem witness_Loads :
    lastLs.canIssue [3] [9] = true ∧ (lastLs.g 3).toNat % 8 = 0 ∧ (lastLs.g 3).toNat < 2 ^ 18 ∧
    lastLs.watchBefore (seenOf 1 .load .ls [{ ea := lastLs.g 3, size := 8 }]) = none ∧ lastLs.poisoned (lsKey 0 0x3FFF8) 8 = false ∧
    ({ lastLs with poison := [lsKey 0 0x3FFF8] } : State).poisoned (lsKey 0 0x3FFF8) 8 = true ∧ lastLs.me.watchRegs.watching = false ∧
    misaligned .generic 8 4#64 = true ∧ misaligned .generic 8 8#64 = false ∧
    isOk ((mapped (oneG 0 [])).resolveAll .load .generic [{ ea := 8#64, size := 8 }]) = true ∧
    isOk ((oneG 0 []).resolveAll .load .gi [{ ea := 0x7FFFFC#64, size := 4 }]) = true := by decide +kernel
/-- MemoryStore: up to the limit of 64 posted. -/
theorem witness_MemoryStore :
    (let s := onMe (mapped (oneG 0 [])) (fun x => { x with posted := 63 })
     s.canIssue [3, 9] [] = true ∧ s.me.posted + 1 ≤ 64 ∧
     s.watchBefore (seenOf 1 .store .generic [{ ea := 8#64, size := 8 }]) = none ∧
     isOk (s.resolveAll .store .generic [{ ea := 8#64, size := 8 }]) = true) ∧
    misaligned .gi 8 8#64 = true ∧ misaligned .ls 2 1#64 = true := by decide +kernel
/-- AtomicIssue: bank memory, memory that is none, a misaligned address. -/
theorem witness_AtomicIssue :
    (banked (oneG 0 [])).canIssue [3, 9] [0] = true ∧ (banked (oneG 0 [])).canIssue [1, 3, 9] [1] = true ∧
    (match (banked (oneG 0 [])).resolveAll .atomic .generic [{ ea := 8#64, size := 8 }] with
      | .ok ps => ps.all (fun p => !p.notBank) | _ => false) = true ∧
    (match (mapped (oneG 0 [])).resolveAll .atomic .generic [{ ea := 8#64, size := 8 }] with
      | .ok ps => ps.any (fun p => p.notBank) | _ => false) = true ∧ (4#64).toNat % AtomOp.add.size ≠ 0 := by decide +kernel
/-- BankIssue: counts at both ends and beyond. -/
theorem witness_BankIssue :
    (banked (oneG 0 [])).canIssue [3, 9] [1] = true ∧ (banked (oneG 0 [])).canIssue [3, 9] [0] = true ∧
    (banked (oneG 0 [])).watchBefore (MsgKind.barrive.seenAt 16 16) = none ∧
    [Acc.atomic, Acc.bankRead].all (fun acc => match (banked (oneG 0 [])).resolveAll acc .generic [{ ea := 16#64, size := 16 }] with
      | .ok ps => ps.all (fun p => !p.notBank) | _ => false) = true ∧
    (1048575#64).toNat ≤ 1048575 ∧ 1048575 < (1048576#64).toNat ∧ 1 ≤ (1#64).toNat ∧ (2#5).toNat ≤ 2 := by decide +kernel
/-- FenceAcquireRelease: a fence that is met, and one that waits for a posted store. -/
theorem witness_FenceAcquireRelease :
    (mapped (oneG 0 [])).canIssue [3, 9] [1] = true ∧ (mapped (oneG 0 [])).fenceMet 1 .sys = true ∧
    ({ inNet (oneG 0 []) { id := 0, src := 1, kind := .store, posted := 1, parts := [{ addr := 0, loc := .cell 0, size := 8 }] } with
      nextId := 1 } : State).fenceMet 1 .sys = false ∧
    isOk ((mapped (oneG 0 [])).resolveAll .store .generic [{ ea := 8#64, size := 8 }]) = true := by decide +kernel
/-- FenceAcquireRelease: the doubleword of an LDA and of an STL. -/
theorem witness_FenceAcquireRelease_words :
    let s := mapped (oneG 0 [(3, 8#64)])
    (s.g 3).toNat % 8 = 0 ∧ s.me.posted + 1 ≤ 64 ∧ s.watchBefore (seenOf 1 .load .generic [{ ea := s.g 3, size := 8 }]) = none ∧
    s.watchBefore (seenOf 1 .store .generic [{ ea := s.g 3, size := 8, data := leBytes 8 0 }]) = none ∧
    isOk (s.resolveAll .load .generic [{ ea := s.g 3, size := 8 }]) = true := by decide +kernel
/-- PublishShadowDepositArm: tokens, declared and undeclared buffers, neighbours and none, arms of every presence. -/
theorem witness_PublishShadowDepositArm :
    (oneG 0 []).tokenOk 0 = false ∧ (oneG 0 []).tokenOk 127 = true ∧ (oneG 0 []).canIssue [3, 9] [127] = true ∧
    ((oneG 0 []).gReg 1 127).st = .present ∧ (oneG 0 []).shadowAt 0 0 0 = none ∧
    ({ oneG 0 [] with shadows := [{ pkg := 0, job := 0, base := 0, len := 65536 }] } : State).shadowAt 0 0 0 ≠ none ∧
    neighbour 0 1 = none ∧ (neighbour 0 0).isSome = true ∧ (2048#64).toNat ≥ 2048 ∧ (2047#64).toNat < 2048 ∧
    (onMe (oneG 0 []) (fun x => { x with ctl := { qmap := 1#64 } })).me.mapped 124 ≠ none ∧
    (({ oneG 0 [] with cores := [(0, { g := [(129, { st := .armed }), (130, { st := .pending }), (131, { st := .absent })] })] } : State) |>
      fun s => (s.gReg 1 1).st = .armed ∧ (s.gReg 1 2).st = .pending ∧ (s.gReg 1 3).st = .absent) := by decide +kernel
/-- PublishShadowDepositArm: a token register that is armed. -/
theorem witness_PublishShadowDepositArm_token :
    let s : State := { oneG 0 [] with cores := [(0, { g := [(129, { st := .armed })] })] }
    s.tokenOk 1 = true ∧ s.canIssue [3, 9] [1] = true ∧ (s.gReg s.cur 1).st ≠ .present := by decide +kernel
/-- PrefetchWaitWake: a page in the TLB, one that is not, an address that is not shared, and a misaligned one. -/
theorem witness_PrefetchWaitWake :
    (oneG 0 []).translate 0 0 0 .load = .miss ∧ (mapped (oneG 0 [])).translate 0 0 0 .load ≠ .miss ∧ (oneG 0 []).canIssue [3, 9] [0] = true ∧
    2 ^ 54 ≤ (0x40000000000000#64).toNat ∧ (0x40000000000000#64).toNat < 2 ^ 56 ∧ (0x3FFFFFFFFFFFF8#64).toNat < 2 ^ 54 ∧
    (4#64).toNat % 8 ≠ 0 ∧ (oneG 0 []).me.mapped 9 = none ∧
    isOk ((mapped (oneG 0 [])).resolveAll .load .generic [{ ea := 8#64, size := 8 }]) = true := by decide +kernel

/-- The vector statements: registers and pairs at both ends of the file. -/
theorem witness_VectorIntegerAndCompare : (oneG 0 []).canIssueV (vregs true 30 ++ vregs false 31) (vregs true 30) = true ∧
    enabledFlags (oneG 0 []).me.ctl.fpctl 0x1F#5 = 0#5 ∧ enabledFlags (oneG 0x1FF []).me.ctl.fpctl 1#5 ≠ 0#5 := by decide +kernel
/-- VectorFloat. -/
theorem witness_VectorFloat : (oneG 0 []).canIssueV (vregs true 30 ++ vregs true 0 ++ vregs true 2) (vregs true 30) = true ∧
    enabledFlags (oneG 0x1FF []).me.ctl.fpctl 0x10#5 ≠ 0#5 := by decide +kernel
/-- VectorLong. -/
theorem witness_VectorLong : (oneG 0 []).canIssueV [31, 0] [31] = true ∧ (oneG 0 []).canIssueV (vregs true 30) (vregs true 30) = true := by
  decide +kernel
/-- VectorConvert. -/
theorem witness_VectorConvert : (oneG 0 []).canIssueV [31, 0] [0] = true ∧ (oneG 0 []).canIssueV (vregs false 31) (vregs true 30) = true ∧
    enabledFlags (oneG 0 []).me.ctl.fpctl 0x1F#5 = 0#5 := by decide +kernel
/-- LanesReduceScan. -/
theorem witness_LanesReduceScan : (oneG 0 []).canIssueV (vregs true 30 ++ vregs true 30) (vregs true 30) = true ∧
    (oneG 0 []).canIssueV [31, 31] [31] = true ∧ enabledFlags (oneG 0 []).me.ctl.fpctl 0x1F#5 = 0#5 := by decide +kernel
/-- WideAndExact. -/
theorem witness_WideAndExact : (oneG 0 []).canIssueV (vregs true 30 ++ [31]) (vregs true 30) = true ∧ (oneG 0 []).canIssueV [] [30, 31] = true ∧
    (oneG 0 []).canIssue [] [31] = true ∧ (oneG 0 []).canIssueV [30, 31] [] = true ∧
    enabledFlags (oneG 0 []).me.ctl.fpctl 0x1F#5 = 0#5 := by decide +kernel
/-- The state with m1 = bits and the posted count n. -/
def masked (s : State) (bits : Half) (n : Nat) : State := onMe s (fun x => { x with masks := [(1, bits)], posted := n })
/-- VectorMemory: no lane, all lanes; local store, memory; the posted limit. -/
theorem witness_VectorMemory :
    let s := masked (mapped (oneG 0 [])) 0xFFFF#16 48
    let row (ea : Word) : List El := (List.range 16).map (fun j => { ea := ea + BitVec.ofNat 64 (4 * j), size := 4, elem := j })
    s.canIssue [3] [] = true ∧ s.canIssueV [31] [31] = true ∧ (masked s 0#16 0).m 1 = 0#16 ∧ s.m 1 = 0xFFFF#16 ∧
    s.me.posted + 16 ≤ 64 ∧ (0x3FFC0#64).toNat % 64 = 0 ∧ (0x3FFC0#64).toNat < 2 ^ 18 ∧ (32#64).toNat % 64 ≠ 0 ∧
    s.watchBefore (seenOf 1 .load .generic (row 64#64)) = none ∧ isOk (s.resolveAll .load .generic (row 64#64)) = true ∧
    isOk (s.resolveAll .store .generic (row 64#64)) = true ∧ s.poisoned (lsKey 0 0x3FFC0) 64 = false ∧
    (List.range 16).all (fun j => !misaligned (amodeOf (s.me.oxr 1)) 4 (s.gatherEa 0#5 4 j)) = true ∧
    s.canIssueV (0 :: vregs true 30) [] = true ∧ s.canIssueV [0] (vregs true 30) = true := by decide +kernel
/-- VectorMemory: the interleaved form with doublewords. -/
theorem witness_VectorMemory_wrong :
    let s := onMe (mapped (oneG 0 [])) (fun x => { x with ox := [(1, 2#64)] })
    amodeOf (s.me.oxr 1) = .gi ∧ elemWidth (wd .d) / 8 = 8 ∧ amodeOf ((oneG 0 []).me.oxr 1) ≠ .gi ∧ s.canIssueV [31] (vregs true 30) = true := by
  decide +kernel
/-- MasksAndMoves. -/
theorem witness_MasksAndMoves : (oneG 0 []).canIssue [31] [31] = true ∧ (oneG 0 []).canIssueV (vregs true 30) (vregs true 30) = true ∧
    (oneG 0 []).canIssue [] [] = true ∧ (oneG 0 []).canIssueV [] [] = true := by decide +kernel
/-- CurvesAndExtension: the third coordinate inside and outside; the last extension register and one more. -/
theorem witness_CurvesAndExtension :
    (oneG 0 []).canIssueV [28, 29, 30] (vregs true 30) = true ∧ (oneG 0 []).me.sv ≤ 30 + 2 ∧ 30 < (oneG 0 []).me.sv ∧
    8 < (1#3).toNat + (7#3).toNat + 1 ∧ (0#3).toNat + (7#3).toNat + 1 ≤ 8 ∧ (7#3).toNat + (0#3).toNat + 1 ≤ 8 ∧
    (mapped (oneG 0 [])).canIssue [3] [127] = true ∧ (0#64).toNat % 8 = 0 ∧ (4#64).toNat % 8 ≠ 0 ∧
    (let els := (List.range 8).map (fun l => ({ ea := BitVec.ofNat 64 (8 * l), size := 8, elem := l } : El))
     isOk ((mapped (oneG 0 [])).resolveAll .load .generic els) = true ∧ isOk ((mapped (oneG 0 [])).resolveAll .store .generic els) = true ∧
     (mapped (oneG 0 [])).watchBefore (seenOf 1 .load .generic els) = none) := by decide +kernel

/-- QueueSends: handles bad and good, of each entry type, with room and resident. -/
theorem witness_QueueSends :
    (oneG 0 []).badHandle 1 1 = true ∧ 65536 ≤ (65536#64).toNat ∧
    [0#2, 1#2, 2#2, 3#2].all (fun t => let s := queued (oneG 0 [(3, 1#64)]) t
      !s.badHandle 1 (s.me.qkey 1) && (s.queue 1).etype == t && (s.queue 1).resident && !s.flowFull 1 1 && s.canIssue [3, 9] []) = true ∧
    31 < (oneG 0 []).me.sv ∧ (oneG 0 []).vsrcOk 31 = true ∧ (0#16) ∈ ((queued (oneG 0 []) 0#2).queue 1).producers ∧
    (1#16) ∉ ((queued (oneG 0 []) 0#2).queue 1).producers := by decide +kernel
/-- QueueAsks. -/
theorem witness_QueueAsks :
    [0#2, 1#2, 2#2].all (fun t => let s := queued (oneG 0 [(3, 1#64)]) t
      s.canIssue [3] [9, 0] && s.canIssue [3] [9, 10] && (s.queue 1).consumedBy 0#32 && !(s.queue 1).consumedBy 1#32 && (s.queue 1).resident &&
        s.vdstOk 31 && !s.badHandle 1 (s.me.qkey 1) && (s.me.mapped 10).isNone) = true ∧ (0#7).toNat < 2 ∧ 2 ≤ (2#7).toNat := by
  decide +kernel
/-- QueueMapping: the slot's register present and pending. -/
theorem witness_QueueMapping :
    (let s := queued (oneG 0 [(3, 1#64)]) 0#2
     s.canIssue [3] [] = true ∧ (s.g 3).toNat < 65536 ∧ s.badHandle 1 (s.me.qkey 1) = false ∧ (s.queue 1).etype = 0#2 ∧
     (s.queue 1).resident = true ∧ (s.gReg 1 124).st = .present) ∧
    (let s : State := { oneG 0 [] with cores := [(0, { g := [(128 + 127, { st := .pending })] })] }
     127 < s.me.sg ∧ (s.gReg s.cur 127).st ≠ .present) ∧ ((queued (oneG 0 []) 1#2).queue 1).etype ≠ 0#2 := by decide +kernel
/-- TrapsAndReturns: with and without a handler, inside one, the keeper. -/
theorem witness_TrapsAndReturns :
    let h (x : Ctx) : Ctx := { x with tr := { vec := 0x2000#64 } }
    let r (x : Ctx) : Ctx := { x with tr := { vec := 0x2000#64, save := 0x1000000000000#64 } }
    (onMe (oneG 0 []) h).me.tr.vec ≠ 0#64 ∧ (onMe (oneG 0 []) h).me.tr.inh = false ∧ (onMe (oneG 0 []) r).me.tr.inh = true ∧
    (oneG 0 []).me.tr.vec = 0#64 ∧ isKeeper (oneG 0 []).cur = false ∧ isKeeper (keeperG []).cur = true ∧ causeTRAPI ≠ causeCANCEL ∧
    (oneG 0 []).tracing 0 = none := by decide +kernel
/-- The strand of context 1 as a pooled one whose strand queue is queue 1. -/
def pooledOne : State := queued (onMe (mapped (oneG 0 [(3, 64#64)])) (fun x => { x with cond := .pooled, squeue := 1 })) 3#2
/-- Work. -/
theorem witness_Work :
    pooledOne.me.cond = .pooled ∧ pooledOne.badHandle 1 pooledOne.me.squeueKey = false ∧ (pooledOne.queue 1).etype = 3#2 ∧
    (pooledOne.queue 1).resident = true ∧ pooledOne.reservationBound 1 = false ∧ pooledOne.quiet 1 = true ∧
    ({ pooledOne with resvs := [(0, { holder := some (1, .pkg) })] } : State).reservationBound 1 = true ∧
    ({ pooledOne with cores := [(0, { g := [(129, { st := .pending })] })] } : State).quiet 1 = false ∧
    pooledOne.yieldsTo = false ∧ (oneG 0 []).me.cond ≠ .pooled ∧ pooledOne.canIssue [3] [9] = true ∧
    isOk ((mapped (oneG 0 [])).resolveAll .load .generic [{ ea := 64#64, size := 64 }]) = true ∧
    isOk ((mapped (oneG 0 [])).resolveAll .store .generic [{ ea := 64#64, size := 64, data := leBytes 64 0 }]) = true ∧
    (oneG 0 []).levelOfJob (oneG 0 []).me (levelKey 4 0) = false ∧
    (let s : State := { oneG 0 [] with levels := [(levelKey 4 0, { known := true }), (levelKey 3 1, { known := true, parent := levelKey 4 0 }),
                                                  (levelKey 3 2, { known := true, parent := levelKey 4 0, state := 1 })] }
     s.levelOfJob s.me (levelKey 4 0) = true ∧ s.levelOfJob s.me (levelKey 3 1) = true ∧
     s.under (levelKey 3 1) 4 (progKey s.me.program) = false ∧ (s.level (levelKey 3 1)).final = false ∧
     (s.level (levelKey 3 2)).final = true ∧ s.me.namedLevel 3 2#64 = levelKey 3 2) := by decide +kernel
/-- A slug in queue 1 that context 2, free in the pool, holds; the strand of context 1 is after it in deadline. -/
def yielding : State :=
  let g : Slug := { dw0 := 0x0008000000002000#64, dw1 := 5#64, dw2 := 0x0000000100000000#64 }
  { pooledOne with
    queues := [(1, { valid := true, etype := 3#2, cap := 4, producers := [0], consumers := [0xFFFF], entries := [{ payload := g.bits }] })]
    ctxs := [(1, { (ctxOne 0) with cond := .pooled, squeue := 1, ctl := { deadline := 100#64 } }),
             (2, { cond := .pooledFree, win := { gb := 0, gn := 8, vb := 0, vn := 0, db := 0, dn := 0 }, sg := 8 })]
    cores := [(0, { poolmask := 6#64 })] }
/-- YIELD in favour of a slug. -/
theorem witness_Work_yields : yielding.me.cond = .pooled ∧ yielding.yieldsTo = true ∧ 0 < yielding.me.sg := by decide +kernel
/-- Another context in a state of the keeper's. -/
def other (y : Ctx) (gs : List (Nat × Word)) : State := { keeperG gs with ctxs := [(2, y)] }
/-- Keeper: a context empty, with windows, occupied, held by each cause; windows that fit and that do not. -/
theorem witness_Keeper :
    isKeeper (keeperG []).cur = true ∧ isKeeper (oneG 0 []).cur = false ∧ (keeperG []).canIssue [3, 9] [127] = true ∧
    (other {} []).windowsFree 2 (windowsOf 0x0002000008000000#64) = true ∧ windowWordOk 0x0002000008000000#64 = true ∧
    windowWordOk 1#64 = false ∧ (other {} []).windowsFree 2 (windowsOf 0x0002000000000000#64) = false ∧
    (other {} []).ctx 2 = {} ∧ (other { cond := .emptyWin } []).ctx 2 ≠ {} ∧ (other { cond := .pinned } []).ctx 2 ≠ {} ∧
    ((other { cond := .pinned } []).ctx 2).occupied = true ∧ ((other { cond := .emptyWin } []).ctx 2).occupied = false ∧
    ((other { cond := .emptyWin } []).withdraw 2).enginesQuiet 2 = true ∧
    isOk ((mapped (keeperG [])).resolveAll .load .generic [{ ea := 64#64, size := 64 }]) = true ∧
    [Hold.chold, .brkpt true, .brkpt false, .watch true, .watch false, .step, .priv, .unhandled].all
      (fun h => decide (((other { cond := .pinned, hold := h } []).ctx 2).hold = h)) = true ∧
    ((other { cond := .pinned, hold := .priv, tr := { vec := 2#64 } } []).ctx 2).tr.inh = false := by decide +kernel
/-- ReadAndWriteRegisters: targets, indexes at both ends of each class, presences; controls of each access. -/
theorem witness_ReadAndWriteRegisters :
    let y : Ctx := { cond := .pinned, hold := .chold, win := { gb := 128, gn := 128, vb := 32, vn := 32, db := 0, dn := 8 }, sg := 128, sv := 32, sd := 8 }
    [(RClass.g, 127#64), (.v, 0x71F#64), (.m, 7#64), (.ox, 7#64), (.ox, 0x108#64)].all (fun e => xIndexOk e.1 e.2 && y.xInside e.1 (xIndex e.1 e.2)) = true ∧
    [(RClass.g, 128#64), (.v, 0x800#64), (.m, 8#64), (.ox, 8#64), (.ox, 0x109#64)].all (fun e => !xIndexOk e.1 e.2) = true ∧
    (other y []).canIssue [3, 9] [127] = true ∧ ((other y []).ctx 2).hold ≠ .none ∧ ((other y []).ctx 2).cond = .pinned ∧
    ((other y []).gReg 2 127).st = .present ∧ ((other y []).vReg 2 31).st = .present ∧
    (({ other y [] with cores := [(0, { g := [(255, { st := .pending })] })] } : State).gReg 2 127).st = .pending ∧
    ctlAccess 0x3FF = none ∧ ctlAccess 0 = some .ro ∧ isService 0 = false ∧ isService 32768 = true ∧
    (oneG 0 []).slotBusy (changedSlots 0#64 0#64) = none ∧ (oneG 0 []).canIssue [127] [127] = true := by decide +kernel
/-- ReadAndWriteRegisters: registers with poison and without. -/
theorem witness_ReadAndWriteRegisters_poison :
    let y : Ctx := { cond := .pinned, hold := .chold, win := { gb := 128, gn := 128, vb := 32, vn := 32, db := 0, dn := 8 }, sg := 128, sv := 32, sd := 8 }
    let s : State := { other y [] with cores := [(0, { g := [(255, { poison := true })], v := [(63, { poison := 0x8000#16 })] })] }
    s.xPoison .g 127#64 2 = some 127 ∧ s.xPoison .v 0x71F#64 2 = some 287 ∧ s.xPoison .v 0x61F#64 2 = none ∧ s.xPoison .g 126#64 2 = none := by
  decide +kernel

/-- FeederIssue: a slot free, and none free. -/
theorem witness_FeederIssue :
    (oneG 0 []).canIssue [3, 9] [127] = true ∧ (oneG 0 []).tokenOk 127 = true ∧ ((oneG 0 []).gReg 1 127).st = .present ∧
    (oneG 0 []).feederOpen = true ∧ ((oneG 0 []).galley 0).feeder.length < 8 ∧
    (let o : FeedOp := { ctx := 2, epoch := 0, pc := 0, job := 0, prog := 0, tok := 9, kind := .copy 0 }
     ({ oneG 0 [] with galleys := [(0, { feeder := (List.range 8).map (fun i => (i, o)) })] } : State).feederOpen = false ∧
     ({ oneG 0 [] with galleys := [(0, { feeder := (List.range 7).map (fun i => (i, o)) })] } : State).feederOpen = true) := by
  decide +kernel
/-- The strand owns all four accumulator sets. -/
def platenOne : State := onMe (oneG 0 [(3, 64#64), (9, 0x10000#64)]) (fun x => { x with
  ctl := { platecfg := 0xF0000#64 }
  ox := [(0, 16#64), (1, 0x10020#64), (2, 0x10001#64)] })
/-- PlatenIssue: sets owned and not; the bounds met. -/
theorem witness_PlatenIssue :
    isService platenOne.cur = false ∧ isService ({ platenOne with cur := 32769 } : State).cur = true ∧
    platenOne.me.ctl.platecfg.getLsbD 19 = true ∧ (oneG 0 []).me.ctl.platecfg.getLsbD 16 = false ∧ (platenOne.core 0).platenQ = [] ∧
    platenOne.me.ctl.fmta = 0#64 ∧ (16 + 31 * 8176 + 32 ≤ 2 ^ 18 ∧ 16 % 2 = 0) ∧ (0xFC00 % 64 = 0 ∧ 0xFC00 + 16 * 64 ≤ 2 ^ 16) ∧
    platenOne.canIssue [3] [127] = true ∧ platenOne.tokenOk 127 = true ∧ (platenOne.gReg 1 127).st = .present ∧ 32 * 4 ≤ 128 ∧
    0x3F000 + 31 * 128 + 32 * 4 ≤ 2 ^ 18 ∧ platenOne.canIssue [3, 9] [127] = true ∧ (platenOne.g 9).toNat / 2 ^ 16 = 1 ∧
    (64 * 1024 ≤ 2 ^ 16 ∧ 0x30000 + 64 * 1024 ≤ 2 ^ 18) ∧ platenOne.me.oxr 2 &&& ~~~0x307FF#64 = 0#64 ∧
    (0x10001#64).toNat % 2 ^ 11 = 1 ∧ (0x20400#64).toNat % 2 ^ 11 = 1024 ∧ (0x20400#64).toNat / 2 ^ 16 ≠ 3 ∧ 16 + 16 * 1 ≤ 0x10020 := by
  decide +kernel
/-- RepartitionAndMigrate: a descriptor aligned and not; a strand at home and away, quiet and not, holding a reservation. -/
theorem witness_RepartitionAndMigrate :
    (oneG 0 []).canIssue [3] [127] = true ∧ (oneG 0 []).tokenOk 127 = true ∧ ((oneG 0 []).gReg 1 127).st = .present ∧
    (oneG 0 []).tokenOk 0 = false ∧
    (oneG 0 []).genericTarget 1 0 .load (3 * 2 ^ 54) = .place (.local 0 0) ∧
    (oneG 0 []).genericTarget 1 0 .load (3 * 2 ^ 54 + 2 ^ 18) = .place (.local 1 0) ∧ pooledOne.me.cond = .pooled ∧
    (pooledOne.galley (galOfCore 1)).migr.length < 256 ∧ pooledOne.quiet 1 = true ∧ pooledOne.reservationBound 1 = false := by decide +kernel
/-- Distribution: the last registers of the window, the last tag and form, the alignments of DLD and DST. -/
theorem witness_Distribution :
    isService (oneG 0 []).cur = false ∧ ((oneG 0 []).core 0).condQ.length < 8 ∧ 7 < (oneG 0 []).me.sd ∧
    ((oneG 0 []).dReg 1 7).poison = 0#96 ∧ [24, 25, 26, 27, 28, 29, 30, 31].all (oneG 0 []).vsrcOk = true ∧ (oneG 0 []).vdstOk 31 = true ∧
    (30#5).toNat % 2 = 0 ∧ (31#5).toNat % 2 = 1 ∧ (10#4).toNat ≤ 10 ∧ 10 < (11#4).toNat ∧ (3#4).toNat ≤ 3 ∧ 3 < (4#4).toNat ∧
    (let s := mapped (onMe (oneG 0 []) (fun x => { x with ox := [(0, 256#64)], masks := [(1, 0xFFFF#16)], posted := 32 }))
     let els : List El := [{ ea := 256#64, size := 256 }, { ea := 512#64, size := 256 }, { ea := 768#64, size := 256 }]
     (s.me.oxr 0).toNat % 256 = 0 ∧ s.me.watchRegs.watching = false ∧ s.me.posted + 2 * 16 ≤ 64 ∧
     isOk (s.resolveAll .load .generic els) = true ∧ isOk (s.resolveAll .store .generic els) = true) ∧
    (128#64).toNat % 256 ≠ 0 := by decide +kernel
/-- IssueChecks: a field outside, a source that is not ready, a busy destination, a poisoned source. -/
theorem witness_IssueChecks :
    let s : State := { oneG 0 [] with cores := [(0, { g := [(129, { st := .absent }), (130, { st := .pending }), (131, { poison := true })] })] }
    s.me.outside .d 8 = true ∧ s.me.outside .g 127 = false ∧ s.gReady 1 1 = false ∧ s.gReady 1 3 = true ∧
    ((s.me.mapped 2).isNone && (s.gReg 1 2).st == .pending) = true ∧ ((s.me.mapped 3).isNone && (s.gReg 1 3).poison) = true ∧
    s.vReady 1 31 = true ∧ (s.vReg 1 31).st ≠ .pending := by decide +kernel

/-! ### Events -/

/-- Memory has its canonical form. -/
def wfMem (s : State) : Bool := Memory.wf s.mem


/-- A message of context 1. -/
def msgOne (k : MsgKind) : Msg := { id := 7, src := 1, kind := k, waits := true }
/-- AnswersLand. -/
theorem witness_AnswersLand :
    let load : Msg := { msgOne .load with dest := .g 127 8 false }
    let late : Msg := { msgOne .load with dest := .g 127 8 false, refusal := some { imp := false, cause := causeXLATE, pc := 0, addr := 0, info := 0 } }
    let post : Msg := { msgOne .store with waits := false, posted := 1, refusal := some { imp := true, cause := causeXLATE, pc := 0, addr := 0, info := 0 } }
    let long : Msg := { msgOne .result with waits := false, dest := .vals [(.g, 127, 5)], flags := 1#5 }
    let trap : Msg := { long with flags := 0#5, trap := some { imp := true, cause := causeFPX, pc := 0, addr := 0, info := 0 } }
    (inNet (oneG 0 []) load).message 7 = some load ∧ (inNet (oneG 0 []) load).live load = true ∧ load.drop = false ∧
    load.watch.watching = false ∧ ((inNet (oneG 0 []) load).ctx 1).mapped 127 = none ∧ load.flags = 0#5 ∧
    load.trap = none ∧ (inNet (oneG 0 []) late).message 7 = some late ∧ late.posted = 0 ∧
    (inNet (oneG 0 []) post).message 7 = some post ∧ post.posted ≠ 0 ∧ (inNet (oneG 0 []) long).message 7 = some long ∧ long.trap = none ∧
    (inNet (oneG 0 []) trap).message 7 = some trap ∧ trap.flags = 0#5 := by decide +kernel
/-- AnswersLand: a vector result. -/
theorem witness_AnswersLand_lanes :
    let long : Msg := { msgOne .result with waits := false, dest := .vals [(.v, 31, 5)], flags := 1#5, lanes := 3#32 }
    let s := inNet (oneG 0 []) long
    s.message 7 = some long ∧ s.live long = true ∧ long.drop = false ∧ long.watch.watching = false ∧ long.trap = none ∧ long.waits = false := by
  decide +kernel
/-- AtTheHome: a load, a store, an atomic in bank memory, deposits. -/
theorem witness_AtTheHome :
    let part (k : Nat) : Part := { addr := 0, loc := .cell k, size := 8, data := leBytes 8 5 }
    let load : Msg := { msgOne .load with dest := .g 127 8 false, parts := [part 8] }
    let store : Msg := { msgOne .store with waits := false, posted := 1, parts := [part 8] }
    let atom : Msg := { msgOne (.atomic .add 1 0) with dest := .g 127 8 false, parts := [part 0x8000000000] }
    let dep : Msg := msgOne (.deposit 0 2 127 5)
    let s (m : Msg) : State := inNet { oneG 0 [] with ctxs := [(1, ctxOne 0), (2, ctxOne 0)] } m
    (s load).message 7 = some load ∧ (s load).homeOf 1 0 .load (.cell 8) 8 = .cell 8 ∧ (s load).poisoned 8 8 = false ∧ load.num = 0 ∧
    ({ s load with poison := [0] } : State).poisoned 8 8 = true ∧ (s store).message 7 = some store ∧ store.refusal = none ∧
    wfMem (s store) ∧ (s atom).message 7 = some atom ∧ isBank 0x8000000000 = true ∧ (s atom).poisoned 0x8000000000 8 = false ∧
    (s dep).message 7 = some dep ∧ ((s dep).ctx 2).occupied = true ∧ 127 < ((s dep).ctx 2).sg ∧ ((s dep).ctx 2).mapped 127 = none ∧
    ((s dep).gReg 2 127).st ≠ .armed ∧
    (({ s dep with cores := [(0, { g := [(255, { st := .armed })] })] } : State).gReg 2 127).st = .armed ∧
    (s { dep with num := 0 }).live dep = true ∧ dep.drop = false := by decide +kernel
/-- PublishAndWait: buffers declared, faulted and undeclared; a wait that holds and one that does not; a wake; a deadline passed. -/
theorem witness_PublishAndWait :
    let buf : Shadow := { pkg := 0, job := 0, base := 0x40000000, len := 65536 }
    let s (k : MsgKind) : State := inNet (paged (oneG 0 [])) (msgOne k)
    let t (k : MsgKind) : State := { s k with shadows := [buf] }
    (s (.publish 0x40000000)).message 7 = some (msgOne (.publish 0x40000000)) ∧ (s (.publish 0x40000000)).shadowAt 0 0 0x40000000 = none ∧
    (t (.publish 0x40000000)).shadowAt 0 0 0x40000000 = some buf ∧ ((t (.publish 0x40000000)).pagesOf buf).length = 1 ∧
    wfMem (t (.publish 0x40000000)) ∧ (t (.shadow 0x40000000 0)).message 7 = some (msgOne (.shadow 0x40000000 0)) ∧
    ({ s (.publish 0x40000000) with shadows := [{ buf with fault := 1#64 }] } : State).shadowAt 0 0 0x40000000 = some { buf with fault := 1#64 } ∧
    (let w : Msg := { msgOne (.waitv 8 0 5) with parts := [{ addr := 8, loc := .cell 8, size := 8 }] }
     (inNet (oneG 0 []) w).message 7 = some w ∧ tableFull ((inNet (oneG 0 []) w).pkg 0).waiters 0 8 = false ∧
     (inNet (oneG 0 []) w).cellOf w { addr := 8, loc := .cell 8, size := 8 } = some 8 ∧ BitVec.ofNat 64 (leNat ((inNet (oneG 0 []) w).readThrough 0 8 8)) = 0#64 ∧
     BitVec.ofNat 64 (leNat (({ inNet (oneG 0 []) w with mem := [(8, 1#8)] } : State).readThrough 0 8 8)) ≠ 0#64) ∧
    (let u : State := { inNet (oneG 0 []) (msgOne (.wakev 8 0)) with pkgs := [(0, { waiters := [{ job := 0, addr := 8, msg := 7, deadline := 5 }], time := 5 })] }
     u.message 7 = some (msgOne (.wakev 8 0)) ∧ (msgOne (.wakev 8 0)).posted = 0 ∧
     (u.pkg 0).waiters.find? (fun w => w.msg == 7) = some { job := 0, addr := 8, msg := 7, deadline := 5 } ∧
     dist ((5#64).setWidth 48) (u.time 0) ≤ 0) := by decide +kernel
/-- Paging: a walk that ends at a leaf, one that ends at none, a fault with the pager. -/
theorem witness_Paging :
    let walk : Walk := { space := 0, gran := 4, gals := [0] }
    let s : State := { tabled State.reset with dies := [(0, { walks := [walk] })] }
    let f : State := { tabled State.reset with dies := [(0, { faults := [{ space := 0, gran := 0x10000, gals := [0] }] })] }
    (s.die 0).walks.find? (fun w => w.space == 0 && w.gran == 4) = some walk ∧
    s.walk 0 0 (4 * 65536) = .leaf 0 (2 ^ 30) 0x20000 0xF000000000000000#64 ∧ s.walk 0 0 (0x10000 * 65536) = .fault false ∧
    (f.pkg 0).repIn = [] ∧ (f.faultsOf 0 0 0x10000).all (fun f => decide (f.slugs = [])) = true ∧ f.faultsOf 0 0 0x10000 ≠ [] ∧
    f.fillOf 0 0 0x10000 = none ∧ wfMem f ∧ f.refusable 0 0 0x10000 = true := by decide +kernel
/-- Paging: a prefetch that waits for a page that can be read; private pages in the HBM4 of their owner's die, in another's and of another
size; a granule of the page cache with no fill that has failed. -/
theorem witness_Paging_more :
    let walk : Walk := { space := 0, gran := 4, prefs := [1] }
    let s : State := { tabled State.reset with dies := [(0, { walks := [walk] })] }
    let w (a : Word) : State := { oneG 0 [] with mem := [(0x10002, 0x02#8), (0x10007, 0x80#8), (0x20002, 0x03#8), (0x20007, 0x80#8)] } |>.setBytes 0x30000 (leBytes 8 a.toNat)
    let q (p : Nat) (l : Word) : State := (onMe (w l) (fun x => { x with ptab := p }))
    (s.die 0).walks.find? (fun x => x.space == 0 && x.gran == 4) = some walk ∧ leafRd 0xF000000000000000#64 = true ∧
    leafEo 0xF000000000000000#64 = false ∧
    s.walkBy [] 0 0 (4 * 65536) = .leaf 0 (2 ^ 30) 0x20000 0xF000000000000000#64 ∧
    (State.reset.pkg 0).pageCache = [] ∧ (State.reset.pkg 0).cacheUse = [] ∧ State.reset.fillOf 0 0 4 = none ∧
    State.reset.mayMap 0 65535 4 = true ∧ (q 0x10000 0xF000000000000000#64).mayMap 0 65537 0 = true ∧
    (q 0x10000 0xF000001800000000#64).mayMap 0 65537 0 = false ∧
    (onMe (tabled State.reset) (fun x => { x with ptab := 0x10000 })).mayMap 0 65537 0 = false ∧ ((State.reset).ctx 1).ptab = 0 ∧
    ({ State.reset with pkgs := [(0, { pageCache := [(cacheKey 0 4, (0, 0, 0))] })] } : State).refusable 0 0 4 = false := by decide +kernel
/-- SlotEvents. -/
theorem witness_SlotEvents :
    let tr : PendTrap := { imp := true, cause := causeFPX, pc := 0, addr := 0, info := 0 }
    let s := onMe (oneG 0 []) (fun x => { x with imps := [tr], cancel := some 4#3, tr := { vec := 0x2000#64 } })
    s.me.imps = tr :: [] ∧ s.me.tr.inh = false ∧ s.me.tr.vec ≠ 0#64 ∧ s.me.cancel = some 4#3 ∧ isKeeper s.cur = false ∧
    (State.reset.core 0).stopped = true ∧ s.slotBusy (changedSlots s.me.ctl.qmap 1#64) = none := by decide +kernel
/-- SlotEvents: a core of a galley that is not mapped out. -/
theorem witness_SlotEvents_core : (State.reset.pkg 0).mappedOut.contains 0 = false := by decide +kernel
/-- EntryOrder: a list with entries before and after a marker. -/
theorem witness_EntryOrder :
    pickFrom 1 0 [{ cls := 1 }, { cls := 3 }, { kind := .mark 0 false }, { cls := 3 }] none = some 1 ∧
    pickFrom 1 0 [{ taken := [1] }, { kind := .mark 0 false }, { cls := 3 }] none = some 1 ∧ pickFrom 1 0 [{ taken := [1] }] none = none := by
  decide +kernel
/-- QueueEvents: pushes that enter, wait and are discarded, a colophon that is the last and one that is not; pops that meet each thing. -/
theorem witness_QueueEvents :
    let q : Queue := { valid := true, cap := 1, producers := [0], consumers := [0], resident := false }
    let e : QEntry := { payload := 5 }
    let push : Msg := msgOne (.push 1 e)
    let s (x : Queue) (m : Msg) : State := { inNet (oneG 0 []) m with queues := [(1, x)] }
    (s q push).message 7 = some push ∧ ((s q push).queue 1).entries.length < ((s q push).queue 1).cap ∧ q.coloph.contains 0 = false ∧
    ((s { q with entries := [e] } push).queue 1).cap ≤ ((s { q with entries := [e] } push).queue 1).entries.length ∧
    ((s { q with closed := true } push).queue 1).closed = true ∧
    (q.producers.all (fun p => p == 0xFFFE#16 || p == 0#16 || q.coloph.contains p)) = true ∧
    ([0, 1#16].any (fun p => p != 0xFFFE#16 && p != 0#16 && !q.coloph.contains p)) = true ∧
    (s { q with entries := [e] } (msgOne (.pop 1 false false 9 10))).meet 1 0 = .entry 0 e ∧
    (s { q with closed := true } (msgOne (.pop 1 false false 9 10))).meet 1 0 = .closed ∧
    (s { q with ended := true } (msgOne (.pop 1 false false 9 10))).meet 1 0 = .ended ∧
    (s q (msgOne (.pop 1 true false 9 10))).meet 1 0 = .nothing ∧
    ((s q push).queue 1).resident = false ∧ ((s q push).die 0).resident.length < residentMax ∧
    ((onMe (oneG 0 []) (fun x => { x with ctl := { qmap := 1#64 } })).ctx 1).mapped (124 + (0#2).toNat) = some 1 := by decide +kernel
/-- Dispatching: a slug and a free context; a strand that may be saved; a level with a program under it; a program with two strands. -/
theorem witness_Dispatching :
    yielding.badSlug 0 = none ∧ (yielding.galley 0).placed ≤ (yielding.pkg 0).cycle ∧
    (match yielding.nextSlug 0 with
      | some x => decide (yielding.placeFor 0 x = some 2) && !x.slug.fsave && decide (8 ≤ x.slug.gwin) &&
          decide (0 ≤ dist x.slug.deadline (yielding.time 0))
      | none => false) = true ∧
    (let s : State := { pooledOne with cores := [(0, { savearea := 0x01C0000000000000#64 ||| 0#64 })] }
     s.mayPreempt 1 = true ∧ s.quiet 1 = true ∧ s.net = [] ∧ (s.core 0).freeSlot = some 0 ∧ s.slotKey 0 0 = some (lsKey 0 0) ∧
     s.windowPoisoned 1 = false ∧ s.tracing 0 = none ∧ wfMem s) ∧ State.reset.mayPreempt 1 = false ∧
    (State.reset.level (levelKey 4 0)).known = false ∧
    (let s : State := { onMe (oneG 0 []) (fun x => x) with
       cores := []
       levels := [(levelKey 1 0, { known := true, parent := levelKey 4 0, live := 2 }), (levelKey 4 0, { known := true })] }
     (s.level (levelKey 4 0)).known = true ∧ (s.level (levelKey 4 0)).state = 0 ∧ s.queues = [] ∧ s.galleys = [] ∧ s.dies = [] ∧
     s.pkgs = [] ∧ s.net = [] ∧ s.levels.all (fun e => e.2.parent / 2 ^ 32 != 1) = true ∧ (s.ctx 1).occupied = true ∧
     s.under (levelKey 4 0) 4 (progKey (s.ctx 1).program) = true ∧ 2 ≤ (s.level (progKey 0)).live) := by decide +kernel
/-- The slug of `yielding`, of class 3 and due at 5. -/
def urgentSlug : Slug := { dw0 := 0x0008000000002000#64, dw1 := 0x0003000000000005#64, dw2 := 0x0000000100000000#64 }
/-- A queue of strands that holds a slug. -/
def strandQueue (g : Slug) : Queue :=
  { valid := true, etype := 3#2, cap := 4, producers := [0], consumers := [0xFFFF], entries := [{ payload := g.bits }] }
/-- An urgent slug that only the strand of context 1 stands in the way of. -/
def urgent : State := { pooledOne with queues := [(1, strandQueue urgentSlug)], cores := [(0, { poolmask := 2#64, savearea := 0x01C0000000000000#64 })] }
/-- A slug that is late, its program's record on this package. -/
def late : State := { yielding with pkgs := [(0, { time := 1000 })] }
/-- A strand that has been saved in slot 0 of core 0, its slug in its queue. -/
def saved : State :=
  { yielding with
    queues := [(1, strandQueue { dw0 := 0x0008000000002000#64, dw1 := 5#64, dw2 := 0x0002000100000000#64, dw3 := 0xC0000000000000#64 })]
    cores := [(0, { poolmask := 6#64, savearea := 0x01C0000000000000#64, slots := [(0, { used := true, ctx := 2, epoch := 3 })] })] }
/-- Dispatching: nothing to place, an urgent slug, a late one, a saved one. -/
theorem witness_Dispatching_places :
    State.reset.badSlug 0 = none ∧ State.reset.nextSlug 0 = none ∧ State.reset.preemption 0 = none ∧
    urgent.badSlug 0 = none ∧ urgent.nextSlug 0 = none ∧ urgent.preemption 0 = some 1 ∧
    (late.badSlug 0 = none ∧ (late.galley 0).placed ≤ (late.pkg 0).cycle ∧
      (match late.nextSlug 0 with
        | some x => decide (late.placeFor 0 x = some 2) && decide (dist x.slug.deadline (late.time 0) < 0) &&
            decide ((late.level (progKey x.slug.program)).home = 0)
        | none => false) = true) ∧
    saved.badSlug 0 = none ∧ (saved.galley 0).placed ≤ (saved.pkg 0).cycle ∧
    (match saved.nextSlug 0 with
      | some x => decide (saved.placeFor 0 x = some 2) && decide (0 ≤ dist x.slug.deadline (saved.time 0)) && x.slug.fsave &&
          decide (x.src = some (1, 0)) && decide (saved.slotOfSlug 0 x.slug = some (0, 0))
      | none => false) = true ∧ (saved.queue 1).ring = 0 ∧ saved.slotKey 0 0 = some (lsKey 0 0) ∧ saved.poisoned (lsKey 0 0) 9728 = false := by
  decide +kernel
/-- The strand of context 1, which may be saved, with other registers. -/
def savable (gs : List (Nat × GReg)) : State := { pooledOne with cores := [(0, { savearea := 0x01C0000000000000#64, g := gs })] }
/-- Dispatching: strands that may be saved, have something to complete, and have a poisoned register. -/
theorem witness_Dispatching_saves :
    (savable []).mayPreempt 1 = true ∧ State.reset.mayPreempt 1 = false ∧ (State.reset.ctx 1).cond ≠ .pooled ∧
    ((savable []).ctx 1).cond = .pooled ∧ (savable []).mayEndSave 1 = true ∧ (savable [(129, { st := .pending })]).mayEndSave 1 = false ∧
    (savable []).net = [] ∧ (savable []).slotFor 1 = some 0 ∧ ((savable []).core 0).freeSlot = some 0 ∧
    (savable []).slotKey 0 0 = some (lsKey 0 0) ∧ (savable []).windowPoisoned 1 = false ∧ (savable []).tracing 0 = none ∧ wfMem (savable []) ∧
    (let s := savable [(129, { poison := true })]
     s.mayEndSave 1 = true ∧ s.windowPoisoned 1 = true ∧ s.net = [] ∧ s.slotFor 1 = some 0 ∧ s.slotKey 0 0 = some (lsKey 0 0) ∧
     (s.forme ((s.ctx 1).program.toNat / 65536)).statusQ = 0) := by decide +kernel
/-- A job's level with a program under it, of two strands; a queue of its forme and a copy of the strand of context 1. -/
def levelled : State :=
  let o : FeedOp := { ctx := 1, epoch := 0, pc := 0, job := 0, prog := 0, tok := 127, kind := .copy 0 }
  { oneG 0 [] with
    levels := [(levelKey 1 0, { known := true, parent := levelKey 2 0, live := 2 }), (levelKey 2 0, { known := true, parent := levelKey 4 0 }),
               (levelKey 4 0, { known := true })]
    queues := [(1, { valid := true, cap := 1 })], galleys := [(0, { feeder := [(0, o)] })] }
/-- Dispatching: levels known and not, a strand, a queue and a copy under one; the last strand of a cancelled program. -/
theorem witness_Dispatching_levels :
    (State.reset.level (levelKey 4 0)).known = false ∧ (levelled.level (levelKey 4 0)).known = true ∧
    (levelled.level (levelKey 4 0)).state = 0 ∧ (levelled.ctx 1).occupied = true ∧
    levelled.under (levelKey 4 0) 4 (progKey (levelled.ctx 1).program) = true ∧ levelled.under (levelKey 4 0) 4 (levelKey 1 0) = true ∧
    (levelled.queue 1).valid = true ∧ levelled.under (levelKey 4 0) 4 (levelKey 2 (levelled.queue 1).owner.toNat) = true ∧
    ((Map.find (levelled.galley 0).feeder 0).any (fun o => levelled.under (levelKey 4 0) 4 (progKey o.prog))) = true ∧
    (levelled.level (progKey 0)).home = 0 ∧ 2 ≤ (levelled.level (progKey 0)).live.toNat ∧ (levelled.level (progKey 0)).home ≠ 1 ∧
    (let s : State := { levelled with levels := [(levelKey 1 0, { known := true, state := 4, live := 1 })] }
     (s.level (progKey 0)).home = 0 ∧ (s.level (progKey 0)).live = 1#32 ∧ (s.level (progKey 0)).state = 4 ∧ (s.level (progKey 0)).parent = 0) := by
  decide +kernel
/-- EngineEvents: a copy and a binding in a feeder slot, a platen and a condenser operation, a group of one rank at its gathering. -/
theorem witness_EngineEvents :
    let o : FeedOp := { ctx := 1, epoch := 0, pc := 0, job := 0, prog := 0, tok := 127, kind := .copy 0, dst := 0x80000#64, src := 0x40000#64, x0 := 64#64 }
    let b : FeedOp := { o with kind := .bind 1 none }
    let s (o : FeedOp) : State := { mapped (oneG 0 []) with galleys := [(0, { tlbTo 0 with feeder := [(0, o)] })] }
    let p : PlatenOp := { ctx := 1, epoch := 0, pc := 0, tok := 127, kind := .mclr 3, platecfg := 0xF0000#64 }
    let c : CondOp := { ctx := 1, epoch := 0, pc := 0, kind := .map 7 0 0, mask := 0xFFFF#16, fpctl := 0#64 }
    Map.find ((s o).galley 0).feeder 0 = some o ∧ ((s o).ctx 1).epoch = 0 ∧ ((s o).ctx 1).mapped 127 = none ∧ o.abort = false ∧
    o.x7.getLsbD 63 = false ∧ ((s o).feedRun o.agent o.args (modeOf o.fpctl)).miss = none ∧
    (s { b with got := some (some { kind := .colophon }) }).bindValid b 1 none = false ∧
    (requestOf 0#512).isSome = true ∧ ((s b).feedRun b.agent ((requestOf 0#512).getD b.args) (modeOf 0#64)).miss = none ∧
    (let k : State := { oneG 0 [] with cores := [(0, { platenQ := [p], condQ := [c] })] }
     (k.core 0).platenQ = p :: [] ∧ p.started = false ∧ p.tok ≠ 0 ∧ (k.core 0).condQ = c :: [] ∧ c.started = false ∧
     (k.ctx c.ctx).epoch = c.epoch ∧ c.kind.vdest = none ∧
     (match k.condResult { c with started := true } with
       | some (_, _, _, fls) => decide (enabledFlags c.fpctl (fls.foldl (fun a f => a ||| f) 0#5) = 0#5) | none => false) = true ∧
     (CondKind.mom 31 7 0).vdest = some 31) ∧
    (let r : RepOp := { ctx := 1, epoch := 0, job := 0, prog := 0, tok := 127, descr := leBytes 128 1 }
     let k : State := { tabled (oneG 0 []) with
       pkgs := [(0, { groups := [(1, { members := [0], queue := [r] })] })] }
     (k.heads 1).length = (k.ranks 1).length ∧ k.heads 1 = [r] ∧ r.agrees r = true ∧ r.cancel = false ∧
     (k.ranks 1)[0]? = some 0 ∧ (k.group 0 1).queue = r :: [] ∧ (match k.gathered r with | .inr _ => true | _ => false) = true) := by decide +kernel
/-- An operation of context 1 in feeder slot 0 of galley 0. -/
def fed (o : FeedOp) : State := { mapped (oneG 0 []) with galleys := [(0, { tlbTo 0 with feeder := [(0, o)] })] }
/-- A copy of 64 bytes. -/
def copyOne : FeedOp :=
  { ctx := 1, epoch := 0, pc := 0, job := 0, prog := 0, tok := 127, kind := .copy 0, dst := 0x80000#64, src := 0x40000#64, x0 := 64#64 }
/-- A binding to queue 1, that answers in queue 2. -/
def bindOne (got : Option (Option QEntry)) : FeedOp := { copyOne with kind := .bind 1 (some 2), got := got }
/-- Its queues. -/
def boundIn (o : FeedOp) (res : Bool) : State :=
  { fed o with
    queues := [(1, { valid := true, etype := 2#2, cap := 1, producers := [0], consumers := [0], resident := res }),
               (2, { valid := true, etype := 2#2, cap := 1, producers := [0], consumers := [0] })] }
/-- EngineEvents: copies and bindings of each kind. -/
theorem witness_EngineEvents_feeders :
    let run (o : FeedOp) := (fed o).feedRun o.agent o.args (modeOf o.fpctl)
    let data : QEntry := { payload := BitVec.ofNat 512 (0x80000 * 2 ^ 64 + 0x40000 * 2 ^ 128 + 64 * 2 ^ 192) }
    Map.find ((fed copyOne).galley 1).feeder 0 = none ∧ Map.find ((fed copyOne).galley 0).feeder 0 = some copyOne ∧
    ((fed copyOne).ctx 1).epoch = 0 ∧ ((fed copyOne).ctx 1).mapped 127 = none ∧
    copyOne.x7.getLsbD 63 = false ∧ copyOne.abort = false ∧ (run copyOne).miss = none ∧
    (run { copyOne with dst := 0x40000000#64 }).miss.isSome = true ∧ { copyOne with abort := true }.abort = true ∧
    (match (fed copyOne).boundTo copyOne.agent 0xE000000000000000#64 with | .code _ => true | _ => false) = true ∧
    (bindOne (some none)).got = some none ∧ (boundIn (bindOne none) true).bindValid (bindOne none) 1 (some 2) = true ∧
    (boundIn (bindOne none) true).bindValid (bindOne none) 2 (some 9) = false ∧ ((boundIn (bindOne none) false).queue 1).resident = false ∧
    ((boundIn (bindOne none) true).queue 2).etype = 2#2 ∧ ((boundIn (bindOne none) true).queue 2).ring = 0 ∧
    ((boundIn (bindOne none) true).queue 2).entries.length < ((boundIn (bindOne none) true).queue 2).cap ∧
    { (bindOne none) with last := true }.last = true ∧ ({ kind := .colophon } : QEntry).kind = .colophon ∧
    ({ poison := true } : QEntry).kind = .data ∧ (requestOf 9#512).isNone = true ∧
    (match requestOf data.payload with
      | some r => decide (((boundIn (bindOne (some (some data))) true).feedRun copyOne.agent r (modeOf 0#64)).miss = none) | none => false) = true := by
  decide +kernel
/-- A platen operation of context 1. -/
def platenOf (k : PlatenKind) (started : Bool) : PlatenOp :=
  { ctx := 1, epoch := 0, pc := 0, tok := 127, kind := k, platecfg := 0xF0000#64, started := started }
/-- It is the head of the queue of core 0. -/
def plateHolds (o : PlatenOp) : State := { oneG 0 [] with cores := [(0, { platenQ := [o], accPoison := [1] })] }
/-- EngineEvents: platen operations of each kind, waiting and started. -/
theorem witness_EngineEvents_platens :
    (State.reset.core 0).platenQ = [] ∧ ((plateHolds (platenOf .mma false)).core 0).platenQ = [platenOf .mma false] ∧
    (platenOf .mma false).started = false ∧ (platenOf .mma true).started = true ∧ (platenOf .mma true).tok ≠ 0 ∧
    { platenOf (.mclr 3) true with tok := 0 }.tok = 0 ∧ ((plateHolds (platenOf .mma true)).ctx 1).epoch = 0 ∧
    ((plateHolds (platenOf .mma true)).ctx 1).mapped 127 = none ∧ (platenOf .mma true).code = 0 ∧
    { platenOf .mma true with code := -3 }.code ≠ 0 ∧
    ((plateHolds (platenOf (.mdrain 1 0 true 0) true)).core 0).accPoison.contains 1 = true ∧
    ((plateHolds (platenOf (.mdrain 0 0 false 0) true)).core 0).accPoison.contains 0 = false ∧
    [PlatenKind.mma, .mclr 3, .mdrain 1 0 true 0, .mdrain 0 0 false 0, .plld 0 0 1024, .msort 0 0x10000 2 0].all
      (fun k => (plateHolds (platenOf k true)).platenMayEnd 0 && (plateHolds (platenOf k false)).platenMayStart 0) = true := by decide +kernel
/-- A condenser operation of context 1. -/
def condOf (k : CondKind) (started : Bool) : CondOp :=
  { ctx := 1, epoch := 0, pc := 0, kind := k, mask := 0xFFFF#16, fpctl := 0#64, started := started }
/-- It is the head of the queue of core 0, and message 7 is what a DLD has sent. -/
def condHolds (o : CondOp) : State :=
  { inNet (oneG 0 []) { msgOne .load with dest := .dist 7 0xFFFF#16 0 } with cores := [(0, { condQ := [o] })] }
/-- EngineEvents: condenser operations of each kind, waiting and started. -/
theorem witness_EngineEvents_condensers :
    (State.reset.core 0).condQ = [] ∧ ((condHolds (condOf (.st 0) false)).core 0).condQ = [condOf (.st 0) false] ∧
    (condOf (.st 0) false).started = false ∧ (condOf (.st 0) true).started = true ∧
    ((condHolds (condOf (.st 0) false)).ctx 1).epoch = (condOf (.st 0) false).epoch ∧ (condOf (.st 0) false).mask ≠ 0#16 ∧
    (condOf (.map 7 0 0) false).kind ≠ .ld 7 0 ∧ (condOf (.map 7 0 0) false).kind ≠ .st 0 ∧
    (let o := { condOf (.ld 7 0) true with msg := 7 }
     let m : Msg := { msgOne .load with dest := .dist 7 0xFFFF#16 0 }
     (condHolds o).message o.msg = some m ∧ m.refusal = none ∧ (condHolds o).live m = true ∧ m.drop = false ∧ m.kind = .load) ∧
    (CondKind.map 7 0 0).vdest = none ∧ (CondKind.mom 31 7 0).vdest = some 31 ∧
    (match (condHolds (condOf (.dirac 7 0 0) true)).condResult (condOf (.dirac 7 0 0) true) with
      | some (_, _, _, fls) => decide (enabledFlags 0#64 (fls.foldl (fun a f => a ||| f) 0#5) = 0#5) | none => false) = true ∧
    (let o := { condOf (.aff 7 0 0x40000000#512 0#512) true with fpctl := 0x1FF#64, srcA := { img := BitVec.ofNat 6144 (0x7F7FFFFF + 2 ^ 4096 * 0x8000) } }
     match (condHolds o).condResult o with
      | some (_, _, _, fls) => decide (enabledFlags 0x1FF#64 (fls.foldl (fun a f => a ||| f) 0#5) ≠ 0#5) | none => false) = true ∧
    (condOf (.mom 31 7 0) true).abort = false ∧ { condOf (.mom 31 7 0) true with abort := true }.abort = true ∧
    (({ condHolds (condOf (.mom 31 7 0) true) with cores := [(0, { v := [(63, { st := .pending })] })] } : State).vReg 1 31).st = .pending := by
  decide +kernel
/-- A repartition of no records of context 1. -/
def repOf (n : Nat) : RepOp := { ctx := 1, epoch := 0, job := 0, prog := 0, tok := 127, descr := leBytes 128 n }
/-- Group 1 of packages 0 and 1, their operations at the head. -/
def grouped (a b : List RepOp) : State :=
  { tabled (oneG 0 []) with
    jobs := [(0, 0x10000), (65536, 0x10000)]
    mem := (tabled State.reset).mem ++ (tabled State.reset).mem.map (fun e => (physKey 1 e.1, e.2))
    pkgs := [(0, { groups := [(1, { members := [0, 1], queue := a })] }), (1, { groups := [(1, { members := [0, 1], queue := b })] })] }
/-- EngineEvents: groups that have issued in part and whole, that agree and do not. -/
theorem witness_EngineEvents_repartitions :
    let o := repOf 1
    let far : RepOp := { o with ctx := 65537 }
    let s := grouped [o] [far]
    let ended (x : RepOp) : Bool := match s.gathered x with | .inr _ => true | _ => false
    (grouped [o] []).heads 1 = [o] ∧ ((grouped [o] []).heads 1).length ≠ ((grouped [o] []).ranks 1).length ∧ State.reset.ranks 1 = [] ∧
    s.heads 1 = [o, far] ∧ (s.heads 1).length = (s.ranks 1).length ∧ ended o = true ∧ ended far = true ∧ o.agrees o = true ∧ o.agrees far = true ∧
    o.agrees { far with descr := (leBytes 128 1).set 4 1 } = false ∧ s.statMiss o = none ∧ s.statMiss far = none ∧ o.cancel = false ∧
    { o with cancel := true }.cancel = true ∧ o.keyAt = 0 ∧ { o with descr := leBytes 128 (1 + 0xFFFF * 2 ^ 832) }.keyAt = 0xFFFF ∧
    (s.ranks 1)[2]? = none ∧ (s.ranks 1)[1]? = some 1 ∧ ((grouped [o] []).group 1 1).queue = [] ∧ (s.group 0 1).queue = [o] ∧
    s.pkgs.Pairwise (fun a b => a.1 < b.1) ∧ (s.ctx 1).epoch = 0 ∧ (s.ctx 1).mapped 127 = none := by decide +kernel
/-- An image of one program whose code is a NOP (R319, R320): a header, the program's record, four bytes of code. -/
def imgOne : List Byte :=
  leBytes 4 0x464D4B53 ++ leBytes 4 1 ++ leBytes 4 1 ++ leBytes 12 0 ++ leBytes 4 64 ++ leBytes 4 64 ++ leBytes 4 64 ++ leBytes 4 64 ++
  leBytes 4 132 ++ leBytes 20 0 ++
  leBytes 4 128 ++ leBytes 4 4 ++ leBytes 4 128 ++ leBytes 8 0 ++ leBytes 2 1 ++ leBytes 2 0 ++ leBytes 8 8 ++ leBytes 16 0 ++
  leBytes 4 0xFFFFFFFF ++ leBytes 12 0 ++ [0x03#8, 0, 0, 0xF8]
/-- The program it holds. -/
def progOne : ProgImage :=
  { code := [0x03#8, 0, 0, 0xF8], data := [], entry := 0, instances := 1, pinned := false, platen := false, condenser := false
    gwin := 8, vwin := 0, dwin := 0, group := 0, trapOff := none, folios := [] }
/-- What it says. -/
def formeOne : FormeImage := { programs := [progOne], queues := [], relocs := [] }
/-- The plan for it. -/
def planOne : FormePlan :=
  { forme := 1, job := 1, run := 1, codeAt := [0x1000#64], dataAt := [0], codePhys := [0x1000], dataPhys := [0], places := [], handles := []
    homes := [], rings := [], root := 0x10000, tables := [], quiesceAt := 0x2000#64, statusQ := 0, packages := [0], gang := none, slugs := []
    services := [], clash := none }
/-- R319, R320: the image's bytes say what it holds; one byte changed in the magic, a zero field, the code's length or the entry and it is
malformed (R324). -/
theorem test_image_bytes :
    parseImage imgOne = some formeOne ∧ parseImage (imgOne.take 131) = none ∧ parseImage (imgOne.set 0 0) = none ∧
    parseImage (imgOne.set 44 1) = none ∧ parseImage (imgOne.set 68 5) = none ∧ parseImage (imgOne.set 80 4) = none ∧
    parseImage (imgOne.set 91 1) = none := by decide +kernel
/-- FormeEvents: an image that is malformed and one the plan places; graphs that are refused; a gang that is ready and one that is not. -/
theorem witness_FormeEvents :
    parseImage [] = none ∧ parseImage imgOne = some formeOne ∧ (State.reset.pkg 0).impose = [] ∧
    State.reset.rejection formeOne (State.reset.homed formeOne planOne) = none ∧
    (State.reset.rejection { formeOne with queues := [{ etype := 3#2, cap := 1, flow := 0, producers := [0], consumers := [0], ncons := 1 }] }
      planOne).isSome = true ∧
    (State.reset.rejection formeOne { planOne with clash := some (0, 0) }).isSome = true ∧
    (State.reset.forme 1).loaded = false ∧ planOne.packages = [0] ∧ planOne.slugs = [] ∧ wfMem State.reset ∧
    (let l : Slug := { dw2 := 0x0000000100000000#64 }
     let f : Forme := { loaded := true, gang := some 5#64, packages := [0], ready := [0], pending := [(0, l)] }
     let s : State := { queued State.reset 3#2 with formes := [(1, f)] }
     (s.forme 1).gang = some 5#64 ∧ s.holdsBack 1 = none ∧ ({ s with formes := [(1, { f with ready := [] })] } : State).holdsBack 1 = some 0 ∧
     (s.forme 1).loaded = true ∧ (s.forme 1).started.contains 0 = false ∧
     (s.forme 1).pending.filter (fun e => e.1 == 0) = [(0, l)] ∧ (s.level (progKey l.program)).state ≠ 4 ∧ (s.queue 1).valid = true ∧
     (s.queue 1).closed = false ∧ (s.queue 1).waitPush = [] ∧ (s.queue 1).waitPop = [] ∧ (s.queue 1).entries.length < (s.queue 1).cap ∧
     (s.queue 1).coloph.contains (l.program.setWidth 16) = false) := by decide +kernel
/-- FormeEvents: a quiesce word that is mapped and one that is not; a mark that has been taken and one that has not, an instance that runs; a
program that declares the same and one that does not. -/
theorem witness_FormeEvents_replacement :
    let g : NewProgram := { prog := progOne, inputs := [(1, 3#2, 1)], outputs := [] }
    let x : Program := { instances := 1, inputs := [1], quiesced := some 5#32 }
    let q : Queue := { valid := true, etype := 3#2, cap := 1, producers := [0], consumers := [0], marked := [(0, 5#32)] }
    let s : State := { tabled State.reset with
      formes := [(0, { packages := [0], quiesceAt := 0x3FFFFFF8#64 })], programs := [(0, x)], queues := [(1, q)] }
    (s.walkCell 0 0 0x3FFFFFF8).isSome = true ∧ State.reset.walkCell 0 0 0 = none ∧ wfMem s ∧
    (s.program 0).quiesced = some 5#32 ∧ s.markReached 0 5#32 = true ∧ s.suspended 0#32 = true ∧ s.replaceable 0 g = true ∧
    s.replaceable 0 { g with outputs := [(1, 3#2, 1)] } = false ∧
    ({ s with queues := [(1, { q with marked := [] })] } : State).markReached 0 5#32 = false ∧
    ({ s with ctxs := [(1, ctxOne 0)] } : State).suspended 0#32 = false := by decide +kernel
/-- HostEvents: the HDM range inside and outside, the bound job's queues as producer and consumer, records of each form. -/
theorem witness_HostEvents :
    let q : Queue := { valid := true, cap := 1, producers := [0xFFFE], consumers := [0xFFFE], entries := [] }
    let s : State := { tabled State.reset with jobs := [(1, 0x10000)], pkgs := [(0, { hjob := 1#16 })], queues := [(65537, q)] }
    let with_ (x : Queue) : State := { s with queues := [(65537, x)] }
    s.hostCells 0 64 8 .load = some [(64, 8)] ∧ s.hostCells 0 64 8 .store = some [(64, 8)] ∧ s.hostCells 0 (2 ^ 30) 8 .load = none ∧
    wfMem s ∧ (hdmSize - 8) + 8 ≤ hdmSize ∧ hdmSize < (hdmSize - 7) + 8 ∧ s.hostQueue 0 1 = some 65537 ∧ s.hostQueue 0 2 = none ∧
    s.hostInFlight 0 < 256 ∧ (s.queue 65537).producers.contains 0xFFFE#16 = true ∧ (s.queue 65537).resident = true ∧
    (with_ { q with closed := true }).meet 65537 0xFFFE#16 = .closed ∧ (with_ { q with ended := true }).meet 65537 0xFFFE#16 = .ended ∧
    s.meet 65537 0xFFFE#16 = .nothing ∧ (with_ { q with entries := [{}] }).meet 65537 0xFFFE#16 = .entry 0 {} ∧
    (with_ { q with entries := [{ kind := .mark 0 false }] }).meet 65537 0xFFFE#16 = .entry 0 { kind := .mark 0 false } ∧
    (s.pkg 0).hjob ≠ 0#16 ∧ (State.reset.pkg 0).hjob = 0#16 ∧
    (let req : List Byte := leBytes 64 8
     req.length = 64 ∧ recNat req 0 8 % 8 = 0 ∧ recNat req 24 8 % 8 = 0 ∧ zeroFrom req 32 = true ∧ zeroFrom req 24 = true ∧
     zeroFrom req 56 = true ∧ recNat req 48 8 % 64 = 0 ∧ tableFull (s.pkg 0).waiters 1 8 = false ∧ (s.hostCells 0 8 8 .load).isSome = true ∧
     leNat (s.hostRead ((s.hostCells 0 8 8 .load).getD [])) = recNat req 8 8 ∧ recNat (leBytes 64 4) 0 8 % 8 ≠ 0 ∧
     leNat (s.hostRead ((s.hostCells 0 8 8 .load).getD [])) ≠ recNat (leBytes 64 (8 + 2 ^ 64)) 8 8) := by decide +kernel
/-- HostEvents: the host's 256 pushes under way, and fewer. -/
theorem witness_HostEvents_full :
    256 ≤ ({ State.reset with net := List.replicate 256 { id := 0, src := hostCtx 0, kind := .store } } : State).hostInFlight 0 ∧
    State.reset.hostInFlight 0 < 256 := by decide +kernel
/-- HostEvents: a wait table that is full. -/
theorem witness_HostEvents_table (w : Waiter) : tableFull (List.replicate 262144 w) 1 8 = true := by
  unfold tableFull
  rw [List.length_replicate]
  rfl
/-- BootEvents: before, within and at the last attempt of a step; a step the fused minimum does not concern. -/
theorem witness_BootEvents :
    let x : Pkg := { booting := true, bootStep := 9, tries := 2 }
    (State.reset.pkg 0).booting = false ∧ x.booting = true ∧ x.bootStep ≠ 2 ∧ x.bootStep ≠ 1 ∧ ¬x.tries < 2 ∧ 2 ≤ x.tries ∧
    x.skips 10 = false ∧ ({ x with tries := 1 } : Pkg).tries < 2 ∧ 10 ≤ ({ x with bootStep := 10 } : Pkg).bootStep ∧
    ({ x with boot := { steps := [(10, { outcome := 1 })] }, inputs := List.replicate 10 0#384 } : Pkg).skips 10 = true ∧
    needsAlternate 5 [(0, 1)] = false ∧ needsAlternate 5 [(0, 1), (0, 2)] = true ∧ failedIn [(0, 1), (0, 2)] 0 = 2 ∧ needsAlternate 6 [(3, 0)] = true ∧
    needsAlternate 9 [] = false ∧ ({ x with bootStep := 1, tries := 0 } : Pkg).bootStep = 1 := by decide +kernel
/-- BootEvents: an image that step 2 accepts, its root key, its signature and its version good. -/
theorem witness_BootEvents_image (f : Config.Firmware) (r : Config.sha384 (leBytes 96 f.root.toNat) = Config.rootDigest) (c : f.chain = [])
    (g : Config.ecdsaVerify f.root f.digest f.sig = true) : ({} : Pkg).accepts f = true := by
  simp [Pkg.accepts, r, c, g, chainKey, BitVec.ult]
/-- LeadershipAndPod. -/
theorem witness_LeadershipAndPod :
    beats (1#64, 0#64) (0#64, 5#64) = true ∧ beats (1#64, 5#64) (1#64, 4#64) = false ∧ (State.reset.pkg 0).lead.leads = false ∧
    (State.reset.pkg 0).lead.listening = false ∧ ({ listening := true } : Leadership).heard = false ∧
    (State.reset.pkg 0).lead.seen.contains (msgCandidacy, 1#64, 1#64) = false ∧ (State.reset.pkg 0).lead.done.find? (fun e => e.1 == 0#384) = none ∧
    keyRequestOk { base := 0, len := 1, job := 0, read := true, write := false } = true ∧
    keyRequestOk { base := 1, len := 1, job := 0, read := true, write := false } = false ∧ freeKeys [] (fun _ => false) 65536 = some 0 ∧
    freeKeys [(0, { flags := 1#16 })] (fun _ => false) 65536 = none ∧ freeKeys [(0, { flags := 1#16 })] (fun _ => false) 1 = some 1 ∧
    freeKeys [(0, { region := 3 })] (fun r => r == 3) 1 = some 1 ∧ (State.reset.pkg 0).groups = [] ∧
    (List.range 64).eraseDups.length = 64 ∧ parseImage imgOne = some formeOne ∧ (State.reset.pkg 0).timed = false := by decide +kernel
/-- A package that follows the leader of round 4 and serial 9, and one that leads. -/
def follower : Leadership := { leader := some (4#64, 9#64), best := (4#64, 9#64), forwarded := [(4#64, 9#64, 6)] }
/-- LeadershipAndPod: a follower, and what it has heard. -/
theorem witness_LeadershipAndPod_leads :
    follower.leader = some (4#64, 9#64) ∧ follower.leader ≠ some (4#64, 8#64) ∧ follower.leads = false ∧
    follower.knows 4 9 6 = true ∧ follower.knows 4 9 7 = false ∧ follower.listening = false ∧ { follower with listening := true }.listening = true ∧
    { follower with leads := true }.leads = true ∧ { follower with announced := true }.announced = true ∧ follower.withdrawn = false ∧
    { follower with withdrawn := true }.withdrawn = true ∧ { follower with heard := true }.heard = true ∧
    { follower with seen := [(msgCandidacy, 1#64, 1#64)] }.seen.contains (msgCandidacy, 1#64, 1#64) = true ∧
    beats (5#64, 0#64) follower.best = true ∧ beats follower.best (4#64, 10#64) = true ∧ beats follower.best (4#64, 9#64) = false := by
  decide +kernel
/-- A package that follows and has a region of one key. -/
def podOne : State :=
  { State.reset with pkgs := [(0, { lead := follower, keys := [(3, { base := 0, len := 64, job := 0, flags := 1#16, region := 3 })] })] }
/-- LeadershipAndPod: regions held and not, and a command obeyed. -/
theorem witness_LeadershipAndPod_pod :
    ((podOne.pkg 0).keys.filter (fun x => x.2.region == 3)).length ≠ 0 ∧ ((podOne.pkg 0).keys.filter (fun x => x.2.region == 4)).length = 0 ∧
    podOne.regionHeld 0 3 = false ∧
    (inNet podOne { id := 1, src := 1, kind := .load, parts := [{ addr := 0, loc := .accepted 3 0, size := 8 }] }).regionHeld 0 3 = true ∧
    (podOne.pkg 0).groups.length < 256 ∧ Map.find (podOne.pkg 0).groups 1 = none ∧ 0 ∈ [0, 1] ∧ [0, 1].eraseDups.length = 2 ∧
    (podOne.pkg 0).lead.leader = some (4#64, 9#64) ∧ (podOne.forme planOne.forme).loaded = false ∧ planOne.packages = [0] ∧
    (podOne.pkg 0).impose = [] ∧ podOne.rejection formeOne (podOne.homed formeOne planOne) = none ∧ (podOne.pkg 0).timed = false ∧
    (podOne.pkg 0).lead.done = [] ∧ ({ timed := true } : Pkg).timed = true := by decide +kernel
/-- LeadershipAndPod: commands done and not. -/
theorem witness_LeadershipAndPod_digests (digest : BitVec 384) (s : State) (h : (s.pkg 0).impose = []) :
    ([(digest, 3, 1)] : List (BitVec 384 × Nat × Nat)).find? (fun x => x.1 == digest) = some (digest, 3, 1) ∧
    [(digest, 3, 1)].any (fun x => x.1 == digest) = true ∧ ([] : List (BitVec 384 × Nat × Nat)).find? (fun x => x.1 == digest) = none ∧
    s.placed 0 digest formeOne planOne = s.homed formeOne planOne := by simp [State.placed, h]
/-- FabricAndPowerEvents: flits that arrive and go on, by their check; waits at both sides of the bound; a record that is and is not in order. -/
theorem witness_FabricAndPowerEvents :
    (arrivedAt 0 0#160 = true ∧ arrivedAt 1 0#160 = false ∧ productive 1 0#160 = [1] ∧ beyond 1 1 ≠ 1) ∧ (31 < 32 ∧ ¬32 < 32) ∧
    ({ dest := 0, flits := [0#160], crcOk := true, detoured := false, msg := none } : Packet).dest = 0 ∧
    (let s : State := { State.reset with pkgs := [(0, { lead := { dims := (2, 1, 1), coords := [(0, 0, 0), (1, 0, 0)] } })] }
     (s.chooseLink 0 { dest := 1, flits := [0#160], crcOk := true, detoured := false, msg := none }).isSome = true) ∧
    (let rcd := leBytes 64 (1 + 1 * 2 ^ 32 + 1000 * 2 ^ 128)
     rcd.length = 64 ∧ recNat rcd 0 4 = 1 ∧ recNat rcd 4 4 = 1 ∧ recNat rcd 16 4 = 1000 ∧ zeroFrom rcd 20 = true) ∧
    (1760000 < 1760001 ∧ ¬1760000 < 1760000) ∧ (State.reset.pkg 0).clkStep < 12 := by decide +kernel
/-- A flit whose header has the check c. -/
def flitWith (c : BitVec 4) : BitVec 160 := 0#28 ++ c ++ 0#128
/-- FabricAndPowerEvents: flits with a check that is good and one that is not. -/
theorem witness_FabricAndPowerEvents_flits :
    flitOk (flitWith (Config.crc4 0)) = true ∧ flitOk (flitWith (~~~Config.crc4 0)) = false ∧ ∀ c,
      arrivedAt 0 (flitWith c) = true ∧ arrivedAt 1 (flitWith c) = false ∧ productive 1 (flitWith c) = [1] ∧ beyond 1 1 ≠ 1 := by
  have h : ∀ c : BitVec 4, (flitWith c).extractLsb' 132 28 = 0#28 ∧ (flitWith c).extractLsb' 128 4 = c ∧ (c == ~~~c) = false := by decide +kernel
  refine ⟨?_, ?_, by decide +kernel⟩ <;> simp [flitOk, h]
/-- FabricAndPowerEvents: links with a package beyond and none; routers that have waited. -/
theorem witness_FabricAndPowerEvents_links :
    let s : State := { State.reset with pkgs := [(0, { lead := { dims := (2, 1, 1), coords := [(0, 0, 0), (1, 0, 0)] } })] }
    let k : Packet := { dest := 1, flits := [0#160], crcOk := true, detoured := false, msg := none }
    (s.pkg 0).lead.beyond 0 0 = some 1 ∧ (State.reset.pkg 0).lead.beyond 0 0 = none ∧ k.dest ≠ 0 ∧ ((s.acknowledge 0 0 k).chooseLink 0 k).isSome = true ∧
    (State.reset.acknowledge 0 0 { k with dest := 0 }).chooseLink 0 { k with dest := 0 } = none ∧
    (let r : Router := { inputs := [(0, 0#160)], sent := [(5, [0#160])], waited := 32 }
     r.waited ≥ 32 ∧ ({ waited := 31 } : Router).waited < 32 ∧ Map.find r.sent 5 = some [0#160]) := by decide +kernel
/-- FabricAndPowerEvents: allotments, and calm samples at both sides of ten. -/
theorem witness_FabricAndPowerEvents_power :
    let x : Pkg := { calm := 10, allots := [(1, { limit := 5, used := 4, next := none })] }
    x.allots = [(1, { limit := 5, used := 4, next := none })] ∧ ({ next := some (9, 1000) } : Allot).next = some (9, 1000) ∧ 10 ≤ x.calm ∧
    ({ calm := 9 } : Pkg).calm < 10 ∧ (1699999 < 1700000 ∧ ¬1700000 < 1700000) ∧
    (({ State.reset with formes := [(1, { loaded := true })] } : State).forme 1).loaded = true := by decide +kernel
/-- RecordEvents: requests good and bad (the last galley and the first of none, a compute die and the IOD), a result queue and none; a trace that
waits and one that runs; a dump. -/
theorem witness_RecordEvents :
    traceOk 0 (leBytes 64 15) = true ∧ traceOk 0 (leBytes 64 16) = false ∧ traceOk 3 (leBytes 64 1) = true ∧ traceOk 4 (leBytes 64 1) = false ∧
    (let y : Trace := { rcd := leBytes 64 0, running := true }
     let s : State := { State.reset with dies := [(0, { traces := [y] })], pkgs := [(0, { dump := some (5#64, true, 0) })] }
     (s.die 0).traces = y :: [] ∧ wfMem s ∧ (s.queue (recNat y.rcd 40 2)).valid = false ∧
     (let q := ({ s with queues := [(0, { valid := true, etype := 2#2, cap := 1 })] } : State).queue (recNat y.rcd 40 2)
      q.valid = true ∧ q.closed = false ∧ q.coloph.contains 0xFFFF#16 = false ∧ q.waitPush = [] ∧ q.waitPop = [] ∧ q.entries.length < q.cap ∧
      q.etype ≠ 3#2) ∧
     (s.pkg 0).dump = some (5#64, true, 0) ∧ ({ y with running := false } : Trace).running = false) := by
  decide +kernel
/-- A storage record of operation op, cq 1, one block at 0x40000. -/
def storageRec (op : Nat) : List Byte :=
  leBytes 64 (op + 1 * 2 ^ 80 + (if op = 2 then 0 else 1) * 2 ^ 192 + 0x40000 * 2 ^ 256)
/-- A package with a target and a completion queue of job 1. -/
def storageOne : State :=
  { tabled State.reset with
    jobs := [(1, 0x10000)]
    pkgs := [(0, { targets := [(0, { job := 1 })] })]
    galleys := [(64, { tlb := [{ space := 1, base := 0, size := 2 ^ 30, leaf := 0xF000000000000000#64 }] })]
    queues := [(65537, { valid := true, etype := 2#2, cap := 1, producers := [0xFFFF], consumers := [0] })] }
/-- StorageAndEditionEvents: a job whose request queue the model is given, with a record in it and with none; a record kept; a job without one. -/
theorem witness_ServiceTakes :
    let r := leBytes 64 7
    let e : QEntry := { payload := 7#512 }
    let q : Queue := { valid := true, etype := 2#2, cap := 1, producers := [0], consumers := [0xFFFF], entries := [e] }
    let s : State := { State.reset with pkgs := [(0, { services := [(4, 1)] })], queues := [(65537, q)] }
    (s.pkg 0).taken.contains (1, r) = false ∧ Map.find (s.pkg 0).services 4 = some 1 ∧ Map.find (s.pkg 0).services 8 = none ∧
    s.meet 65537 0xFFFF#16 = .entry 0 e ∧ e.bytes = r ∧ e.bytes ≠ leBytes 64 8 ∧ (s.queue 65537).waitPush = [] ∧ (s.queue 65537).waitPop = [] ∧
    ({ s with queues := [(65537, { q with entries := [] })] } : State).meet 65537 0xFFFF#16 = .nothing ∧
    (s.svcTake 0 1 0 r).isSome = true ∧ s.svcTake 0 1 0 (leBytes 64 8) = none ∧
    (({ State.reset with pkgs := [(0, { taken := [(1, r)] })] } : State).pkg 0).taken.contains (1, r) = true := by decide +kernel
/-- StorageAndEditionEvents: storage. -/
theorem witness_StorageEvents :
    let s := storageOne
    (s.svcQueue 1 1 = true ∧ (s.queue 65537).resident = true ∧ (s.queue 65537).entries.length < (s.queue 65537).cap) ∧
    s.reqRefused 0 1 0 (storageRec 0) = none ∧ s.reqRefused 0 1 1 (storageRec 1) = none ∧ s.reqRefused 0 1 2 (storageRec 2) = none ∧
    s.reqRefused 0 1 0 (storageRec 1) = some (-7) ∧ s.reqRefused 0 2 0 (storageRec 0) = some (-2) ∧
    s.rangeStatus 0 1 3 (storageRec 0) ≠ 0 ∧
    s.rangeStatus 0 1 3 (leBytes 64 (3 + 1 * 2 ^ 80 + 128 * 2 ^ 192 + 0x40000000 * 2 ^ 256)) = 0 ∧
    s.rangeStatus 0 1 4 (leBytes 64 (4 + 1 * 2 ^ 80 + 128 * 2 ^ 192 + 0x40000000 * 2 ^ 256)) = 0 ∧
    s.granuleUsed 0 1 0x4000 = false ∧ s.granuleUsed 0 1 4 = true ∧
    reqBlocks (storageRec 0) ≤ 2097152 / 512 ∧ (s.writeBuffer 0 1 (storageRec 1)).2.miss = none ∧ (s.writeBuffer 0 1 (storageRec 1)).2.stop = none ∧
    s.svcTake 0 1 0 (storageRec 0) = some s ∧
    (State.writeBuffer { s with galleys := [], jobs := [] } 0 1 (storageRec 1)).2.miss.isSome = true ∧
    controllers [(0, { job := 1, ctrl := 3 }), (1, { job := 1, ctrl := 3 })] false = [3] ∧
    (let y : StorageReq := { job := 1, rcd := storageRec 0 }
     Map.find [(0, y)] 0 = some y ∧ y.fill = none ∧ s.jobCancelled 1 = false ∧ (s.readWrites 0 y []).miss = none ∧ (s.readWrites 0 y []).stop = none) := by
  decide +kernel
/-- StorageAndEditionEvents: editions. A manifest's signature and a shard's digest are opaque: a load that begins is witnessed below with its
signature as a premise, and that a shard is good is the premise itself. -/
theorem witness_EditionEvents :
    let r : List Byte := leBytes 64 (1 + 0x50000 * 2 ^ 192 + 1 * 2 ^ 320)
    let desc := loadKey 1 r
    let h : Shard := { idx := 0, at_ := 0, len := 64 }
    let x : EditionLoad := { job := 1, rcd := r, bufAt := 0x80000, stage := 1, flight := [h] }
    let s : State := { storageOne with pkgs := [(0, { editions := [x], oldSlots := [] })] }
    storageOne.svcTake 0 1 1 r = some storageOne ∧ descAddr desc = 0x50000 ∧ loadQueue r = 1 ∧ s.loadOf 0 desc = some x ∧
    storageOne.loadOf 0 desc = none ∧
    storageOne.loadNext 0 x = .fail (-7) [] ∧ s.jobCancelled 1 = false ∧ x.shard 0 = some h ∧ h.fetched = false ∧ s.shardGood 0 x h false [] = false ∧
    1 ≤ h.attempts ∧ h.attempts < 4 ∧ x.flight = [h] ∧ manCount x.man ≤ x.next ∧
    ({ s with shadows := [{ pkg := 0, job := 1, base := 0x80000, len := 65536 }] } : State).shadowAt 0 1 0x80000 ≠ none ∧
    ({ x with stage := 2 } : EditionLoad).stage = 2 ∧ (s.flipWrites 0 desc { x with man := leBytes 192 0 }).miss = none ∧
    (s.flipWrites 0 desc { x with man := leBytes 192 0 }).stop = none ∧
    (let o : OldSlot := { job := 1, desc := desc, slot := 0 }
     ({ storageOne with pkgs := [(0, { oldSlots := [o] })] } : State).slotIdle 0 o = true) := by decide +kernel
/-- StepRunsDecoded and StepRunsEvent: a slot that has come with an instruction there, an event in the agenda, one outside, and nothing to do. -/
theorem witness_Step :
    let s := State.reset.withFetchWord 32 0x942BDEAD
    enabledFrom s 0 s.agenda = [] ∧ s.inbox = [] ∧ s.sched = [] ∧ s.candidates = 0 :: [] ∧ (s.ctx 0).watchPend = none ∧
    (s.ctx 0).stepPend = none ∧ (s.ctx 0).cancel = none ∧ (s.ctx 0).imps = [] ∧ (s.ctx 0).precise = none ∧ (s.ctx 0).breakpoint = none ∧
    (match s.translate 0 (s.ctx 0).job.toNat (s.ctx 0).pc.toNat .fetch, s.translate 0 (s.ctx 0).job.toNat ((s.ctx 0).pc.toNat + 2) .fetch with
      | .cell k0, .cell k1 => (s.byte (k0 + 1)).getLsbD 7 && !s.poisoned k0 2 && !s.poisoned k1 2
      | _, _ => false) = true ∧
    enabledFrom { State.reset with agenda := [.clockMessage 0 0 0] } 0 [.clockMessage 0 0 0] = [(0, .clockMessage 0 0 0)] ∧
    State.reset.candidates = [] := by decide +kernel
/-- StepRunsDecoded: the halfwords of a word and of a compact form, as the core reads them. -/
theorem witness_Step_halves :
    let half (s : State) (k : Nat) : Half := BitVec.ofNat 16 (leNat (s.readThrough 0 k 2))
    let s := State.reset.withFetchWord 32 0x942BDEAD
    let c := State.reset.withFetchWord 16 0x089D
    (match s.translate 0 (s.ctx 0).job.toNat (s.ctx 0).pc.toNat .fetch, s.translate 0 (s.ctx 0).job.toNat ((s.ctx 0).pc.toNat + 2) .fetch with
      | .cell k0, .cell k1 => decide ((half s k0).getLsbD 15 = true ∧ s.poisoned k0 2 = false ∧ s.poisoned k1 2 = false ∧
          decodeHalves (half s k0) (half s k1) = .ok (.limz 10 3 0xDEAD))
      | _, _ => false) = true ∧
    (match c.translate 0 (c.ctx 0).job.toNat (c.ctx 0).pc.toNat .fetch with
      | .cell k0 => decide ((half c k0).getLsbD 15 = false ∧ decodeHalves (half c k0) 0#16 = .ok (.liC 4 0x1D))
      | _ => false) = true ∧
    s.net.all (fun m => coreOf m.src != 0) = true ∧ (s.ctx 0).pc.toNat + 2 < 2 ^ 54 := by decide +kernel
/-- DecodeEncode: a well-formed instruction that is no event. StepKeepsMemory: memory with a byte, and a step. -/
theorem witness_Whole :
    Instr.wf (.limz 127 3 0xFFFF) = true ∧ encode (.limz 127 3 0xFFFF) ≠ .event ∧ encode (.fcvtS2d 127 127) ≠ .event ∧
    wfMem (State.reset.withFetchWord 32 0x942BDEAD) ∧ wfMem State.reset ∧
    (match step (State.reset.withFetchWord 32 0x942BDEAD) with | .next t => wfMem t | _ => false) = true := by decide +kernel

/-! ## Witnesses of single clauses -/

/-- Loads: an address of a store that is misaligned, and one beyond the local store. -/
theorem witness_Loads_bad :
    (oneG 0 [(3, 4#64)]).canIssue [3] [9] = true ∧ ((oneG 0 [(3, 4#64)]).g 3).toNat % 8 ≠ 0 ∧
    ((oneG 0 [(3, 0x40000#64)]).g 3).toNat % 8 = 0 ∧ 2 ^ 18 ≤ ((oneG 0 [(3, 0x40000#64)]).g 3).toNat := by decide +kernel
/-- VectorIntegerAndCompare: poison in the last lane of v31, active and not. -/
theorem witness_VectorInteger_inactive :
    let s (m : Half) : State := { masked (oneG 0 []) m 0 with cores := [(0, { v := [(63, { poison := 0x8000#16 })] })] }
    31 < (s 0).me.sv ∧ ((s 0).vReg 1 31).st = .present ∧ (s 0).vdstOk 31 = true ∧ ((s 0).core 0).vbusy ≤ ((s 0).core 0).cycle ∧
    ((s 0x7FFF).vReg 1 31).poison &&& (s 0x7FFF).m 1 = 0#16 ∧ ((s 0x8000).vReg 1 31).poison &&& (s 0x8000).m 1 ≠ 0#16 ∧
    ((s 0x8000).vReg 1 30).poison &&& (s 0x8000).m 1 = 0#16 := by decide +kernel
/-- LanesReduceScan: a reduction that meets infinities of both signs, its exception enabled. -/
theorem witness_LanesReduceScan_fpx :
    let s := oneG 0x1FF []
    let xs := (List.range 16).map (fun j => (if j = 0 then 0x7F800000 else if j = 1 then 0xFF800000 else 0x80000000, 0#5))
    let r := reduceTree (fun (u v : Nat × Flags) => ((fmt32.add (modeOf 0#64) u.1 v.1).1, u.2 ||| v.2 ||| (fmt32.add (modeOf 0#64) u.1 v.1).2)) (0, 0#5) xs
    s.canIssueV [31] [31] = true ∧ enabledFlags s.me.ctl.fpctl r.2 ≠ 0#5 := by decide +kernel
/-- VectorMemory: the lowest active element misaligned; no lane active in the interleaved form. -/
theorem witness_VectorMemory_misaligned :
    let s := masked (mapped (oneG 0 [])) 0x8001#16 0
    let u := onMe s (fun x => { x with ox := [(0, 2#64)], masks := [(1, 0x8001#16)] })
    let lanes (s : State) : List Nat := (List.range 16).filter (fun j => (s.m 1).getLsbD j)
    (lanes u).find? (fun l => misaligned (amodeOf (u.me.oxr 1)) 4 (u.gatherEa 0#5 4 l)) = some 0 ∧ u.canIssueV [0] [31] = true ∧
    lanes (masked s 0#16 0) = [] := by decide +kernel
/-- Work: a strand with poison in g7, which its slug carries. -/
theorem witness_Work_poison :
    let s : State := { pooledOne with cores := [(0, { g := [(135, { poison := true })] })] }
    s.quiet 1 = true ∧ [4, 5, 6, 7].find? (fun i => decide (i < s.me.sg) && (s.gReg s.cur i).poison) = some 7 ∧
    [4, 5, 6, 7].find? (fun i => decide (i < pooledOne.me.sg) && (pooledOne.gReg pooledOne.cur i).poison) = none := by decide +kernel
/-- ReadAndWriteRegisters: a target that is none, indexes outside its window, words of a write of presence. -/
theorem witness_ReadAndWriteRegisters_refused :
    let y : Ctx := { cond := .pinned, hold := .chold, win := { gb := 128, gn := 8, vb := 32, vn := 2, db := 0, dn := 0 }, sg := 8, sv := 2 }
    ((other {} []).ctx 2).cond = .empty ∧ xIndexOk .g 8#64 = true ∧ y.xInside .g (xIndex .g 8#64) = false ∧
    xIndexOk .v 2#64 = true ∧ y.xInside .v (xIndex .v 2#64) = false ∧ { y with hold := .none }.hold = .none ∧
    (let w : Word := 0xE000000000000007#64
     let v : Word := 0x8000000000000007#64
     w.getLsbD 63 = true ∧ w.getLsbD 62 = true ∧ w.getLsbD 61 = true ∧ v.getLsbD 63 = true ∧ v.getLsbD 61 = false ∧
     xIndexOk .g (w &&& 0x1FFFFFFFFFFFFFFF#64) = true ∧ y.xInside .g (xIndex .g (w &&& 0x1FFFFFFFFFFFFFFF#64)) = true) ∧
    ({ other y [] with cores := [(0, { g := [(135, { st := .pending })] })] } : State).xPresence .g (xIndex .g 7#64) 2 = .pending := by
  decide +kernel
/-- ReadAndWriteRegisters: in the cycle of a tick and after it; in the cycle in which flags land and after it. -/
theorem witness_ReadAndWriteRegisters_cycles :
    let s : State := { onMe (oneG 0 []) (fun x => { x with late := (0, 1#5) }) with pkgs := [(0, { ticked := (0, [(0, 5)]) })] }
    let u : State := { s with cores := [(0, { cycle := 1 })] }
    s.cycleNow ≤ s.me.late.1 ∧ ¬u.cycleNow ≤ u.me.late.1 ∧ s.cycleNow ≤ (s.pkg 0).ticked.1 ∧ ¬u.cycleNow ≤ (u.pkg 0).ticked.1 ∧
    Map.get (s.pkg 0).ticked.2 0 9 = 5 := by decide +kernel
/-- PlatenIssue: both operands in M8, each at the end of its store. -/
theorem witness_PlatenIssue_m8 :
    let s := onMe platenOne (fun x => { x with
      ctl := { platecfg := 0xF0000#64, fmta := 1#64, fmtb := 1#64, scalea := 0x3FFC0#64, scaleb := 0xF000#64 }, ox := [(0, 15#64), (1, 0x10021#64), (2, 0xFE00#64)] })
    let pb := (s.me.oxr 2).toNat
    s.me.ctl.fmta.getLsbD 0 = true ∧ s.me.ctl.fmtb.getLsbD 0 = true ∧ s.me.ctl.platecfg.getLsbD (16 + (s.me.oxr 1).toNat / 2 ^ 16) = true ∧
    (s.me.oxr 1).toNat < 2 ^ 18 ∧ 15 + 31 * ((s.me.oxr 1).toNat % 2 ^ 16) + 16 ≤ 2 ^ 18 ∧ s.me.ctl.scalea.toNat / 2 % 2 ^ 17 * 2 + 64 ≤ 2 ^ 18 ∧
    pb % 32 = 0 ∧ pb + 16 * 32 ≤ 2 ^ 16 ∧ s.me.ctl.scaleb.toNat / 2 % 2 ^ 15 * 2 + 2 * ((pb + 480) / 32) + 2 ≤ 2 ^ 16 := by decide +kernel
/-- RepartitionAndMigrate: addresses that name each kind of home, and none; a strand that is pinned, a list that is full, a poisoned register. -/
theorem witness_RepartitionAndMigrate_homes :
    let s := mapped (oneG 0 [])
    (match s.genericTarget 1 0 .load (2 * 2 ^ 54) with | .place (.remote _ _) => true | _ => false) = true ∧
    s.genericTarget 1 0 .load (2 ^ 54 + 1 * 2 ^ 32) = .virt (privSpace 1) 0 ∧
    s.genericTarget 1 0 .load (2 ^ 54 + 2 * 2 ^ 32) = .place (.priv 2 0) ∧ s.hasPkg (pkgOf 2) = true ∧
    s.genericTarget 1 0 .load 0x40000 = .virt 0 0x40000 ∧ (0 : Nat) < 65536 ∧ s.translate 0 0 0x40000 .load = .cell 0x40000 ∧
    isBank 0x40000 = false ∧ (banked (oneG 0 [])).translate 0 0 0x40000 .load = .cell 0x8000040000 ∧ isBank 0x8000040000 = true ∧
    (oneG 0 []).me.cond ≠ .pooled ∧ 1 ≠ coreOf (oneG 0 []).cur ∧
    256 ≤ (({ pooledOne with galleys := [(0, { migr := List.replicate 256 (({} : Slug), 0, 0) })] } : State).galley 0).migr.length := by decide +kernel
/-- Distribution: a core of the I/O die. -/
theorem witness_Distribution_away : isService ({ oneG 0 [] with cur := 32769 } : State).cur = true ∧ (0#5).toNat % 2 = 0 := by decide +kernel
/-- AnswersLand: a result for a register that was mapped at its issue. -/
theorem witness_AnswersLand_pushed :
    let long : Msg := { msgOne .result with waits := false, dest := .vals [(.g, 124, 5)], pushes := [(124, 1)] }
    let s := inNet (oneG 0 []) long
    s.message 7 = some long ∧ s.live long = true ∧ long.drop = false ∧ long.watch.watching = false ∧ long.pushTo 124 = some 1 ∧
    long.pushTo 127 = none ∧ long.trap = none ∧ long.waits = false := by decide +kernel
/-- PublishAndWait: a buffer of two pages, no two of its table entries meeting. -/
theorem witness_PublishAndWait_pages :
    let buf : Shadow := { pkg := 0, job := 0, base := 0x40000000, len := 131072 }
    let s := paged (oneG 0 [])
    let u : State := { s with mem := s.mem ++ [(0x4000A, 0x06#8), (0x4000F, 0xF0#8)] }
    (u.pagesOf buf).length = 2 ∧ Memory.wf u.mem = true ∧ entriesOf (u.pagesOf buf) = [0x40000, 0x40100, 0x40008, 0x40108] ∧
    Apart (entriesOf (u.pagesOf buf)) := by unfold Apart; decide +kernel
/-- Paging: a frame that a TLB has still to give up, and one that none has; an entry that the tables do not give. -/
theorem witness_Paging_frames :
    let s := tabled State.reset
    let e : TlbEntry := { space := 0, base := 0x40000000, size := 2 ^ 30, leaf := 0xF000000000000000#64 }
    let u : State := { s with galleys := [(0, { tlb := [e] })], agenda := [.tlbInvalidationAck 0 0 0x4000 0x4000] }
    s.mayUse s 0 0 4 = true ∧ u.mayUse s 0 0 4 = false ∧ s.stale 0 e = true ∧ ∀ q, (s.pkg q).repIn = [] := by
  refine ⟨by decide +kernel, by decide +kernel, by decide +kernel, fun _ => rfl⟩
/-- A rank of context c of the group of `grouped`, past its gathering, with a record of 64 bytes that its key puts into part k. -/
def movedOf (c key base : Nat) : RepOp :=
  { repOf 1 with
    ctx := c, recs := [{ key := key, nan := false, w := 1, bad := false }], reads := [(base, 64, physKey (pkgOf c) base)]
    cells := [(base, 64, physKey (pkgOf c) base), (base + 64, 64, physKey (pkgOf c) (base + 64))]
    descr := leBytes 8 1 ++ leBytes 8 base ++ leBytes 8 1 ++ leBytes 8 64 ++ leBytes 48 0 ++ leBytes 8 (base + 64) ++ leBytes 8 1 ++ leBytes 8 0 ++ leBytes 24 0xFFFF }
/-- EngineEvents: a group of which one rank is cancelled before the other has issued, one past its gathering, and two ranks that exchange their
records. -/
theorem witness_EngineEvents_movement :
    let o := { repOf 1 with cancel := true }
    let a := movedOf 1 9 0x1000
    let b := movedOf 65537 5 0x1000
    let s := grouped [a] [b]
    ((grouped [o] []).heads 1).length < ((grouped [o] []).ranks 1).length ∧ ((grouped [o] []).group 0 1).phase = 0 ∧
    ((grouped [o] []).group 1 1).owed = [] ∧ (grouped [o] []).statMiss o = none ∧ o.pkg = 0 ∧
    ({ members := [0], phase := 1 } : Group).phase ≠ 0 ∧
    (s.ranks 1).Nodup ∧ s.heads 1 = [a, b] ∧ a.cancel = false ∧ b.cancel = false ∧ a.stride = 64 ∧ b.stride = 64 ∧ Memory.wf s.mem = true ∧
    s.pkgs.Pairwise (fun x y => x.1 < y.1) ∧ a.pkg = 0 ∧ b.pkg = 1 ∧
    splitParts 2 (sortGRecs (a.rankRecs 0 ++ b.rankRecs 1)) = [({ key := 5, rank := 1, idx := 0, w := 1 }, 0), ({ key := 9, rank := 0, idx := 0, w := 1 }, 1)] ∧
    a.places [{ key := 5, rank := 1, idx := 0, w := 1 }] [] = [(0x1040, { key := 5, rank := 1, idx := 0, w := 1 })] ∧
    a.cell 0x1040 = 0x1040 ∧ b.cell 0x1040 = physKey 1 0x1040 ∧ a.keyAt = 0xFFFF := by decide +kernel
/-- FormeEvents: a report before the deadline and after it; a gang one of whose packages is not synchronised. -/
theorem witness_FormeEvents_late :
    let f : Forme := { loaded := true, gang := some 20000#64, packages := [0] }
    let s (t : Nat) : State := { State.reset with formes := [(1, f)], pkgs := [(0, { time := t, synced := false })] }
    (f.ready.contains 0 = false ∧ f.tardy = none ∧ f.started = []) ∧ dist ((20000#64 - 10000#64).setWidth 48) ((s 10001).time 0) < 0 ∧
    ¬dist ((20000#64 - 10000#64).setWidth 48) ((s 10000).time 0) < 0 ∧ ((s 0).pkg 0).synced = false ∧ (State.reset.pkg 0).synced = true ∧
    f.awaits 0 = true ∧ ({ f with gang := none } : Forme).awaits 0 = false ∧ (s 0).formes.Pairwise (fun a b => a.1 < b.1) := by decide +kernel
/-- HostEvents: places of BAR2 that are and are not a pop. -/
theorem witness_HostEvents_bar2 :
    barPop ⟨true, 0x400000, 16, true⟩ = some 0#16 ∧ barPop ⟨true, 0x400000 + 64 * 0xFFFF, 16, true⟩ = some 0xFFFF#16 ∧
    [(⟨true, 0x800000, 16, true⟩ : BarAccess), ⟨true, 0x3FFFC0, 16, true⟩, ⟨true, 0x400008, 16, true⟩, ⟨true, 0x400000, 8, true⟩].all
      (fun a => barPop a == none) = true := by decide +kernel
/-- BootEvents: a link that has fallen since, found by step 6; the step before leadership. -/
theorem witness_BootEvents_links :
    let x : Pkg := { booting := true, bootStep := 6, fellDown := [3], tries := 1 }
    x.findings 6 [] = [(3, 0)] ∧ x.findings 5 [] = [] ∧ x.tries ≠ 0 ∧ ({ x with bootStep := 8 } : Pkg).skips 9 = false := by decide +kernel
/-- LeadershipAndPod: a LEAD with a torus that may be and one that may not; a leader that one beats. -/
theorem witness_LeadershipAndPod_torus :
    let m : LeadMsg := { round := 5, serial := 1, members := [1], coords := [(3, 0, 0)], dims := (4, 1, 1), epoch := 0, signed := true }
    let l : Leadership := { follower with leads := true }
    torusOk m = true ∧ torusOk { m with dims := (3, 1, 1) } = false ∧ torusOk { m with dims := (5, 1, 1) } = false ∧
    l.leader = some (4#64, 9#64) ∧ l.leads = true ∧ beats l.best (m.round, m.serial) = false ∧ beats (m.round, m.serial) (4#64, 9#64) = true ∧
    m.signed = true ∧ beats (4#64, 9#64) l.best = false := by decide +kernel
/-- LeadershipAndPod: keys of a region that is being revoked; a follower whose TIME is to be set, behind and ahead of its leader's. -/
theorem witness_LeadershipAndPod_time :
    ({ podOne with agenda := [.keyRevoke 0 3] } : State).revoking 0 3 = true ∧ podOne.revoking 0 3 = false ∧
    (podOne.pkg 0).lead.leads = false ∧ (podOne.pkg 0).lead.leader ≠ none ∧ (State.reset.pkg 0).lead.leader = none ∧
    0 < dist (5#48 + 1#48) (3#48) ∧ ¬0 < dist (5#48 + 1#48) (6#48) := by decide +kernel
/-- FabricAndPowerEvents: packets of no flit, of one and of 18; a message whole and in part; a message that may not begin. -/
theorem witness_FabricAndPowerEvents_messages :
    let k : Packet := { dest := 1, flits := [0#160], crcOk := true, detoured := false, msg := none }
    let s : State := { State.reset with pkgs := [(0, { lead := { dims := (2, 1, 1), coords := [(0, 0, 0), (1, 0, 0)] } })] }
    let last : Flit := 1#160 <<< 132
    packetOk k = true ∧ packetOk { k with flits := [] } = false ∧ packetOk { k with flits := List.replicate 18 0#160 } = false ∧
    { k with crcOk := false }.crcOk = false ∧ s.linkEnd 0 0 = some (1, 2) ∧ State.reset.linkEnd 0 0 = none ∧
    (s.onward 0 k).isSome = true ∧ (State.reset.onward 0 k).isSome = false ∧
    (flitSeq last = 0 ∧ flitLast last = true ∧ flitLast 0#160 = false) ∧ wholeMessage [last] = true ∧ wholeMessage [0#160] = false ∧
    joinFlit [0#160] (last ||| (1#160 <<< 133)) = [0#160, last ||| (1#160 <<< 133)] ∧
    (flitKind (1#160 <<< 137) = 1 ∧ flitKind (2#160 <<< 137) = 2 ∧ flitKind last = 0) ∧
    (let r : Router := { inject := [0#160], sent := [(0, [0#160])] }
     r.side = none ∧ (Map.find r.sent (flitId 0#160)).isSome = true) ∧ (State.reset.link 0 1).down = false := by decide +kernel
/-- FabricAndPowerEvents: a tick within an interval and one that ends it; errors at each place; a raise called for and not. -/
theorem witness_FabricAndPowerEvents_strikes :
    let a : Allot := { limit := 5, len := 2, used := 4 }
    let s : State := { State.reset with queues := [(1, { entries := [({} : QEntry)], homeDie := 3 })] }
    let at_ (e : Protected) : StorageError := { place := e, single := false }
    a.ticks + 1 < a.len ∧ ({ a with ticks := 1 } : Allot).len ≤ ({ a with ticks := 1 } : Allot).ticks + 1 ∧ a.next = none ∧
    (State.reset.pkg 0).allots = [] ∧ (State.reset.pkg 0).raise = false ∧ ({ raise := true } : Pkg).raise = true ∧ 9 ≤ ({ calm := 9 } : Pkg).calm ∧
    (3600000 < 3600001 ∧ (State.reset.pkg 0).clkStep < 24) ∧ (s.queue 1).entries[0]? = some ({} : QEntry) ∧ (at_ (.slot 1 0)).single = false ∧
    { at_ (.cell 8) with single := true }.single = true ∧ (1 : Nat) ≠ 0 ∧ 95 < 96 := by decide +kernel
/-- RecordEvents: a result queue that is full. -/
theorem witness_RecordEvents_full :
    let s : State := { State.reset with queues := [(0, { valid := true, etype := 2#2, cap := 1, entries := [{}] })] }
    let x := s.queue 0
    x.valid = true ∧ x.closed = false ∧ x.coloph.contains 0xFFFF#16 = false ∧ x.etype ≠ 3#2 ∧ x.waitPush = [] ∧ x.waitPop = [] ∧ 0 < x.cap ∧
    x.cap ≤ x.entries.length ∧ traceOk 0 (leBytes 64 16) = false := by decide +kernel
/-- StorageAndEditionEvents: a request queue whose record is due, and a load that has read its manifest when it fails; a shard to be fetched
again. -/
theorem witness_ServiceDue :
    let e : QEntry := { payload := 7#512 }
    let q : Queue := { valid := true, etype := 2#2, cap := 1, producers := [0], consumers := [0xFFFF], entries := [e] }
    let s : State := { State.reset with pkgs := [(0, { services := [(4, 1)] })], queues := [(65537, q)] }
    s.meet 65537 0xFFFF#16 = .entry 0 e ∧ s.serves 0 65537 = true ∧ s.serves 1 65537 = false ∧
    (∀ ev ∈ s.agenda, serviceRecord (s.queue 65537).homePkg 1 false ev = none) ∧
    (let r : List Byte := leBytes 64 (1 + 0x50000 * 2 ^ 192 + 1 * 2 ^ 320)
     let h : Shard := { idx := 0, at_ := 0, len := 0 }
     let x : EditionLoad := { job := 1, rcd := r, bufAt := 0x80000, stage := 1, flight := [h] }
     (storageOne.shardWrites 0 x h []).miss = none ∧ (storageOne.shardWrites 0 x h []).stop = none) := by decide +kernel
/-- StepRunsDecoded and StepRunsEvent: a slot that no dump comes before and one that one does; a halfword with an atomic on its way. -/
theorem witness_Step_pauses :
    let s := State.reset.withFetchWord 32 0x942BDEAD
    let u : State := ({ s with pkgs := [(0, { dump := some (1#64, false, 0) })] } : State).updCore 0 (fun k => { k with cycle := 9 })
    s.pausedIn 0 (s.slotCycle 0 - (s.pkg 0).cycle) = false ∧ u.candidates = [0] ∧ enabledFrom u 0 u.agenda = [] ∧
    u.pausedIn 0 (u.slotCycle 0 - (u.pkg 0).cycle) = true ∧ ({ s with cur := 0 } : State).fetchOpAhead 0 = false ∧
    (inNet s { msgOne (.atomic .add 1 0) with parts := [{ addr := 0, loc := .cell 0, size := 8 }] }).fetchOpAhead 0 = true := by decide +kernel

/-- A package whose job 1 has a key for editions, and a manifest of one empty shard at 0x60000. -/
def editionOne : State :=
  { storageOne with
    mem := [(0x10002, 0x02#8), (0x10007, 0x80#8), (0x20002, 0x03#8), (0x20007, 0x80#8), (0x30007, 0xF0#8), (0x3000A, 0x20#8), (0x3000F, 0xF0#8),
            (0x60000, 0x4D#8), (0x60001, 0x4E#8), (0x60002, 0x44#8), (0x60003, 0x45#8), (0x60004, 1#8), (0x60010, 1#8), (0x6001A, 0x20#8)]
    pkgs := [(0, { signKeys := [(2 ^ 32, 0#768)] })] }
/-- A load of it. -/
def loadOne : EditionLoad :=
  { job := 1, rcd := leBytes 64 (1 + 0x60000 * 2 ^ 64 + 352 * 2 ^ 128 + 0x50000 * 2 ^ 192 + 1 * 2 ^ 320), bufAt := 0x200000 }
/-- Its manifest. -/
def manOne : List Byte := (editionOne.descRead 0 1 0x60000 352).1
/-- Its package with the load begun. -/
def editionBegun : State := editionOne.updPkg 0 (fun y => { y with editions := y.editions ++ [loadOne] })
/-- Editions: with its signature good, the load goes to slot 1, which is free and empty, and its buffer can be declared. -/
theorem witness_EditionEvents_begins (h : editionBegun.manSigned 0 1 manOne = true) :
    let desc := loadKey 1 loadOne.rcd
    let u := editionBegun
    let w := u.updPkg 0 (fun y => { y with oldSlots := y.oldSlots.filter (fun o => !(o.desc == desc && o.slot == 1)) })
    editionOne.svcTake 0 1 1 loadOne.rcd = some editionOne ∧ editionOne.loadOf 0 desc = none ∧ u.loadNext 0 loadOne = .go manOne 1 ∧
    recNat (u.descRead 0 1 (descAddr desc + 16 + 16 * 1) 16).1 0 8 = 0 ∧
    (w.declare (svcCtx 0) 1 loadOne.bufAt (manLength manOne)).1 = 0 := by
  intro desc u w
  have h' : u.manSigned 0 1 manOne = true := h
  have e : loadOne.job.toNat = 1 := rfl
  have c : u.jobCancelled 1 = false := by decide +kernel
  have l : (!loadOk loadOne.rcd ∨ recNat loadOne.rcd 16 8 < 192 ∨ 192 + 160 * 65535 < recNat loadOne.rcd 16 8) = False := by
    simp only [eq_iff_iff, iff_false]; decide +kernel
  have a : u.descRead 0 1 (recNat loadOne.rcd 8 8) (recNat loadOne.rcd 16 8) = (manOne, (u.descRead 0 1 0x60000 352).2) := by
    decide +kernel
  have m : (u.descRead 0 1 0x60000 352).2.miss = none := by decide +kernel
  have t : (u.descRead 0 1 0x60000 352).2.stop = none := by decide +kernel
  have o : manOk manOne = true := by decide +kernel
  have w : (u.descRead 0 1 (loadDesc loadOne.rcd) 64).2.miss = none ∧ (u.descRead 0 1 (loadDesc loadOne.rcd) 64).2.stop = none ∧
      nextFor manOne (recNat (u.descRead 0 1 (loadDesc loadOne.rcd) 64).1 0 8) = .go manOne 1 := by decide +kernel
  refine ⟨by decide +kernel, by decide +kernel, ?_, by decide +kernel, by decide +kernel⟩
  simp only [State.loadNext, e, c, l, a, m, t, o, h', w.1, w.2.1, w.2.2, Bool.false_eq_true, Bool.not_true, if_false]
end

section
/-! SUPPORT. The integer register and imm11 instructions and the constants: their results on words as the tables give them, the
words they encode to, and that each completes (spec/08_isa_scalar.md R168, R169, R173, R176, R177). -/

namespace Sys2Proof.Machine

/-! ### Results of R168, R169 and R173 on words -/

theorem add_eq_ofNat (x y : Word) : x + y = BitVec.ofNat 64 (x.toNat + y.toNat) := by
  rw [BitVec.ofNat_add, BitVec.ofNat_toNat, BitVec.ofNat_toNat, BitVec.setWidth_eq, BitVec.setWidth_eq]

theorem sub_eq_ofInt (x y : Word) : x - y = BitVec.ofInt 64 (x.toInt - y.toInt) := by
  rw [Int.sub_eq_add_neg, BitVec.ofInt_add, BitVec.ofInt_neg, BitVec.ofInt_toInt, BitVec.ofInt_toInt, BitVec.sub_eq_add_neg]

theorem mul_eq_ofInt (x y : Word) : x * y = BitVec.ofInt 64 (x.toInt * y.toInt) := by
  rw [BitVec.ofInt_mul, BitVec.ofInt_toInt, BitVec.ofInt_toInt]

/-- A shift left multiplies the natural value, whatever the width of the value shifted. -/
theorem setWidth_shiftLeft_eq_ofNat {w : Nat} (x : BitVec w) (n : Nat) :
    x.setWidth 64 <<< n = BitVec.ofNat 64 (x.toNat * 2 ^ n) := by
  apply BitVec.eq_of_toNat_eq
  simp [Nat.shiftLeft_eq]

theorem shiftLeft_eq_ofNat (x : Word) (n : Nat) : x <<< n = BitVec.ofNat 64 (x.toNat * 2 ^ n) := by
  rw [← setWidth_shiftLeft_eq_ofNat, BitVec.setWidth_eq]

theorem ushiftRight_eq_ofNat (x : Word) (n : Nat) : x >>> n = BitVec.ofNat 64 (x.toNat / 2 ^ n) := by
  rw [← Nat.shiftRight_eq_div_pow, ← BitVec.toNat_ushiftRight, BitVec.ofNat_toNat, BitVec.setWidth_eq]

theorem sshiftRight_eq_ofInt (x : Word) (n : Nat) : x.sshiftRight n = BitVec.ofInt 64 (x.toInt / 2 ^ n) := by
  rw [BitVec.sshiftRight, Int.shiftRight_eq_div_pow, Nat.cast_pow, Nat.cast_ofNat]

/-- A rotation by 0 is set apart: a shift right by the whole width would give 0. -/
theorem rotateLeft_eq_ite (x : Word) {n : Nat} (hn : n < 64) :
    x.rotateLeft n = if n = 0 then x else x <<< n ||| x >>> (64 - n) := by
  rw [BitVec.rotateLeft_eq_rotateLeftAux_of_lt hn, BitVec.rotateLeftAux]
  split
  · subst n; rw [BitVec.shiftLeft_zero, BitVec.ushiftRight_eq_zero (Nat.le_refl 64), BitVec.or_zero]
  · rfl

theorem sMin_eq_ite (x y : Word) : sMin x y = if x.toInt ≤ y.toInt then x else y := by
  simp only [sMin, BitVec.slt_iff_toInt_lt, ← Int.not_le, ite_not]

theorem nMin_eq_ite (x y : Word) : nMin x y = if x.toNat ≤ y.toNat then x else y := by
  simp only [nMin, BitVec.ult_iff_toNat_lt, ← Nat.not_le, ite_not]

/-- The tie of equal values may go to either operand: they are the same word. -/
theorem ite_lt_eq_ite_le {α : Type} [LinearOrder α] {f : Word → α} (hf : Function.Injective f) (x y : Word) :
    (if f x < f y then y else x) = if f x ≤ f y then y else x := by
  rcases lt_trichotomy (f x) (f y) with h | h | h
  · rw [if_pos h, if_pos h.le]
  · rw [hf h, ite_self, ite_self]
  · rw [if_neg h.not_gt, if_neg h.not_ge]

theorem sMax_eq_ite (x y : Word) : sMax x y = if x.toInt ≤ y.toInt then y else x := by
  rw [← ite_lt_eq_ite_le (fun _ _ => BitVec.eq_of_toInt_eq)]
  simp only [sMax, BitVec.slt_iff_toInt_lt]

theorem nMax_eq_ite (x y : Word) : nMax x y = if x.toNat ≤ y.toNat then y else x := by
  rw [← ite_lt_eq_ite_le (fun _ _ => BitVec.eq_of_toNat_eq)]
  simp only [nMax, BitVec.ult_iff_toNat_lt]

theorem boolWord_eq_ite {b : Bool} {p : Prop} [Decidable p] (h : b = true ↔ p) : boolWord b = if p then 1 else 0 := by
  simp only [boolWord, h]
  rfl

theorem boolWord_slt (x y : Word) : boolWord (x.slt y) = if x.toInt < y.toInt then 1 else 0 :=
  boolWord_eq_ite BitVec.slt_iff_toInt_lt

theorem boolWord_ult (x y : Word) : boolWord (x.ult y) = if x.toNat < y.toNat then 1 else 0 :=
  boolWord_eq_ite BitVec.ult_iff_toNat_lt

/-! ### Fields replaced (R175, R176) -/

/-- The mask of a field: ones in its bits. -/
theorem getLsbD_fieldMask (pos len j : Nat) :
    (BitVec.ofNat 64 ((2 ^ len - 1) * 2 ^ pos)).getLsbD j = decide (j < 64 ∧ pos ≤ j ∧ j < pos + len) := by
  rw [BitVec.getLsbD_ofNat, Nat.testBit_mul_two_pow, Nat.testBit_two_pow_sub_one, ← Bool.decide_and, ← Bool.decide_and,
    decide_eq_decide]
  omega

/-- A field inside the word replaced, bit by bit. -/
theorem getLsbD_bfiWord (t x : Word) {pos len : Nat} (h : pos + len ≤ 64) (j : Nat) :
    (bfiWord t x pos len).getLsbD j = if pos ≤ j ∧ j < pos + len then x.getLsbD (j - pos) else t.getLsbD j := by
  simp only [bfiWord, BitVec.getLsbD_or, BitVec.getLsbD_and, BitVec.getLsbD_not, BitVec.getLsbD_shiftLeft, getLsbD_fieldMask]
  by_cases hj : j < 64
  · by_cases hf : pos ≤ j ∧ j < pos + len
    · simp [hj, hf, Nat.not_lt.mpr hf.1]
    · simp [hj, hf]
  · have hf : ¬ (pos ≤ j ∧ j < pos + len) := by omega
    simp [hj, hf, BitVec.getLsbD_of_ge t j (Nat.not_lt.mp hj)]

/-- LIMH replaces bits [16·sh + 15 : 16·sh] (R176). -/
theorem getLsbD_limhWord (t : Word) (h : BitVec 2) (i : Half) (j : Nat) :
    (limhWord t h i).getLsbD j =
      if 16 * h.toNat ≤ j ∧ j < 16 * h.toNat + 16 then i.getLsbD (j - 16 * h.toNat) else t.getLsbD j := by
  have hh : h.toNat < 4 := h.isLt
  rw [limhWord, getLsbD_bfiWord t _ (by omega)]
  split
  · rw [BitVec.getLsbD_setWidth, decide_eq_true (by omega), Bool.true_and]
  · rfl

/-! ### Words of the encodings (R154) -/

theorem pack_imm11 (m d a n : Nat) :
    pack [(11, n), (7, a), (7, d), (7, m + 64)] = m * 2 ^ 25 + 2 ^ 31 + d * 2 ^ 18 + a * 2 ^ 11 + n := by
  simp only [pack]; omega

theorem pack_imm16 (m d h n : Nat) :
    pack [(16, n), (2, h), (7, d), (7, m)] = m * 2 ^ 25 + d * 2 ^ 18 + h * 2 ^ 16 + n := by
  simp only [pack]; omega

theorem pack_imm18 (m d n : Nat) : pack [(18, n), (7, d), (7, m)] = m * 2 ^ 25 + d * 2 ^ 18 + n := by
  simp only [pack]; omega

theorem encode_limz (d : GIdx) (h : BitVec 2) (i : Half) :
    encode (.limz d h i) = .w32 (BitVec.ofNat 32 (0x94000000 + d.toNat * 2 ^ 18 + h.toNat * 2 ^ 16 + i.toNat)) := by
  simp only [encode, pack_imm16]; rfl

theorem encode_limh (d : GIdx) (h : BitVec 2) (i : Half) :
    encode (.limh d h i) = .w32 (BitVec.ofNat 32 (0x96000000 + d.toNat * 2 ^ 18 + h.toNat * 2 ^ 16 + i.toNat)) := by
  simp only [encode, pack_imm16]; rfl

theorem encode_adpc (d : GIdx) (i : BitVec 18) :
    encode (.adpc d i) = .w32 (BitVec.ofNat 32 (0x98000000 + d.toNat * 2 ^ 18 + i.toNat)) := by
  simp only [encode, pack_imm18]; rfl

/-! ### Instructions of 8 cycles or less complete (R166) -/

section Completes

variable {s : State} {d a b : GIdx} {i : Instr} {v : Word}

theorem exec_completes_of_aluRR {f : Word → Word → Word} (hs : s.canIssue [a.toNat, b.toNat] [d.toNat] = true)
    (he : exec i s = .next (s.aluRR d a b f)) (hv : f (s.g a.toNat) (s.g b.toNat) = v) :
    ∃ t, exec i s = .next t ∧ Alu s t d.toNat v (s.pcNext 4) [a.toNat, b.toNat] :=
  ⟨_, he, hv ▸ State.alu_runs (u := useRR d a b) d.toNat _ hs (by simp [useRR]) rfl rfl⟩

theorem exec_completes_of_aluRI {f : Word → Word} (hs : s.canIssue [a.toNat] [d.toNat] = true)
    (he : exec i s = .next (s.aluRI d a f)) (hv : f (s.g a.toNat) = v) :
    ∃ t, exec i s = .next t ∧ Alu s t d.toNat v (s.pcNext 4) [a.toNat] :=
  ⟨_, he, hv ▸ State.alu_runs (u := useRI d a) d.toNat _ hs (by simp [useRI]) rfl rfl⟩

/-- An instruction that names no register but its destination, which may be a source too. -/
theorem exec_completes_of_aluD {f : State → Word} {src : List Nat} (hs : s.canIssue src [d.toNat] = true)
    (he : exec i s = .next (s.alu { useD d with gsrc := src } d.toNat f)) (hv : f s = v) :
    ∃ t, exec i s = .next t ∧ Alu s t d.toNat v (s.pcNext 4) src :=
  ⟨_, he, hv ▸ State.alu_runs (u := { useD d with gsrc := src }) d.toNat f hs (by simp [useD]) rfl rfl⟩

end Completes

/-! ### The rules -/

/-- Each row of R168 and R169 is one function of the two registers; what is left is that function on words. -/
theorem integerRegisterRule : IntegerRegisterRule := by
  intro s d a b hs x y sh runs
  have hsh : sh < 64 := Nat.mod_lt _ (by decide)
  have run {i : Instr} {v : Word} (f : Word → Word → Word) (he : exec i s = .next (s.aluRR d a b f)) (hv : f x y = v) :
      runs i v := exec_completes_of_aluRR hs he hv
  exact ⟨run _ rfl (add_eq_ofNat x y), run _ rfl (sub_eq_ofInt x y), run _ rfl rfl, run _ rfl rfl, run _ rfl rfl, run _ rfl rfl,
    run _ rfl (shiftLeft_eq_ofNat x sh), run _ rfl (ushiftRight_eq_ofNat x sh), run _ rfl (sshiftRight_eq_ofInt x sh),
    run _ rfl (rotateLeft_eq_ite x hsh), run _ rfl (sMin_eq_ite x y), run _ rfl (sMax_eq_ite x y), run _ rfl (nMin_eq_ite x y),
    run _ rfl (nMax_eq_ite x y), run _ rfl (boolWord_slt x y), run _ rfl (boolWord_ult x y), run _ rfl (mul_eq_ofInt x y),
    run _ rfl rfl, run _ rfl rfl, run _ rfl (boolWord_eq_ite beq_iff_eq)⟩

theorem integerImmediateRule : IntegerImmediateRule := by
  intro s d a i hs x k runs n word
  have run {i : Instr} {v : Word} (f : Word → Word) (he : exec i s = .next (s.aluRI d a f)) (hv : f x = v) : runs i v :=
    exec_completes_of_aluRI hs he hv
  have enc {i : Instr} (m : Nat) (he : encode i = .w32 (.ofNat 32 (pack [(11, n), (7, a.toNat), (7, d.toNat), (7, m + 64)]))) :
      word i m := by rw [pack_imm11] at he; exact he
  exact ⟨enc 2 rfl, enc 3 rfl, enc 4 rfl, enc 5 rfl, enc 6 rfl, run _ rfl rfl, run _ rfl rfl, run _ rfl rfl, run _ rfl rfl,
    run _ rfl (boolWord_slt x k)⟩

theorem loadImmediateRule : LoadImmediateRule := by
  refine ⟨fun s d h i hs => ⟨encode_limz d h i, ?_⟩, fun s d h i hs => ⟨encode_limh d h i, ?_⟩⟩
  · exact exec_completes_of_aluD hs rfl (setWidth_shiftLeft_eq_ofNat i (16 * h.toNat))
  · obtain ⟨t, ht, hr⟩ := exec_completes_of_aluD (i := .limh d h i) hs rfl rfl
    exact ⟨t, _, ht, hr, getLsbD_limhWord (s.g d.toNat) h i⟩

/-- A shift left by 1 is the × 2 of R177. -/
theorem addToPcRule : AddToPcRule := by
  intro s d i hs
  refine ⟨encode_adpc d i, exec_completes_of_aluD hs rfl ?_⟩
  exact congrArg (s.me.pc + ·) (BitVec.shiftLeft_eq_mul_twoPow (i.signExtend 64) 1)

/-- Settles O1: the register rows of R168 and R169 and the imm11 forms of R173, each from the result of its function on words. -/
theorem integerArithmetic : Obligations.IntegerArithmetic := ⟨integerRegisterRule, integerImmediateRule⟩

/-- Settles O2: LIMZ as a shift left, LIMH as a field replaced bit by bit, ADPC from the PC of the instruction. -/
theorem constants : Obligations.Constants := ⟨loadImmediateRule, addToPcRule⟩

end Sys2Proof.Machine
end
